-- ==== Sys2Proof/Word.lean ====
section
/-! DEFINITION. The plain word types of the model (bytes, 32-bit register words, TSC instants) and the shapes of the data that
commands carry from outside. -/

namespace Sys2Proof

/-- One byte. -/
abbrev Byte := BitVec 8

/-- One 32-bit register word (R4). -/
abbrev Word := BitVec 32

/-- A TSC instant in nanoseconds (R24). -/
abbrev Time := BitVec 64

/-- What a planning program reports of a segment (R52–R57): a reason its own check found (8, 9, 14 or 0), and for tool-point kinds
the path length in m and the lowered limits of R55 (for a SPLINE the limits on its parameter), the speed of the path parameter at a
join with the predecessor and with the successor (R57), and the entry point of R251 as a position of the path parameter, as binary64
patterns. -/
structure PlanData where
  reason : Nat
  len : BitVec 64
  v : BitVec 64
  a : BitVec 64
  j : BitVec 64
  start : BitVec 64
  join : BitVec 64
  entry : BitVec 64
  deriving DecidableEq, Repr, Inhabited

/-- Bytes written from a fabric address on (R74). -/
structure MemWrite where
  addr : BitVec 32
  data : List Byte
  deriving DecidableEq, Repr, Inhabited

/-- The outcome of a run of a planning program (R75, R79, R84): its plan, its writes, and the dependence counter it names. -/
structure ItemResult where
  plan : PlanData
  writes : List MemWrite
  counter : Option (Fin 64)
  deriving DecidableEq, Repr, Inhabited

/-- Where an item comes from (R75, R76): the head record of a queue, a descriptor that the program on a logical core submits, the oldest
submission that waits for room, or a trigger of an event flow (512 + the number). -/
inductive ItemSource where
  | queue (q : Fin 32)
  | submit (core : Fin 16) (desc : List Byte)
  | waiting
  | event (flow : Fin 64)
  deriving DecidableEq, Repr, Inhabited

/-- A line action that a planning core arms by the internal path (R37): ACT_TRIG, ACT_TOL and ACT_SPEC. -/
structure ActSpec where
  trig : BitVec 64
  tol : BitVec 32
  spec : BitVec 32
  deriving DecidableEq, Repr, Inhabited

/-- A move of a Format P instruction (R130): destination d0–d7, pointer, U (true: update code 3). -/
structure PMove where
  d : Fin 8
  p : Fin 8
  u : Bool
  deriving DecidableEq, Repr, Inhabited

/-- Where a service request comes from (R407, R410): source address and port, the Ethernet port that takes it, its TAG, and whether 16
requests are waiting when it arrives. -/
structure UdpFrom where
  ip : Word
  sport : BitVec 16
  port : Fin 2
  tag : Word
  full : Bool
  deriving DecidableEq, Repr, Inhabited

end Sys2Proof
end

