-- ==== Sys2Proof/Syntax.lean ====
section
/-! DEFINITION. The commands of the block: one constructor for each row of the table of operations and events. `t` is the TSC instant at
which a command reaches the controller; `e` names a logical loop engine. -/

namespace Sys2Proof

/-- A command. -/
inductive Instr where
  /-- POWER_GOOD (R387): A rise of PGOOD starts POWER_UP: clocks, life-cycle state, repair record and mapping, carried-over tests, DRAM
  training, then LOAD or UNCONFIGURED or SAFE_HOLD by R19. -/
  | powerGood (node : Fin 512) (pos : Fin 2) (svc : Bool) (flash : BitVec 16) (trained : Fin 4)
  /-- POWER_GOOD_LOSS (R440): A low on PGOOD of 200 ns or more resets the controller die while channel B holds STO. -/
  | powerGoodLoss (t : Time)
  /-- CHANNEL_B_READY (R384): Channel B reports ready over the stop demand path, and a POWER_UP that was waiting for it proceeds. -/
  | channelBReady (t : Time)
  /-- IMAGE_COPIES_READ (R378): Completion of LOAD's check of both image copies: a copy is selected and applied, the cycle timer starts,
  and the device enters BRING_UP, or UNCONFIGURED when no copy is valid. -/
  | imageCopiesRead (t : Time) (agA agB : Bool)
  /-- RELOAD (R19): A DEV_CTRL.RELOAD write requests a controlled stop followed by a new LOAD. -/
  | reload (t : Time)
  /-- REDUCED_REQ (R19): A DEV_CTRL.REDUCED_REQ write requests REDUCED from AUTOMATIC. -/
  | reducedReq (t : Time)
  /-- AUTO_REQ (R19): A DEV_CTRL.AUTO_REQ write requests AUTOMATIC from REDUCED, or sets AUTO_REFUSED when the conditions are not met.
  -/
  | autoReq (t : Time)
  /-- SHDN_REQ_ASSERTED (R20): SHDN_REQ_N is accepted as asserted and leads to STOPPING, SHUTDOWN_TEST or OFF_READY by R19. -/
  | shdnReqAsserted (t : Time)
  /-- SHDN_REQ_RELEASED (R392): SHDN_REQ_N is accepted as released, which negates OFF_READY or abandons a shutdown test and starts
  POWER_UP. -/
  | shdnReqReleased (t : Time)
  /-- BRING_UP_COMPLETE (R19): Every ring of the image has run 16 consecutive valid cycles and both channels are ready, so the device
  enters REDUCED. -/
  | bringUpComplete (t : Time)
  /-- BRING_UP_TIMEOUT (R19): One second after entry to BRING_UP, the axes of rings that are not running are faulted and the device
  enters REDUCED. -/
  | bringUpTimeout (t : Time)
  /-- STOPPING_COMPLETE (R19): In STOPPING, every axis has become torque-free, and the device goes to LOAD, SHUTDOWN_TEST, REDUCED or
  asserts OFF_READY. -/
  | stoppingComplete (t : Time)
  /-- RING_CYCLE_START (R12): The cycle timer begins a ring cycle, increments the cycle number and sends the cycle-start frames and the
  polls of the cycle. -/
  | ringCycleStart
  /-- CYCLE_LO_READ (R23): A read of CYCLE_LO latches the cycle number for CYCLE_HI. -/
  | cycleLoRead (t : Time) (udp : Bool)
  /-- TSC_LO_READ (R25): A read of TSC_LO latches the whole TSC for TSC_HI. -/
  | tscLoRead (t : Time) (udp : Bool)
  /-- CYCLE_TSC_LO_READ (R25): A read of CYCLE_TSC_LO latches the TSC of the cycle-start for CYCLE_TSC_HI. -/
  | cycleTscLoRead (t : Time) (udp : Bool)
  /-- LINE_POS_LO_READ (R44): A read of LINE_POS_LO latches LINE_POS_HI. -/
  | linePosLoRead (t : Time) (udp : Bool) (k : Fin 8)
  /-- LINE_VRATE_WRITE (R31): A write to LINE_VRATE of a virtual line takes effect at the next ring-cycle start. -/
  | lineVrateWrite (t : Time) (k : Fin 8) (v : Word)
  /-- LINE_RESUME (R34): LINE_CTRL.RESUME resumes a lost line at the next ring-cycle start if its source is healthy again, and is
  otherwise discarded. -/
  | lineResume (t : Time) (k : Fin 8)
  /-- LINE_PRESET (R35): LINE_CTRL.PRESET loads LINE_PRESET into the line at the next ring-cycle start through an offset. -/
  | linePreset (t : Time) (k : Fin 8)
  /-- ACT_ARM (R37): An ACT_ARM write checks the staged line action and allocates the lowest free index, reporting the outcome in
  ACT_RESULT. -/
  | actArm (t : Time) (tag : BitVec 16) (core : Option ActSpec)
  /-- ACT_CANCEL (R43): An ACT_CANCEL write cancels a pending line action, giving CANCELLED or NOT_PENDING. -/
  | actCancel (t : Time) (n : Fin 1024) (tag : BitVec 16)
  /-- ACTION_EXECUTE (R38): A scheduled line action reaches its execution instant and takes its effect by KIND, and its index is freed.
  -/
  | actionExecute (t : Time)
  /-- ISL_ENABLE (R48): ISL_CTRL.ENABLE starts the enable sequence of every axis in the subtree of the island at a servo boundary. -/
  | islEnable (t : Time) (i : Fin 512)
  /-- ISL_DISABLE (R48): ISL_CTRL.DISABLE starts the disable sequence of every axis in the subtree of the island. -/
  | islDisable (t : Time) (i : Fin 512)
  /-- ISL_HOLD (R65): ISL_CTRL.HOLD makes a path-hold stop and puts the flow in HOLDING with cause HOST. -/
  | islHold (t : Time) (i : Fin 512)
  /-- ISL_RESUME (R65): ISL_CTRL.RESUME moves a flow out of HOLDING by the flow-state table. -/
  | islResume (t : Time) (i : Fin 512)
  /-- ISL_FLUSH (R65): ISL_CTRL.FLUSH stops the flow and discards its running and released segments. -/
  | islFlush (t : Time) (i : Fin 512)
  /-- ISL_SS1 (R65): ISL_CTRL.SS1 requests SS1 of the island, and its flow enters STOPPING. -/
  | islSs1 (t : Time) (i : Fin 512)
  /-- PG_GO (R67): PG_CTRL.GO takes PG_TARGET and starts or retargets the profile generator of the axis, or is refused. -/
  | pgGo (t : Time) (a : Fin 256) (dir : Fin 4)
  /-- PG_STOP (R67): PG_CTRL.STOP brings the profile generator of the axis to rest. -/
  | pgStop (t : Time) (a : Fin 256)
  /-- ITEM_ADMIT (R76): An item from a queue record or a planning-core submission is admitted to the matching store once an entry and
  flow room are free, and checks are made. -/
  | itemAdmit (t : Time) (src : ItemSource)
  /-- OPERAND_DELIVER (R78): A queue head word is popped and delivered to the oldest entry that has an empty slot naming that queue. -/
  | operandDeliver (t : Time) (q : Fin 32)
  /-- SCHED_OPND (R78): A SCHED_OPND write delivers the staged host word to a slot as kind 5 and reports the outcome in
  SCHED_OPND_RESULT. -/
  | schedOpnd (t : Time) (e : Fin 1024) (k : Fin 4) (tag : BitVec 16)
  /-- ITEM_DISPATCH (R81): A ready item is dispatched to a planning core, pre-empting a lower-ranked item when no core is idle. -/
  | itemDispatch (t : Time)
  /-- ITEM_COMPLETE (R84): A planning item completes; the reorder window releases it and its completed successors, and counters are
  updated. -/
  | itemComplete (t : Time) (c : Fin 16) (r : ItemResult)
  /-- ITEM_TIMEOUT (R83): An item that exceeds ITEM_MAX of core time is aborted and re-dispatched once, or discarded the second time. -/
  | itemTimeout (t : Time) (c : Fin 16)
  /-- FABRIC_GRANT (R87): At the last beat of the owner the target arbiter chooses the next owner and sends hints to the losers. -/
  | fabricGrant (t : Time) (k : Fin 33) (reqs : List (Fin 64 × Fin 257))
  /-- FABRIC_QUOTA_WINDOW (R89): A new 1 µs window begins, and the high-class grant counts of the targets are reset. -/
  | fabricQuotaWindow (t : Time)
  /-- FABRIC_HANG (R90): A grant held for 20 µs makes the watchdog bite; the port is isolated and the dependent islands are brought to
  SS1. -/
  | fabricHang (t : Time) (k : Fin 33)
  /-- FAB_CLR_MAX (R92): FAB_CTRL.CLR_MAX clears MAX_HOLD of every target. -/
  | fabClrMax (t : Time)
  /-- LAW_TASK_START (R105): A main task of a loop engine starts once the uplinks of its axes are in the mailbox. -/
  | lawTaskStart (t : Time) (e : Fin 16)
  /-- EXT_TASK_START (R126): An extension task becomes ready after the last main task of the ring cycle and runs on register set 1. -/
  | extTaskStart (t : Time) (e : Fin 16)
  /-- DOWNLINK_DEADLINE (R106): At an axis's deadline the ring master reads the committed downlink or sends held duties for an overrun.
  -/
  | downlinkDeadline (t : Time) (e : Fin 16) (sl : Fin 24)
  /-- LE_RESTORE (R106): LE_CTRL.RESTORE restores the shed extension tasks at the next ring-cycle start. -/
  | leRestore (t : Time) (e : Fin 16)
  /-- LE_CLR_PEAK (R116): LE_CTRL.CLR_PEAK clears LE_LOAD.PEAK. -/
  | leClrPeak (t : Time) (e : Fin 16)
  /-- LAW_COEF_DATA_WRITE (R102): A LAW_COEF_DATA write queues a coefficient for the slot, bank and index that LAW_COEF_SEL names. -/
  | lawCoefDataWrite (t : Time) (e : Fin 16) (v : Word)
  /-- LAW_SWITCH_FORCE_A (R103): A LAW_SWITCH write with ACTION 1 queues a forced switch of the slot to bank A. -/
  | lawSwitchForceA (t : Time) (e : Fin 16) (sl : Fin 32)
  /-- LAW_SWITCH_FORCE_B (R103): A LAW_SWITCH write with ACTION 2 queues a forced switch of the slot to bank B. -/
  | lawSwitchForceB (t : Time) (e : Fin 16) (sl : Fin 32)
  /-- BAND_WRITE (R101): A write to BAND_OUTER, BAND_INNER or BAND_CFG takes effect at the next servo boundary or is refused. -/
  | bandWrite (t : Time) (e : Fin 16) (sl : Fin 24) (r : Fin 3) (v : Word)
  /-- LIVE_WRITE_CLEAR (R104): A write of 1 to LAW_STAT.LIVE_WRITE clears the flag and LIVE_WRITES. -/
  | liveWriteClear (t : Time) (e : Fin 16) (sl : Fin 24)
  /-- TRACE_ARM (R112): TR_CTRL.ARM clears the trace buffer and starts capture in ARMED. -/
  | traceArm (t : Time) (e : Fin 16)
  /-- TRACE_STOP (R112): TR_CTRL.STOP ends capture in IDLE. -/
  | traceStop (t : Time) (e : Fin 16)
  /-- TRACE_FORCE (R112): TR_CTRL.FORCE triggers the trace at the next record. -/
  | traceForce (t : Time) (e : Fin 16)
  /-- TRACE_CFG_WRITE (R113): A write to TR_CFG or TR_CHn applies at once, is held pending until index 0, or is refused. -/
  | traceCfgWrite (t : Time) (e : Fin 16) (r : Fin 9) (v : Word)
  /-- NOP (R131): A loop-engine NOP instruction does nothing. -/
  | leNop (e : Fin 16)
  /-- ADD (R131): ADD adds two d registers with saturation. -/
  | leAdd (e : Fin 16) (a b c : Fin 32)
  /-- SUB (R131): SUB subtracts two d registers with saturation. -/
  | leSub (e : Fin 16) (a b c : Fin 32)
  /-- NEG (R131): NEG negates a d register with saturation. -/
  | leNeg (e : Fin 16) (a b : Fin 32)
  /-- ABS (R131): ABS takes the magnitude of a d register with saturation. -/
  | leAbs (e : Fin 16) (a b : Fin 32)
  /-- MIN (R131): MIN takes the lesser of two d registers. -/
  | leMin (e : Fin 16) (a b c : Fin 32)
  /-- MAX (R131): MAX takes the greater of two d registers. -/
  | leMax (e : Fin 16) (a b c : Fin 32)
  /-- CLMP (R131): CLMP clamps a d register to plus or minus the magnitude of another. -/
  | leClmp (e : Fin 16) (a b c : Fin 32)
  /-- AND (R131): AND forms the bitwise and of two d registers. -/
  | leAnd (e : Fin 16) (a b c : Fin 32)
  /-- OR (R131): OR forms the bitwise or of two d registers. -/
  | leOr (e : Fin 16) (a b c : Fin 32)
  /-- XOR (R131): XOR forms the bitwise exclusive or of two d registers. -/
  | leXor (e : Fin 16) (a b c : Fin 32)
  /-- NOT (R131): NOT forms the bitwise complement of a d register. -/
  | leNot (e : Fin 16) (a b : Fin 32)
  /-- ASL (R131): ASL shifts a d register left with saturation. -/
  | leAsl (e : Fin 16) (a b k : Fin 32)
  /-- ASR (R131): ASR shifts a d register arithmetically right. -/
  | leAsr (e : Fin 16) (a b k : Fin 32)
  /-- LSR (R131): LSR shifts a d register logically right. -/
  | leLsr (e : Fin 16) (a b k : Fin 32)
  /-- MOVD (R131): MOVD copies a d register. -/
  | leMovd (e : Fin 16) (a b : Fin 32)
  /-- SEL (R131): SEL selects one of two d registers by a condition code. -/
  | leSel (e : Fin 16) (a b c : Fin 32) (cc : Fin 16)
  /-- CMP (R131): CMP sets the flags from the exact difference of two d registers. -/
  | leCmp (e : Fin 16) (b c : Fin 32)
  /-- ADDA (R131): ADDA adds two accumulators. -/
  | leAdda (e : Fin 16) (a b c : Fin 8)
  /-- SUBA (R131): SUBA subtracts two accumulators. -/
  | leSuba (e : Fin 16) (a b c : Fin 8)
  /-- NEGA (R131): NEGA negates an accumulator. -/
  | leNega (e : Fin 16) (a b : Fin 8)
  /-- ABSA (R131): ABSA takes the magnitude of an accumulator. -/
  | leAbsa (e : Fin 16) (a b : Fin 8)
  /-- CLRA (R131): CLRA clears an accumulator. -/
  | leClra (e : Fin 16) (a : Fin 8)
  /-- MVA (R131): MVA copies an accumulator. -/
  | leMva (e : Fin 16) (a b : Fin 8)
  /-- LDA (R131): LDA places a d register into an accumulator at bits 47:24. -/
  | leLda (e : Fin 16) (a : Fin 8) (b : Fin 32)
  /-- ADDAD (R131): ADDAD adds a placed d register to an accumulator. -/
  | leAddad (e : Fin 16) (a b : Fin 8) (c : Fin 32)
  /-- SHA (R131): SHA shifts an accumulator by an immediate count. -/
  | leSha (e : Fin 16) (a b : Fin 8) (k : BitVec 9)
  /-- SHAV (R131): SHAV shifts an accumulator by a count held in a d register. -/
  | leShav (e : Fin 16) (a b : Fin 8) (c : Fin 32)
  /-- CMPA (R131): CMPA sets the flags from the exact difference of two accumulators. -/
  | leCmpa (e : Fin 16) (b c : Fin 8)
  /-- RDA (R123): RDA rounds an accumulator into a d register with saturation. -/
  | leRda (e : Fin 16) (a : Fin 32) (b : Fin 8)
  /-- RDT (R123): RDT truncates an accumulator into a d register with saturation. -/
  | leRdt (e : Fin 16) (a : Fin 32) (b : Fin 8)
  /-- EXPA (R124): EXPA gives the normalisation count of an accumulator. -/
  | leExpa (e : Fin 16) (a : Fin 32) (b : Fin 8)
  /-- EXPD (R124): EXPD gives the normalisation count of a d register. -/
  | leExpd (e : Fin 16) (a b : Fin 32)
  /-- MPYA (R131): MPYA multiplies two d registers into any accumulator. -/
  | leMpya (e : Fin 16) (a : Fin 8) (b c : Fin 32)
  /-- MACA (R131): MACA adds a product of two d registers to an accumulator. -/
  | leMaca (e : Fin 16) (a : Fin 8) (b c : Fin 32)
  /-- MSUA (R131): MSUA subtracts a product of two d registers from an accumulator. -/
  | leMsua (e : Fin 16) (a : Fin 8) (b c : Fin 32)
  /-- SCS (R131): SCS computes the sine and cosine of an angle into a register pair. -/
  | leScs (e : Fin 16) (a b : Fin 32)
  /-- RSQ (R131): RSQ computes 1/(2√x) of an accumulator value. -/
  | leRsq (e : Fin 16) (a : Fin 32) (b : Fin 8)
  /-- RCP (R131): RCP computes 1/(2x) of a d register. -/
  | leRcp (e : Fin 16) (a b : Fin 32)
  /-- MVP (R131): MVP copies a pointer. -/
  | leMvp (e : Fin 16) (a b : Fin 8)
  /-- ADDP (R131): ADDP adds a d register to a pointer. -/
  | leAddp (e : Fin 16) (a b : Fin 8) (c : Fin 32)
  /-- ADDPI (R131): ADDPI adds an immediate to a pointer. -/
  | leAddpi (e : Fin 16) (a b : Fin 8) (k : BitVec 9)
  /-- MVDP (R131): MVDP loads a pointer from a d register. -/
  | leMvdp (e : Fin 16) (a : Fin 8) (b : Fin 32)
  /-- MVPD (R131): MVPD copies a pointer into a d register. -/
  | leMvpd (e : Fin 16) (a : Fin 32) (b : Fin 8)
  /-- MTS (R131): MTS writes a special register from a d register. -/
  | leMts (e : Fin 16) (c b : Fin 32)
  /-- MFS (R131): MFS reads a special register into a d register. -/
  | leMfs (e : Fin 16) (a c : Fin 32)
  /-- CLRL (R131): CLRL clears the sticky limit flag L. -/
  | leClrl (e : Fin 16)
  /-- LD (R132): LD loads a d register from memory. -/
  | leLd (e : Fin 16) (r : Fin 32) (p : Fin 8) (u : Fin 4) (off : BitVec 17)
  /-- LDE (R132): LDE loads the EXP field of a word into a d register. -/
  | leLde (e : Fin 16) (r : Fin 32) (p : Fin 8) (u : Fin 4) (off : BitVec 17)
  /-- LDP (R132): LDP loads a pointer from memory. -/
  | leLdp (e : Fin 16) (r : Fin 8) (p : Fin 8) (u : Fin 4) (off : BitVec 17)
  /-- ST (R132): ST stores a sign-extended d register to memory. -/
  | leSt (e : Fin 16) (r : Fin 32) (p : Fin 8) (u : Fin 4) (off : BitVec 17)
  /-- STH (R132): STH stores the upper part of an accumulator. -/
  | leSth (e : Fin 16) (r : Fin 8) (p : Fin 8) (u : Fin 4) (off : BitVec 17)
  /-- STL (R132): STL stores the lower part of an accumulator. -/
  | leStl (e : Fin 16) (r : Fin 8) (p : Fin 8) (u : Fin 4) (off : BitVec 17)
  /-- LDH (R132): LDH loads the upper part of an accumulator and clears the lower part. -/
  | leLdh (e : Fin 16) (r : Fin 8) (p : Fin 8) (u : Fin 4) (off : BitVec 17)
  /-- LDL (R132): LDL loads the lower part of an accumulator. -/
  | leLdl (e : Fin 16) (r : Fin 8) (p : Fin 8) (u : Fin 4) (off : BitVec 17)
  /-- LDI (R133): LDI loads an immediate into a d register. -/
  | leLdi (e : Fin 16) (r : Fin 32) (k : BitVec 21)
  /-- LDPI (R133): LDPI loads an immediate into a pointer. -/
  | leLdpi (e : Fin 16) (r : Fin 8) (k : BitVec 21)
  /-- LDSI (R133): LDSI loads an immediate into a special register. -/
  | leLdsi (e : Fin 16) (c : Fin 32) (k : BitVec 21)
  /-- JMP (R133): JMP branches and ends the loops whose bodies it leaves. -/
  | leJmp (e : Fin 16) (k : BitVec 14)
  /-- JCC (R133): JCC branches when a condition holds. -/
  | leJcc (e : Fin 16) (cc : Fin 16) (k : BitVec 14)
  /-- CALL (R133): CALL pushes the return address and branches. -/
  | leCall (e : Fin 16) (k : BitVec 14)
  /-- RET (R133): RET returns to the popped address. -/
  | leRet (e : Fin 16)
  /-- LOOP (R128): LOOP starts a zero-overhead loop, rotating the registers where ROT is set. -/
  | leLoop (e : Fin 16) (rot cntreg : Bool) (len : Fin 128) (count : BitVec 14)
  /-- CMT (R127): CMT commits the downlink words of a slot into the send buffer. -/
  | leCmt (e : Fin 16) (own : Bool) (sl : Fin 32)
  /-- END (R133): END ends the running task. -/
  | leEnd (e : Fin 16)
  /-- MPY (R130): The Format P MPY forms one product into an accumulator, with up to two loads. -/
  | leMpy (e : Fin 16) (ad : Fin 8) (s1 s2 : Fin 16) (m0 m1 : Option PMove)
  /-- MAC (R130): The Format P MAC accumulates one product, with up to two loads. -/
  | leMac (e : Fin 16) (ad : Fin 8) (s1 s2 : Fin 16) (m0 m1 : Option PMove)
  /-- MSU (R130): The Format P MSU subtracts one product, with up to two loads. -/
  | leMsu (e : Fin 16) (ad : Fin 8) (s1 s2 : Fin 16) (m0 m1 : Option PMove)
  /-- MPY2 (R130): MPY with DUAL set forms two products into an accumulator pair. -/
  | leMpy2 (e : Fin 16) (ad : Fin 8) (s1 s2 : Fin 16) (m0 m1 : Option PMove)
  /-- MAC2 (R130): MAC with DUAL set accumulates two products into an accumulator pair. -/
  | leMac2 (e : Fin 16) (ad : Fin 8) (s1 s2 : Fin 16) (m0 m1 : Option PMove)
  /-- MSU2 (R130): MSU with DUAL set subtracts two products from an accumulator pair. -/
  | leMsu2 (e : Fin 16) (ad : Fin 8) (s1 s2 : Fin 16) (m0 m1 : Option PMove)
  /-- MOV (R130): The Format P MOV makes up to two loads without a product. -/
  | leMov (e : Fin 16) (m0 m1 : Option PMove)
  /-- ILLEGAL_OPCODE (R136): An illegal encoding raises an engine fault that ends the task. -/
  | leIllegalOpcode (e : Fin 16)
  /-- LE_MEM_DATA_WRITE (R142): A write of LE_MEM_DATA stores into X or Y memory at the next instruction boundary. -/
  | leMemDataWrite (t : Time) (e : Fin 16) (v : Word)
  /-- LE_CLR_COUNT (R142): LE_PCTRL.CLR_COUNT clears LE_FAULT.COUNT. -/
  | leClrCount (t : Time) (e : Fin 16)
  /-- AX_ENABLE (R158): AX_CTRL.ENABLE is an enable request for an axis in no island, granted or refused by R158. -/
  | axEnable (t : Time) (a : Fin 256)
  /-- AX_DISABLE (R159): AX_CTRL.DISABLE is a disable request for an axis in no island. -/
  | axDisable (t : Time) (a : Fin 256)
  /-- AX_CLEAR (R159): AX_CTRL.CLEAR moves an axis from FAULT to OFF once the cause is gone and the bridge is off. -/
  | axClear (t : Time) (a : Fin 256)
  /-- PRECHARGE_COMPLETE (R159): The bus voltage reaches UDC_MIN in PRECHARGE, and the axis enters BRAKE_RELEASE. -/
  | prechargeComplete (t : Time) (a : Fin 256)
  /-- PRECHARGE_TIMEOUT (R159): PRECHG_T elapses with the bus below UDC_MIN, and the axis faults with cause 1. -/
  | prechargeTimeout (t : Time) (a : Fin 256)
  /-- BRAKE_RELEASE_TIMEOUT (R159): BRAKE_REL_T elapses and the axis enters ENABLED, or faults with cause 9 on a large following error.
  -/
  | brakeReleaseTimeout (t : Time) (a : Fin 256)
  /-- DECEL_COMPLETE (R159): The setpoint comes to rest in DISABLING DECEL, and the axis enters HOLD. -/
  | decelComplete (t : Time) (a : Fin 256)
  /-- HOLD_TIMEOUT (R159): HOLD_T elapses and the brake is set in BRAKE_SET. -/
  | holdTimeout (t : Time) (a : Fin 256)
  /-- BRAKE_SET_TIMEOUT (R159): BRAKE_SET_T elapses, the torque-off command is sent and the life record is written. -/
  | brakeSetTimeout (t : Time) (a : Fin 256)
  /-- BRIDGE_OFF_REPORTED (R159): An uplink reports the bridge off in the TORQUE_OFF phase, and the axis enters OFF. -/
  | bridgeOffReported (t : Time) (a : Fin 256)
  /-- TORQUE_OFF_TIMEOUT (R159): Sixteen ring cycles pass without a bridge-off report, and the axis faults with cause 10. -/
  | torqueOffTimeout (t : Time) (a : Fin 256)
  /-- QS_WRITE (R150): A write to QS_UP, QS_DOWN or QS_CFG takes effect at the next servo boundary or is refused. -/
  | qsWrite (t : Time) (a : Fin 256) (r : Fin 3) (v : Word)
  /-- FB_PRESET (R167): FB_CTRL.PRESET loads FB_PRESET into the axis position at the next servo boundary, or is refused. -/
  | fbPreset (t : Time) (a : Fin 256)
  /-- FB_CLR_FAULT (R168): FB_CTRL.CLR_FAULT clears the encoder fault of an axis once its cause is gone. -/
  | fbClrFault (t : Time) (a : Fin 256)
  /-- ENC_CLR_FAULT (R168): ENC_CTRL.CLR_FAULT clears the fault of a local encoder once its cause is gone. -/
  | encClrFault (t : Time) (k : Fin 8)
  /-- FB_POS_LO_READ (R187): A read of FB_POS_LO, FB_UPOS_LO, FB_IDX_LO or FB_PRESET_LO latches the upper half. -/
  | fbPosLoRead (t : Time) (udp : Bool) (a : Fin 256) (r : Fin 4)
  /-- ENC_CNT_LO_READ (R187): A read of ENC_CNT_LO or ENC_IDX_LO latches the upper half. -/
  | encCntLoRead (t : Time) (udp : Bool) (k : Fin 8) (r : Fin 2)
  /-- STANDSTILL_DETECT (R169): STANDSTILL_T passes since the last counted edge, the speed becomes 0 and STANDSTILL is set. -/
  | standstillDetect (t : Time) (enc : Bool) (k : Fin 256)
  /-- ENCODER_TRANSITION (R173): A filtered change of A and B on a local encoder counts up or down, or counts as illegal.
  The levels of a sample, and on how many consecutive samples A and B have stood at them (R172). -/
  | encoderTransition (t : Time) (k : Fin 8) (a b : Bool) (na nb : Nat)
  /-- ENCODER_INDEX (R173): A rising filtered Z latches the count and runs the index check. The levels of
  a sample, and on how many consecutive samples A, B and Z have stood at them (R172). -/
  | encoderIndex (t : Time) (k : Fin 8) (a b z : Bool) (na nb nz : Nat)
  /-- ENCODER_WIRE_BREAK (R174): A differential pair that stands at one level for more than 1 µs raises fault cause 2. -/
  | encoderWireBreak (t : Time) (k : Fin 8) (line : Fin 3) (broken : Bool)
  /-- ILLEGAL_WINDOW_END (R174): An ILL_WIN window ends, the illegal-transition count is judged and restarted. -/
  | illegalWindowEnd (t : Time) (k : Fin 8)
  /-- CMP_CTRL_OPEN (R178): CMP_CTRL.OPEN opens the compare window. -/
  | cmpCtrlOpen (t : Time) (c : Fin 16)
  /-- CMP_CTRL_CLOSE (R178): CMP_CTRL.CLOSE closes the compare window. -/
  | cmpCtrlClose (t : Time) (c : Fin 16)
  /-- CMP_CTRL_PULSE (R178): CMP_CTRL.PULSE emits one pulse. -/
  | cmpCtrlPulse (t : Time) (c : Fin 16)
  /-- CMP_VALUE_WRITE (R180): A write to CMP_CFG, CMP_VAL, CMP_SPC or CMP_LIMIT takes effect at the next ring-cycle start, and CMP_VAL
  arms the channel. -/
  | cmpValueWrite (t : Time) (c : Fin 16) (r : Fin 6) (v : Word)
  /-- COMPARE_POINT (R176): The source crosses the compare point, a pulse is emitted or dropped, and V advances by S. -/
  | comparePoint (t : Time) (c : Fin 16)
  /-- COMPARE_PULSE_END (R179): PW × 5 ns after its start a compare pulse ends. -/
  | comparePulseEnd (t : Time) (c : Fin 16)
  /-- EMU_ALIGN (R184): EMU_CTRL.ALIGN sets the output count to the target at the next ring-cycle start without steps. -/
  | emuAlign (t : Time) (u : Fin 4)
  /-- EMU_CFG_WRITE (R184): A write to EMU_CFG, EMU_N, EMU_M or EMU_ZPER takes effect at the next ring-cycle start with an align, or is
  refused. -/
  | emuCfgWrite (t : Time) (u : Fin 4) (r : Fin 4) (v : Word)
  /-- EMU_STEP (R181): A quadrature step is emitted at its scheduled instant. -/
  | emuStep (t : Time) (u : Fin 4)
  /-- CYCLE_START_RETURN (R198): A copy of the cycle-start returns on a ring port and C_P is measured. -/
  | cycleStartReturn (t : Time) (k : Fin 16) (b : Bool) (frame : List Byte) (clean : Bool)
  /-- RESPONSE_RECEIVE (R198): A response frame arrives at the master and is accepted or discarded by window, CRC and agreement. -/
  | responseReceive (t : Time) (k : Fin 16) (b : Bool) (frame : List Byte) (clean : Bool)
  /-- SLOT_WINDOW_CLOSE (R198): The window of a slot closes with no response accepted, and the slot is missing and STALE. -/
  | slotWindowClose (t : Time) (k : Fin 16) (i : Fin 32)
  /-- NODE_MUTED (R199): A node that reaches 3 consecutive cycles out of window or missing is muted, and its axes fault. -/
  | nodeMuted (t : Time) (k : Fin 16) (n : Fin 24)
  /-- RING_MUTE (R199): RING_CTRL.MUTE mutes the named node with reason 3. -/
  | ringMute (t : Time) (k : Fin 16) (n : Fin 32)
  /-- RING_UNMUTE (R199): RING_CTRL.UNMUTE clears the mute of the named node at the next cycle-start. -/
  | ringUnmute (t : Time) (k : Fin 16) (n : Fin 32)
  /-- RING_SWAP (R201): RING_CTRL.SWAP requests the shadow table to become active, with ASSIGNs where slot sets change. -/
  | ringSwap (t : Time) (k : Fin 16)
  /-- SWAP_EXECUTE (R201): At the swap cycle with every ASSIGN acknowledged, the shadow table is copied in and TBL_GEN increments, or
  the swap is refused by R202. -/
  | swapExecute (t : Time) (k : Fin 16)
  /-- SWAP_TIMEOUT (R202): An ASSIGN not acknowledged within 64 ring cycles refuses the swap with reason 5. -/
  | swapTimeout (t : Time) (k : Fin 16)
  /-- RING_RECLOSE (R207): RING_CTRL.RECLOSE sends EXTEND and closes a folded ring, or sets RECLOSE_REFUSED. -/
  | ringReclose (t : Time) (k : Fin 16)
  /-- RING_CLR (R213): RING_CTRL.CLR clears the loop-delay maxima and every NODE_CNT. -/
  | ringClr (t : Time) (k : Fin 16)
  /-- RING_FOLD (R207): A cycle-start not returned on SPk_B by the next cycle-start makes the master send on both ports. -/
  | ringFold (t : Time) (k : Fin 16)
  /-- RING_LINK_DOWN (R188): A ring port's link goes down on loss of lock, code violations or remote fault. -/
  | ringLinkDown (t : Time) (k : Fin 16) (b : Bool)
  /-- RING_LINK_UP (R188): A ring port's link comes up after lock and 1 µs of idle. -/
  | ringLinkUp (t : Time) (k : Fin 16) (b : Bool)
  /-- RING_BRING_UP (R210): An enabled ring trains its ports, enumerates, assigns and probes its nodes, and reads their identity
  records. -/
  | ringBringUp (t : Time) (k : Fin 16)
  /-- LANDING_RELEASED (R205): A landing node missing for 3 cycles with its axes OFF is released back to LANDING. -/
  | landingReleased (t : Time) (k : Fin 16) (n : Fin 24)
  /-- SVC_READ (R211): SVC_CMD with OP READ queues a host READ transaction to a node. -/
  | svcRead (t : Time) (k : Fin 16) (tag : BitVec 16) (node : Fin 32) (len : Fin 64)
  /-- SVC_WRITE (R211): SVC_CMD with OP WRITE queues a host WRITE transaction to a node. -/
  | svcWrite (t : Time) (k : Fin 16) (tag : BitVec 16) (node : Fin 32) (len : Fin 64)
  /-- SERVICE_TRANSACTION_END (R211): A service transaction ends DONE, TIMEOUT or MUTED, and SVC_RESULT is updated. -/
  | serviceTransactionEnd (t : Time) (k : Fin 16)
  /-- NODE_SERIAL_LO_READ (R213): A read of NODE_SERIAL_LO latches NODE_SERIAL_HI. -/
  | nodeSerialLoRead (t : Time) (udp : Bool) (k : Fin 16) (n : Fin 25)
  /-- FRAME_FORWARD (R302): A unit that is not ACTIVE forwards a ring frame as a node. -/
  | frameForward (t : Time) (k : Fin 16) (b : Bool) (frame : List Byte) (clean : Bool)
  /-- IDENTITY_ACCEPT (R219): A completed read of an identity record is checked, accepted or rejected, compared with the mirror, and the
  PWM frequencies are written. -/
  | identityAccept (t : Time) (k : Fin 16) (n : Fin 24)
  /-- LIFE_WRITE_DUE (R221): Ten minutes of ON_TIME or a disable make a life record write due, and it is made when credit allows. -/
  | lifeWriteDue (t : Time) (k : Fin 16) (n : Fin 24)
  /-- LIFE_CREDIT_RETURN (R221): The oldest counted write leaves the 60-minute window and a waiting write is made. -/
  | lifeCreditReturn (t : Time) (k : Fin 16) (n : Fin 24)
  /-- LIFE_RECORD_WRITE (R220): The three WRITEs and the read-back of a life record slot complete and are compared. -/
  | lifeRecordWrite (t : Time) (k : Fin 16) (n : Fin 24)
  /-- PIPE_FAULT (R238): A pipeline result fails its residue check; the pipeline is taken out and its pairs are reissued. -/
  | pipeFault (t : Time) (p : Fin 72)
  /-- SHOAL_ACTIVE_WRITE (R234): A write of SH_CFG.ACTIVE is committed at the next servo boundary, or ignored for an undeclared shoal.
  -/
  | shoalActiveWrite (t : Time) (k : Fin 256) (active : Bool)
  /-- SH_LREF_LO_READ (R245): A read of SH_LREF_LO latches SH_LREF_HI. -/
  | shLrefLoRead (t : Time) (udp : Bool) (k : Fin 256)
  /-- SEP_CLR_PEAK (R245): SEP_CTRL.CLR_PEAK clears SEP_TIME.PEAK. -/
  | sepClrPeak (t : Time)
  /-- ZONE_WATCHDOG (R259): The zone watchdog reaches WD, SS1 of the owner starts and the narrows is orphaned. -/
  | zoneWatchdog (t : Time) (n : Fin 128)
  /-- NRW_REL (R258): An NRW_REL write releases an orphaned narrows at the next servo boundary when its epoch matches. -/
  | nrwRel (t : Time) (n : Fin 128) (epoch : BitVec 16) (tag : Byte)
  /-- NRW_PASS_LO_READ (R264): A read of NRW_PASS_LO latches NRW_PASS_HI. -/
  | nrwPassLoRead (t : Time) (udp : Bool) (n : Fin 128)
  /-- SAFETY_INPUT_CHANGE (R275): Channel B accepts a new level on a safety input lane and acts on the opening or closing by FUNC. -/
  | safetyInputChange (t : Time) (i : Fin 8) (laneB level : Bool)
  /-- INPUT_DISCREPANCY (R275): The two lanes of an input disagree for longer than DISC_T, giving an input fault. -/
  | inputDiscrepancy (t : Time) (i : Fin 8)
  /-- TEST_PULSE (R276): Channel B pulses a test output low and checks the lanes at the end of the pulse. -/
  | testPulse (t : Time) (i : Fin 8) (laneB ownLow otherLow : Bool)
  /-- SS1_TIMEOUT (R269): SS1_T elapses since the demand and channel B applies STO to the group. -/
  | ss1Timeout (t : Time) (k : Fin 16)
  /-- CHA_EVALUATION_DONE (R281): Channel A's evaluation of the safety cycle completes and its demands are latched. -/
  | chaEvaluationDone (t : Time)
  /-- CHANNEL_A_REPORT (R279): Channel A's report arrives at channel B and is checked. -/
  | channelAReport (t : Time) (crcOk sigOk inputsOk stateOk : Bool)
  /-- REPORT_MISSING (R279): No report arrives within 1.1 ms of the previous one, giving cause 15. -/
  | reportMissing (t : Time)
  /-- LOCKSTEP_MISMATCH (R286): The lockstep cores disagree and channel A halts. -/
  | lockstepMismatch (t : Time) (word : Bool)
  /-- TAP_LOST (R278): No tap value for 64 cycles for an axis reported not OFF gives cause 14. -/
  | tapLost (t : Time) (a : Fin 256)
  /-- STO_READBACK_FAULT (R280): An STO output is away from its commanded level for more than 2 µs, giving cause 17. -/
  | stoReadbackFault (t : Time) (k : Fin 16) (laneB : Bool)
  /-- STO_TEST_PULSE (R280): Every 100 ms channel B pulses each STO output that is on and checks the readback. -/
  | stoTestPulse (t : Time) (k : Fin 16) (laneB ok : Bool)
  /-- CLOCK_DISAGREEMENT (R280): The safety crystal and the cycle-start period disagree by more than 1 %, giving cause 17. -/
  | clockDisagreement (t : Time)
  /-- TEMPERATURE_TRIP (R428): The Prondaty diode reads 125 °C and channel B applies STO with cause 18. -/
  | temperatureTrip (t : Time) (tj : BitVec 16)
  /-- SAFETY_MESSAGE_RECEIVE (R292): A safety message is received and checked, accepted or discarded by the connection state. -/
  | safetyMessageReceive (t : Time) (c : Fin 64) (port : Fin 3) (msg : List Byte)
  /-- SAFE_CONN_TIMEOUT (R293): A consumed connection's timer reaches EXPECT and it enters TIMED_OUT. -/
  | safeConnTimeout (t : Time) (c : Fin 64)
  /-- SAFETY_MESSAGE_SEND (R294): A produced connection sends its message every SEND_T. -/
  | safetyMessageSend (t : Time) (c : Fin 64)
  /-- SAFE_SIG_LO_READ (R300): A read of SAFE_SIG_LO or SAFE_CONF_LO latches the upper half. -/
  | safeSigLoRead (t : Time) (udp : Bool) (r : Fin 2)
  /-- HEARTBEAT_RECEIVE (R305): A partner heartbeat frame is received. -/
  | heartbeatReceive (t : Time) (frame : List Byte)
  /-- HEARTBEAT_LOST (R305): Eight consecutive heartbeats are missing and the heartbeat is lost. -/
  | heartbeatLost (t : Time)
  /-- MIRROR_RECEIVE (R307): A MIRROR frame is received, acknowledged or asked again by RETRANSMIT. -/
  | mirrorReceive (t : Time) (frame : List Byte)
  /-- RETRANSMIT_RECEIVE (R307): A RETRANSMIT frame makes the active send a MIRROR frame again. -/
  | retransmitReceive (t : Time) (frame : List Byte)
  /-- CHECKPOINT_RECEIVE (R318): A CHECKPOINT frame delivers a state region to the syncing unit. -/
  | checkpointReceive (t : Time) (frame : List Byte)
  /-- CHECKPOINT_END_RECEIVE (R318): CHECKPOINT_END names the snapshot boundary, and the standby installs the state. -/
  | checkpointEndReceive (t : Time) (frame : List Byte)
  /-- CHECKPOINT_TIMEOUT (R318): A checkpoint not complete within 2 s fails synchronisation with cause 2. -/
  | checkpointTimeout (t : Time)
  /-- LAW_STATE_RECEIVE (R311): A LAW_STATE frame realigns an unaligned axis on the standby. -/
  | lawStateReceive (t : Time) (frame : List Byte)
  /-- RELINQUISH_RECEIVE (R314): A RELINQUISH frame makes the heartbeat lost at once. -/
  | relinquishReceive (t : Time) (frame : List Byte)
  /-- PARTNER_LANE_DOWN (R304): A partner-link lane loses block lock, and the link is lost when both have. -/
  | partnerLaneDown (t : Time) (lane : Fin 2)
  /-- PARTNER_LANE_UP (R304, R452): A partner-link lane gains block lock, restoring a lost link; its training carried the partner's
  DPX_POS. -/
  | partnerLaneUp (t : Time) (lane : Fin 2) (pos : Bool)
  /-- STALE_TIMEOUT (R317): One second after the loss of the partner link the standby sets STALE. -/
  | staleTimeout (t : Time)
  /-- TAP_RESPONSE_RECEIVE (R309): The active receives the standby's tap response with its mismatches, verdict and divergence. -/
  | tapResponseReceive (t : Time) (k : Fin 16) (b : Bool) (frame : List Byte) (clean : Bool)
  /-- TAP_POLL_RECEIVE (R311): The standby receives the tap poll and decides the comparison of each slot. -/
  | tapPollReceive (t : Time) (k : Fin 16) (b : Bool) (frame : List Byte) (clean : Bool)
  /-- VERDICT_READY (R312): The re-run on a spare engine gives the unit's verdict on a divergence. -/
  | verdictReady (t : Time) (w0 w1 w2 : BitVec 16)
  /-- OUTCOME_DECIDE (R313): The active decides OUTCOME when it holds both verdicts or 16 cycles after the divergence. -/
  | outcomeDecide (t : Time)
  /-- DUPLEX_LISTEN_TIMEOUT (R314): The listen time ends without an active seen, and the unit becomes ACTIVE. -/
  | duplexListenTimeout (t : Time)
  /-- PROMOTION (R315): With the heartbeat lost and every ring silent for two cycles, the standby takes over as active. -/
  | promotion (t : Time)
  /-- DPX_HANDOVER (R316): DPX_CTRL.HANDOVER hands the rings to a synchronised standby, or is refused. -/
  | dpxHandover (t : Time)
  /-- DPX_REJOIN (R314): DPX_CTRL.REJOIN moves a FAULTED unit to listening. -/
  | dpxRejoin (t : Time)
  /-- DUPLEX_SYNCED (R318): 1 000 cycles without mismatch complete synchronisation and the unit becomes STANDBY. -/
  | duplexSynced (t : Time)
  /-- REFERENCE_RECEIVE (R329): A Dorlu reference copy is received and acted on or forwarded. -/
  | referenceReceive (t : Time) (port : Fin 2) (frame : List Byte) (clean : Bool)
  /-- SLOT_FRAME_SEND (R329): A device sends its slot frame at its slot offset after the reference. -/
  | slotFrameSend (t : Time)
  /-- SLOT_FRAME_RECEIVE (R330): A Dorlu slot frame is received, checked against its window and its records are taken. -/
  | slotFrameReceive (t : Time) (port : Fin 2) (frame : List Byte) (clean : Bool)
  /-- RELAY_SEND (R331): The time master relays a slot frame in the next cycle. -/
  | relaySend (t : Time) (n : Fin 512)
  /-- LINK_REQ_SEND (R332): A device sends LINK_REQ in the reference guard of its measurement cycle. -/
  | linkReqSend (t : Time)
  /-- LINK_REQ_RECEIVE (R332): A LINK_REQ is answered with LINK_RESP and the residence time. -/
  | linkReqReceive (t : Time) (port : Fin 2) (frame : List Byte) (clean : Bool) (residence : Word)
  /-- LINK_RESP_RECEIVE (R332): A LINK_RESP gives the link delay. -/
  | linkRespReceive (t : Time) (port : Fin 2) (frame : List Byte) (clean : Bool)
  /-- REFERENCE_MISSING (R335): A reference is not acted on in time; the count rises and a backup may take over. -/
  | referenceMissing (t : Time)
  /-- FED_LISTEN_TIMEOUT (R336): The federation listen time ends; a ranked device becomes master. -/
  | fedListenTimeout (t : Time)
  /-- FED_FOLD (R337): A reference not returned on DL0 by the next cycle folds the federation ring. -/
  | fedFold (t : Time)
  /-- FED_NODE_MUTE (R331): The master mutes a node out of window in 3 consecutive cycles. -/
  | fedNodeMute (t : Time) (n : Fin 512)
  /-- FED_RECLOSE (R337): FED_CTRL.RECLOSE re-closes a folded federation ring, or is refused. -/
  | fedReclose (t : Time)
  /-- FED_MUTE (R331): FED_CTRL.MUTE mutes the named node on the master. -/
  | fedMute (t : Time) (n : Fin 512)
  /-- FED_UNMUTE (R331): FED_CTRL.UNMUTE clears the mute of the named node on the master. -/
  | fedUnmute (t : Time) (n : Fin 512)
  /-- FED_CLR (R342): FED_CTRL.CLR clears FED_LOOP_MAX and FED_CNT. -/
  | fedClr (t : Time)
  /-- DORLU_LINK_DOWN (R337): A Dorlu port's link goes down and the device loops back. -/
  | dorluLinkDown (t : Time) (port : Fin 2)
  /-- DORLU_LINK_UP (R321): A Dorlu port's link comes up. -/
  | dorluLinkUp (t : Time) (port : Fin 2)
  /-- FED_LO_READ (R342): A read of FED_CYC_LO, FED_OFS_LO or FED_CYC_BASE_LO latches the upper half. -/
  | fedLoRead (t : Time) (udp : Bool) (r : Fin 3)
  /-- ETH_LINK (R343): An Ethernet link goes down or comes up, which is logged. -/
  | ethLink (t : Time) (port : Fin 2) (up : Bool)
  /-- ARP_REQUEST (R343): An ARP request is answered. -/
  | arpRequest (t : Time) (port : Fin 2) (ip : Word)
  /-- ICMP_ECHO (R343): An ICMP echo request is answered. -/
  | icmpEcho (t : Time) (port : Fin 2) (ip : Word) (data : List Byte)
  /-- ETH_FRAME_DISCARD (R343): An unsupported frame is discarded and counted. -/
  | ethFrameDiscard (t : Time) (port : Fin 2) (badFcs : Bool)
  /-- PTP_SYNC_RECEIVE (R348): A Sync message is time-stamped and taken for the offset measurement. -/
  | ptpSyncReceive (t : Time) (port : Fin 2) (dom : Byte) (udp : Bool) (seq : BitVec 16) (twoStep : Bool) (sec : BitVec 48) (ns : Word) (corr : BitVec 64)
  /-- PTP_FOLLOW_UP_RECEIVE (R348): A Follow_Up message supplies the precise origin time. -/
  | ptpFollowUpReceive (t : Time) (port : Fin 2) (dom : Byte) (udp : Bool) (seq : BitVec 16) (sec : BitVec 48) (ns : Word) (corr : BitVec 64)
  /-- PTP_DELAY_REQ_RECEIVE (R348): A master domain answers a Delay_Req. -/
  | ptpDelayReqReceive (t : Time) (port : Fin 2) (dom : Byte) (udp : Bool) (seq : BitVec 16)
  /-- PTP_DELAY_RESP_RECEIVE (R348): A Delay_Resp completes an offset and path delay measurement. -/
  | ptpDelayRespReceive (t : Time) (port : Fin 2) (dom : Byte) (udp : Bool) (seq : BitVec 16) (sec : BitVec 48) (ns : Word) (corr : BitVec 64)
  /-- PTP_PDELAY_REQ_RECEIVE (R348): A Pdelay_Req is answered. -/
  | ptpPdelayReqReceive (t : Time) (port : Fin 2) (dom : Byte) (udp : Bool) (seq : BitVec 16)
  /-- PTP_PDELAY_RESP_RECEIVE (R348): A Pdelay response completes a peer delay measurement. -/
  | ptpPdelayRespReceive (t : Time) (port : Fin 2) (dom : Byte) (udp : Bool) (seq : BitVec 16) (turnaround : BitVec 64) (corr : BitVec 64)
  /-- PTP_ANNOUNCE_RECEIVE (R345): An Announce message feeds the BMCA. -/
  | ptpAnnounceReceive (t : Time) (port : Fin 2) (dom : Byte) (udp : Bool) (foreign : Bool) (gm : BitVec 64)
  /-- PTP_SYNC_SEND (R345): A master domain sends Sync at its interval. -/
  | ptpSyncSend (t : Time) (d : Fin 4)
  /-- PTP_ANNOUNCE_SEND (R345): A master domain sends Announce. -/
  | ptpAnnounceSend (t : Time) (d : Fin 4)
  /-- PTP_DELAY_REQ_SEND (R345): A slave domain sends Delay_Req or Pdelay_Req. -/
  | ptpDelayReqSend (t : Time) (d : Fin 4)
  /-- TIME_HOLDOVER (R350): An announce timeout, missing Sync or link down puts the domain into HOLDOVER. -/
  | timeHoldover (t : Time) (d : Fin 4) (cause : Fin 4)
  /-- ASYMMETRY_UNVERIFIED (R350): After 60 s of stable delay in HOLDOVER with cause DELAY the domain re-locks on the new delay. -/
  | asymmetryUnverified (t : Time) (d : Fin 4)
  /-- TD_ACCEPT_STEP (R350): TD_CTRL.ACCEPT_STEP steps a domain held for a jump. -/
  | tdAcceptStep (t : Time) (d : Fin 4)
  /-- TD_CONFIRM_ASYM (R350): TD_CTRL.CONFIRM_ASYM takes TD_ASYM and re-locks a domain held for a delay step. -/
  | tdConfirmAsym (t : Time) (d : Fin 4)
  /-- TD_SEC_LO_READ (R355): A read of TD_SEC_LO latches the present domain time. -/
  | tdSecLoRead (t : Time) (udp : Bool) (d : Fin 4)
  /-- TD_SNAP_TSC_LO_READ (R355): A read of TD_SNAP_TSC_LO latches the whole snapshot. -/
  | tdSnapTscLoRead (t : Time) (udp : Bool) (d : Fin 4)
  /-- PS_WRITE (R356): A byte write completes on the point-stream port and is packed into its queue's word. -/
  | psWrite (t : Time) (q prev : Fin 16) (d : Byte) (eor : Bool)
  /-- STAGED_WORD_PUSH (R358): A staged word is pushed into its queue once there is room. -/
  | stagedWordPush (t : Time) (q : Fin 16)
  /-- HQ_PUSH (R364): An HQ_PUSH write pushes a host word into a command queue and reports the outcome in HQ_RESULT. -/
  | hqPush (t : Time) (q : Fin 32) (valid : Fin 64) (last : Bool) (tag : BitVec 16)
  /-- Q_FLUSH (R365): Q_CTRL.FLUSH empties a queue, its packer and its staged word. -/
  | qFlush (t : Time) (q : Fin 32)
  /-- Q_WATERMARK_WRITE (R362): A write of HWM or LWM takes effect at the next evaluation or is refused. -/
  | qWatermarkWrite (t : Time) (q : Fin 32) (hwm lwm : Fin 512)
  /-- IMG_BEGIN (R379): IMG_CTRL.BEGIN starts an image write session and erases the target copy. -/
  | imgBegin (t : Time)
  /-- IMAGE_ERASE_DONE (R379): The erase of the target copy completes and the session is OPEN. -/
  | imageEraseDone (t : Time)
  /-- IMG_OFS_WRITE (R380): An IMG_OFS write sets the offset of the next image data, or is refused. -/
  | imgOfsWrite (t : Time) (v : Word)
  /-- IMG_DATA_WRITE (R379): An IMG_DATA write places 4 image bytes and advances IMG_OFS. -/
  | imgDataWrite (t : Time) (v : Word)
  /-- IMG_COMMIT (R379): IMG_CTRL.COMMIT sets SEQ and HDR_CRC and checks the written copy. -/
  | imgCommit (t : Time)
  /-- IMAGE_CHECK_DONE (R379): The check of a committed copy completes and the header is written or the commit rejected. -/
  | imageCheckDone (t : Time)
  /-- IMG_ABORT (R380): IMG_CTRL.ABORT ends the session with STATUS ABORTED. -/
  | imgAbort (t : Time)
  /-- FL_DATA_READ (R381): A read of FL_DATA returns the flash word and advances FL_ADDR by 4. -/
  | flDataRead (t : Time)
  /-- LC_CTRL_WRITE (R386): An LC_CTRL write requests a change of life-cycle state and reports the outcome. -/
  | lcCtrlWrite (t : Time) (tag : BitVec 16) (target : Fin 8) (svc : Bool)
  /-- SELFTEST_STEP_END (R390): A 50 ms self-test step ends with a pass or a failure, repaired by R393. -/
  | selftestStepEnd (t : Time) (fails : List (Byte × List Word))
  /-- TEST_SEQUENCE_COMPLETE (R391): The shutdown test groups complete, the repair record is written and OFF_READY is asserted. -/
  | testSequenceComplete (t : Time)
  /-- REPAIR_RECORD_WRITE (R388): A new repair record copy is written and read back. -/
  | repairRecordWrite (t : Time)
  /-- ROTATION_START (R396): Every ROT_CFG.PERIOD a rotation moves the next logical engine to a spare. -/
  | rotationStart (t : Time)
  /-- ROTATION_COPY_DONE (R396): The copy of an engine's memories to the spare completes and the move follows at the next servo
  boundary. -/
  | rotationCopyDone (t : Time)
  /-- ROTATION_TEST_DONE (R396): The 40 ms test of the former engine ends, and the axes return or the repair is recorded. -/
  | rotationTestDone (t : Time) (pass : Bool) (step : Byte)
  /-- BIST_RUN (R398): BIST_CTRL.RUN tests one named element directly, or is refused. -/
  | bistRun (t : Time) (tag : BitVec 16) (e : Byte)
  /-- BIST_RESTORE (R398): BIST_CTRL.RESTORE marks an element that passed 3 times as good. -/
  | bistRestore (t : Time) (tag : BitVec 16) (e : Byte)
  /-- SPI_WRITE (R405): The SPI WRITE command writes words from the address. -/
  | spiWrite (t : Time) (a : Word) (words : List Word)
  /-- SPI_READ (R405): The SPI READ command returns words from the address after the marker. -/
  | spiRead (t : Time) (a : Word) (n : BitVec 16)
  /-- SPI_STATUS (R406): The SPI STATUS command returns the status word. -/
  | spiStatus (t : Time)
  /-- SPI_BAD_COMMAND (R405): An unused SPI command is ignored until SVC_CS_N rises, and BAD_CMD is set. -/
  | spiBadCommand (t : Time)
  /-- SPI_DESELECT (R405): The rise of SVC_CS_N ends the transaction and discards an incomplete word. -/
  | spiDeselect (t : Time) (incomplete : Bool)
  /-- UDP_NOP (R408): A NOP request is answered. -/
  | udpNop (t : Time) (c : UdpFrom) (addr : Word) (count : BitVec 16) (flags : Byte) (data : List Byte)
  /-- UDP_READ (R408): A READ request returns COUNT words. -/
  | udpRead (t : Time) (c : UdpFrom) (addr : Word) (count : BitVec 16) (flags : Byte) (data : List Byte)
  /-- UDP_WRITE (R408): A WRITE request writes COUNT words. -/
  | udpWrite (t : Time) (c : UdpFrom) (addr : Word) (count : BitVec 16) (flags : Byte) (data : List Byte)
  /-- UDP_READ_FIXED (R408): A READ_FIXED request reads one address COUNT times. -/
  | udpReadFixed (t : Time) (c : UdpFrom) (addr : Word) (count : BitVec 16) (flags : Byte) (data : List Byte)
  /-- UDP_WRITE_FIXED (R408): A WRITE_FIXED request writes COUNT words to one address. -/
  | udpWriteFixed (t : Time) (c : UdpFrom) (addr : Word) (count : BitVec 16) (flags : Byte) (data : List Byte)
  /-- UDP_QUEUE_PUSH (R408): A QUEUE_PUSH request pushes entries into a command queue. -/
  | udpQueuePush (t : Time) (c : UdpFrom) (addr : Word) (count : BitVec 16) (flags : Byte) (data : List Byte)
  /-- UDP_LOG_READ (R408): A LOG_READ request returns log records and may consume them. -/
  | udpLogRead (t : Time) (c : UdpFrom) (addr : Word) (count : BitVec 16) (flags : Byte) (data : List Byte)
  /-- LOG_RPTR_WRITE (R415): A write of LOG_RPTR is placed within the records held. -/
  | logRptrWrite (t : Time) (v : Word)
  /-- LOG_RECORD_WRITE (R415): An event record is written into the log ring. -/
  | logRecordWrite (t : Time)
  /-- EVT_DELAY_EXPIRY (R417): The oldest unread record has stood for EVT_DELAY ms and EVT_N is asserted. -/
  | evtDelayExpiry (t : Time)
  /-- ARCHIVE_PAGE_WRITE (R418): A page of archived records is written to the flash. -/
  | archivePageWrite (t : Time) (eraseOk programOk : Bool)
  /-- GOVERNOR_SAMPLE (R423): Every 1 ms the governor reads the sensors and power, and adjusts credit, boost and stop. -/
  | governorSample (t : Time) (temps : List (BitVec 16)) (power : BitVec 16)
  /-- THERMAL_THROTTLE (R426): The throttle level changes by temperature after its timing. -/
  | thermalThrottle (t : Time)
  /-- LIFE_SUM_STORE (R430): The life sum is stored every 64 h of powered time. -/
  | lifeSumStore (t : Time)
  /-- PT_CLR_MAX (R434): PT_CTRL.CLR_MAX clears PT_TJ.MAX and PT_POWER.PEAK. -/
  | ptClrMax (t : Time)
  /-- REGISTER_WRITE (R5): A host write to a register with no row of its own sets RW fields, clears W1C bits, and is ignored at
  read-only or unassigned addresses. -/
  | registerWrite (t : Time) (a v : Word)
  /-- VDD_SAFE_LOSS (R280): VDD_SAFE leaves its limits, channel B holds every STO output at its off level, and a cause 17 latch lasts
  until VDD_SAFE is cycled. -/
  | vddSafeLoss (t : Time)
  /-- TEMPERATURE_TRIP_CLEAR (R271): The Prondaty diode reading falls below 110 °C, so cause 18 is no longer present and
  SAFE_STAT.OVERTEMP clears, allowing a later reset to clear the latch. -/
  | temperatureTripClear (t : Time) (tj : BitVec 16)
  /-- UDP_BAD_REQUEST (R409): A service datagram that fails MAGIC, VERSION or CRC is counted in UDP_BAD without response, and one with
  an unused OP is answered with STATUS BAD_REQUEST. -/
  | udpBadRequest (t : Time) (c : UdpFrom) (datagram : List Byte)
  /-- MIRROR_ENTRY_WRITE (R224): A flash write of a cartridge mirror entry completes, after which waiting image programming resumes and
  IMG_STAT.BUSY clears. -/
  | mirrorEntryWrite (t : Time) (i : Fin 4096)
  deriving DecidableEq, Repr

end Sys2Proof
end

