-- ==== Sys2Proof/Decode.lean ====
section
/-! DEFINITION. Words that spell commands. No row of the table gives its command bits: commands reach the block as register accesses,
frames and pin events, so that no word spells one. -/

namespace Sys2Proof

/-- The command that an instruction word of `nbits` bits spells by the table: none, as no row has bits. -/
def decodeTableWord (_nbits _w : Nat) : Option Instr := none

end Sys2Proof
end

