-- ==== Sys2Proof/Machine/Events.lean ====
section
/-! DEFINITION. The event codes of R419 and the source numbers of R414. -/

namespace Sys2Proof.Machine

/-- R419, family Device. -/
def Ev.BRING_UP_INCOMPLETE : Nat := 0x040
/-- R419, family Line axes. -/
def Ev.LATE_ACTION : Nat := 0x080
/-- R419, family Line axes. -/
def Ev.MISSED_ACTION : Nat := 0x081
/-- R419, family Line axes. -/
def Ev.LINE_EVENT : Nat := 0x082
/-- R419, family Line axes. -/
def Ev.GATE_EMPTY : Nat := 0x083
/-- R419, family Line axes. -/
def Ev.ACTION_POOL_FULL : Nat := 0x084
/-- R419, family Line axes. -/
def Ev.LINE_SOURCE_LOST : Nat := 0x085
/-- R419, family Line axes. -/
def Ev.LINE_PRESET_REFUSED : Nat := 0x086
/-- R419, family Islands. -/
def Ev.SEGMENT_REJECTED : Nat := 0x0C0
/-- R419, family Islands. -/
def Ev.SEGMENT_DONE : Nat := 0x0C1
/-- R419, family Islands. -/
def Ev.SYNC_ABANDONED : Nat := 0x0C2
/-- R419, family Islands. -/
def Ev.SOFT_LIMIT : Nat := 0x0C3
/-- R419, family Planning and fabric. -/
def Ev.SEGMENT_STARVED : Nat := 0x100
/-- R419, family Planning and fabric. -/
def Ev.OPERAND_REJECTED : Nat := 0x101
/-- R419, family Planning and fabric. -/
def Ev.ITEM_TIMEOUT : Nat := 0x102
/-- R419, family Planning and fabric. -/
def Ev.DC_OVERLAP : Nat := 0x103
/-- R419, family Planning and fabric. -/
def Ev.FABRIC_HANG : Nat := 0x104
/-- R419, family Control laws. -/
def Ev.OVERRUN : Nat := 0x140
/-- R419, family Control laws. -/
def Ev.EXT_SHED : Nat := 0x141
/-- R419, family Control laws. -/
def Ev.EXT_RESTORED : Nat := 0x142
/-- R419, family Control laws. -/
def Ev.BANK_SWITCH : Nat := 0x143
/-- R419, family Control laws. -/
def Ev.COEF_DROPPED : Nat := 0x144
/-- R419, family Control laws. -/
def Ev.TRACE_DONE : Nat := 0x145
/-- R419, family Control laws. -/
def Ev.LAW_FAULT : Nat := 0x146
/-- R419, family Control laws. -/
def Ev.COMMIT_REFUSED : Nat := 0x147
/-- R419, family Drive. -/
def Ev.AXIS_FAULT : Nat := 0x180
/-- R419, family Drive. -/
def Ev.ENABLE_REFUSED : Nat := 0x181
/-- R419, family Drive. -/
def Ev.STALL : Nat := 0x182
/-- R419, family Drive. -/
def Ev.I2T_LIMIT : Nat := 0x183
/-- R419, family Feedback. -/
def Ev.DIR_CHANGE : Nat := 0x1C0
/-- R419, family Feedback. -/
def Ev.FB_INDEX_COUNT : Nat := 0x1C1
/-- R419, family Feedback. -/
def Ev.QUAD_ILLEGAL : Nat := 0x1C2
/-- R419, family Feedback. -/
def Ev.ENCODER_FAULT : Nat := 0x1C3
/-- R419, family Feedback. -/
def Ev.EMU_LAG : Nat := 0x1C4
/-- R419, family Rings and Dorlu links. -/
def Ev.SLOT_EDGE : Nat := 0x200
/-- R419, family Rings and Dorlu links. -/
def Ev.NODE_MUTED : Nat := 0x201
/-- R419, family Rings and Dorlu links. -/
def Ev.RING_HEALED : Nat := 0x202
/-- R419, family Rings and Dorlu links. -/
def Ev.RING_CLOSED : Nat := 0x203
/-- R419, family Rings and Dorlu links. -/
def Ev.LANDING_CLAIMED : Nat := 0x204
/-- R419, family Rings and Dorlu links. -/
def Ev.LANDING_RELEASED : Nat := 0x205
/-- R419, family Rings and Dorlu links. -/
def Ev.RING_DELAY : Nat := 0x206
/-- R419, family Rings and Dorlu links. -/
def Ev.SVC_FAILED : Nat := 0x207
/-- R419, family Cartridges. -/
def Ev.IDENTITY_REJECTED : Nat := 0x240
/-- R419, family Cartridges. -/
def Ev.LIFE_RECORD_MISMATCH : Nat := 0x241
/-- R419, family Cartridges. -/
def Ev.LIFE_WARN : Nat := 0x242
/-- R419, family Cartridges. -/
def Ev.LIFE_DERATED : Nat := 0x243
/-- R419, family Cartridges. -/
def Ev.LIFE_REFUSED : Nat := 0x244
/-- R419, family Cartridges. -/
def Ev.LIFE_WRITE_FAILED : Nat := 0x245
/-- R419, family Cartridges. -/
def Ev.MIRROR_EVICTED : Nat := 0x246
/-- R419, family Separation. -/
def Ev.SEP_INCOMPLETE : Nat := 0x280
/-- R419, family Separation. -/
def Ev.PIPE_FAULT : Nat := 0x281
/-- R419, family Separation. -/
def Ev.SEP_HALT : Nat := 0x282
/-- R419, family Separation. -/
def Ev.PERSON_REJECTED : Nat := 0x283
/-- R419, family Narrows. -/
def Ev.ZONE_ORPHANED : Nat := 0x2C0
/-- R419, family Narrows. -/
def Ev.ZONE_WATCHDOG : Nat := 0x2C1
/-- R419, family Narrows. -/
def Ev.ZONE_RELEASED : Nat := 0x2C2
/-- R419, family Narrows. -/
def Ev.ZONE_FORCED : Nat := 0x2C3
/-- R419, family Narrows. -/
def Ev.ZONE_EXIT_IGNORED : Nat := 0x2C4
/-- R419, family Safety. -/
def Ev.SAFETY_STOP : Nat := 0x300
/-- R419, family Safety. -/
def Ev.SAFETY_RESET : Nat := 0x301
/-- R419, family Safety. -/
def Ev.STO_APPLIED : Nat := 0x302
/-- R419, family Safety. -/
def Ev.STO_RELEASED : Nat := 0x303
/-- R419, family Safety. -/
def Ev.INPUT_FAULT : Nat := 0x304
/-- R419, family Safety. -/
def Ev.CROSS_CHECK_FAIL : Nat := 0x305
/-- R419, family Safety. -/
def Ev.STANDSTILL_LOST : Nat := 0x306
/-- R419, family Safety. -/
def Ev.SAFE_CONN_TIMEOUT : Nat := 0x307
/-- R419, family Safety. -/
def Ev.SAFE_CONN_ERROR : Nat := 0x308
/-- R419, family Safety. -/
def Ev.STARTUP_TEST_DONE : Nat := 0x309
/-- R419, family Safety. -/
def Ev.SAFETY_CONFIRMED : Nat := 0x30A
/-- R419, family Duplex. -/
def Ev.SWITCHOVER : Nat := 0x340
/-- R419, family Duplex. -/
def Ev.PARTNER_LINK_LOST : Nat := 0x341
/-- R419, family Duplex. -/
def Ev.PARTNER_LINK_RESTORED : Nat := 0x342
/-- R419, family Duplex. -/
def Ev.DIVERGENCE : Nat := 0x343
/-- R419, family Duplex. -/
def Ev.DUPLEX_SYNCED : Nat := 0x344
/-- R419, family Duplex. -/
def Ev.SYNC_FAILED : Nat := 0x345
/-- R419, family Duplex. -/
def Ev.ROLE_CONFLICT : Nat := 0x346
/-- R419, family Archipelago. -/
def Ev.DUPLICATE_RANK : Nat := 0x380
/-- R419, family Archipelago. -/
def Ev.FED_JOINED : Nat := 0x381
/-- R419, family Archipelago. -/
def Ev.FED_MASTER : Nat := 0x382
/-- R419, family Archipelago. -/
def Ev.FED_TX_DROP : Nat := 0x383
/-- R419, family Ethernet and time. -/
def Ev.ETH_LINK : Nat := 0x3C0
/-- R419, family Ethernet and time. -/
def Ev.TIME_LOCKED : Nat := 0x3C1
/-- R419, family Ethernet and time. -/
def Ev.TIME_HOLDOVER : Nat := 0x3C2
/-- R419, family Ethernet and time. -/
def Ev.TIME_JUMP_REFUSED : Nat := 0x3C3
/-- R419, family Ethernet and time. -/
def Ev.TIME_STEPPED : Nat := 0x3C4
/-- R419, family Ethernet and time. -/
def Ev.PATH_DELAY_STEP : Nat := 0x3C5
/-- R419, family Ethernet and time. -/
def Ev.ASYMMETRY_UNVERIFIED : Nat := 0x3C6
/-- R419, family Queues. -/
def Ev.QUEUE_RECORD_BAD : Nat := 0x400
/-- R419, family Queues. -/
def Ev.PS_SELECT_ERROR : Nat := 0x401
/-- R419, family Configuration. -/
def Ev.IMAGE_COPY_INVALID : Nat := 0x440
/-- R419, family Configuration. -/
def Ev.IMAGE_WRITTEN : Nat := 0x441
/-- R419, family Configuration. -/
def Ev.IMAGE_REJECTED : Nat := 0x442
/-- R419, family Self-test and repair. -/
def Ev.BIST_FAIL : Nat := 0x480
/-- R419, family Self-test and repair. -/
def Ev.REPAIR_APPLIED : Nat := 0x481
/-- R419, family Self-test and repair. -/
def Ev.SPARES_EXHAUSTED : Nat := 0x482
/-- R419, family Self-test and repair. -/
def Ev.REPAIR_RECORD_INVALID : Nat := 0x483
/-- R419, family Self-test and repair. -/
def Ev.TEST_CARRIED : Nat := 0x484
/-- R419, family Self-test and repair. -/
def Ev.TEST_ABANDONED : Nat := 0x485
/-- R419, family Self-test and repair. -/
def Ev.ROT_SUSPENDED : Nat := 0x486
/-- R419, family Self-test and repair. -/
def Ev.LIFECYCLE_CHANGED : Nat := 0x487
/-- R419, family Self-test and repair. -/
def Ev.SAFE_SUPPLY_ORDER : Nat := 0x488
/-- R419, family Power and thermal. -/
def Ev.BOOST_REMOVED : Nat := 0x4C0
/-- R419, family Power and thermal. -/
def Ev.THERMAL_THROTTLE : Nat := 0x4C1
/-- R419, family Power and thermal. -/
def Ev.THERMAL_STOP : Nat := 0x4C2
/-- R419, family Service. -/
def Ev.ARCHIVE_FAILED : Nat := 0x500

/-- Source numbers, R414. -/
def Src.axis (a : Nat) : Nat := a
def Src.ring (r : Nat) : Nat := 0x100 + r
def Src.engine (e : Nat) : Nat := 0x110 + e
def Src.core (c : Nat) : Nat := 0x130 + c
def Src.encoder (k : Nat) : Nat := 0x150 + k
def Src.emulation (u : Nat) : Nat := 0x158 + u
def Src.compare (c : Nat) : Nat := 0x160 + c
def Src.line (k : Nat) : Nat := 0x170 + k
def Src.island (i : Nat) : Nat := 0x200 + i
def Src.separation : Nat := 0x400
def Src.narrows (n : Nat) : Nat := 0x410 + n
def Src.channelA : Nat := 0x500
def Src.channelB : Nat := 0x501
def Src.duplex : Nat := 0x510
def Src.archipelago : Nat := 0x520
def Src.eth (p : Nat) : Nat := 0x530 + p
def Src.domain (d : Nat) : Nat := 0x532 + d
def Src.queue (q : Nat) : Nat := 0x540 + q
def Src.configuration : Nat := 0x560
def Src.repair : Nat := 0x570
def Src.power : Nat := 0x580
def Src.device : Nat := 0x5E0
def Src.service : Nat := 0x5F0

end Sys2Proof.Machine
end

