-- ==== Sys2Proof/Config.lean ====
section
/-! DEFINITION. The free values of the model: constants without a body, so that no proof can use a value of them.
Each stands where the spec gives an operation its effect and leaves the result, or its rounding, open. -/

namespace Sys2Proof

/-- The binary32 pattern the hardware gives a real number that binary32 does not hold exactly (R1 gives no rounding rule). -/
opaque Config.roundF32 : Rat → BitVec 32

/-- The binary64 pattern the hardware gives a real number that binary64 does not hold exactly (R1 gives no rounding rule). -/
opaque Config.roundF64 : Rat → BitVec 64

/-- The square root as the hardware computes it on reals (no rule states its rounding). -/
opaque Config.sqrt : Rat → Rat

/-- A free natural number: `Config.free tag n` for the `n`-th value drawn under a tag; each use names its tag. -/
opaque Config.free : Nat → Nat → Nat

/-- A free rational number, drawn in the same way. -/
opaque Config.freeRat : Nat → Nat → Rat

/-- The lowered cruise speed of R56, "to within 1 ns": of start speed and acceleration, distance, end speed, speed, acceleration
and jerk limit. Used only where it meets that bound. -/
opaque Config.cruise : List Rat → Rat

/-- The kinematics of an island, which its planning programs solve: they are image code. The pose of the tool point (x, y, z, unit
quaternion, redundancy angle) at joint values; the value of an axis at a pose, its speed at a rate of the pose, its acceleration. -/
opaque Config.fk : Nat → List (Nat × Rat) → List Rat
opaque Config.ik : Nat → Nat → List Rat → Rat
opaque Config.ikRate : Nat → Nat → List Rat → List Rat → Rat
opaque Config.ikAcc : Nat → Nat → List Rat → List Rat → List Rat → Rat

/-- The circle of R52 from a start point through a via point to an end point at a fraction of its length, and the shorter great arc
between two orientations at a fraction of it: the values (order 0), and the first and second derivative by the fraction. -/
opaque Config.arc : Nat → List Rat → List Rat → List Rat → Rat → List Rat
opaque Config.slerp : Nat → List Rat → List Rat → Rat → List Rat

/-- The greatest tool-point way per unit of path of a JOINT segment: of island, start and target joint values (R55). -/
opaque Config.jointReach : Nat → List (Nat × Rat) → List (Nat × Rat) → Rat

/-- The duration in which a SPLINE keeps the limits of R55: of island, coefficients and DURATION. Used only where it is longer. -/
opaque Config.splineTime : Nat → List (Nat × List Rat) → Rat → Rat

/-- How far along the path an axis reaches a limit, where the axis does not move in proportion to the path (R64): of axis, the numbers of
the path, path position and limit. -/
opaque Config.limitLeft : Nat → List Rat → Rat → Rat → Rat

/-- The torque feedforward τ* of an axis in a segment, a per-unit q-axis current: of island, SEQ, axis and path position. The planning
programs that solve the dynamics are image code. -/
opaque Config.torque : Nat → Nat → Nat → Rat → Rat

/-- The tool-point speed of an island per unit of path speed in a JOINT or SPLINE segment: of island, SEQ and path position. -/
opaque Config.toolRate : Nat → Nat → Rat → Rat

/-- The 24-bit word of a per-unit fraction that 24 bits do not hold exactly (R137 states no rounding). Within [-1, 1) it is used only where
it is one of the two nearest words. -/
opaque Config.toFrac : Rat → BitVec 24

/-- OMEGA_E of an axis at a speed in counts/s (R137 names no per-unit base for the electrical speed). -/
opaque Config.omegaE : Nat → Rat → BitVec 24

/-- The sine and the cosine of SCS. Used only where they are within 2^-22 of the true ones (R131). -/
opaque Config.sin24 : BitVec 24 → BitVec 24
opaque Config.cos24 : BitVec 24 → BitVec 24

/-- The quotient of a phase voltage and a bus voltage of 0 in the modulation (R147 states none). -/
opaque Config.overZero : Rat → Rat

/-- The law indices under which the image of the `n`-th load names laws of the reference library (the image's content). -/
opaque Config.refLaws : Nat → List Nat

/-- The result of RSQ, within 2^-22 (R131). Used only where it meets that bound. -/
opaque Config.rsq : BitVec 56 → BitVec 24

/-- The result of RCP where the quotient is no 24-bit fraction (R131 states no rounding). Used only where it is one of the two nearest. -/
opaque Config.rcp : BitVec 24 → BitVec 24

/-- The quadrature current of the life accounting (R222): of axis, unwrapped position and the currents iA and iB in A. -/
opaque Config.iq : Nat → Int → Rat → Rat → Rat

/-- The sine and the cosine of an angle in rad as the pose units compute them (R229). -/
opaque Config.sinR : Rat → Rat
opaque Config.cosR : Rat → Rat

/-- A coordinate in units of 2 mm of a point that is no multiple of them (R339 states no rounding). -/
opaque Config.toPoint : Rat → BitVec 16

/-- A measured offset or delay that is no whole number of nanoseconds, in whole nanoseconds (R347, R348 state no rounding). -/
opaque Config.wholeNs : Rat → Int

/-- The ageing factor 2^((Tj - 85) / 10) of R430 at a temperature in degrees Celsius, where it is no rational number. -/
opaque Config.ageing : Rat → Rat

end Sys2Proof
end

