-- ==== Sys2Proof/Machine/Bits.lean ====
section
/-! DEFINITION. Bit fields, two's complement, byte order, saturation and the two CRCs of R3, as plain Nat and Int arithmetic. -/

namespace Sys2Proof.Machine

/-- `n` bits of `w` from bit `lo` up. -/
def bits (w lo n : Nat) : Nat := w / 2 ^ lo % 2 ^ n

/-- `w` with its `n` bits from bit `lo` up replaced by the low bits of `v`. -/
def setBits (w lo n v : Nat) : Nat :=
  w / 2 ^ (lo + n) * 2 ^ (lo + n) + v % 2 ^ n * 2 ^ lo + w % 2 ^ lo

/-- Bit `i` of `w`. -/
def bitAt (w i : Nat) : Bool := w / 2 ^ i % 2 = 1

/-- A Boolean as one bit. -/
def b2n (b : Bool) : Nat := if b then 1 else 0

/-- The signed value of the low `n` bits of `w` (two's complement). -/
def sx (n w : Nat) : Int :=
  let v := w % 2 ^ n
  if 2 * v < 2 ^ n then (v : Int) else (v : Int) - 2 ^ n

/-- The low `n` bits of a signed number, two's complement. -/
def ux (n : Nat) (i : Int) : Nat := (i % 2 ^ n).toNat

/-- A signed number reduced modulo 2^n to the signed range of `n` bits. -/
def wrapS (n : Nat) (i : Int) : Int := sx n (ux n i)

/-- A signed number saturated to the signed range of `n` bits. -/
def satS (n : Nat) (i : Int) : Int :=
  if i < -(2 ^ (n - 1)) then -(2 ^ (n - 1)) else if 2 ^ (n - 1) - 1 < i then 2 ^ (n - 1) - 1 else i

/-- A natural number saturated to `n` bits. -/
def satU (n v : Nat) : Nat := min v (2 ^ n - 1)

/-- A counter of `n` bits that saturates, one step up. -/
def satInc (n v : Nat) : Nat := if v + 1 < 2 ^ n then v + 1 else 2 ^ n - 1

/-- The number a list of bytes spells, the first byte lowest (R2). -/
def leVal : List Nat → Nat
  | [] => 0
  | b :: bs => b % 256 + 256 * leVal bs

/-- The `n` lowest bytes of `v`, lowest first (R2). -/
def leBytes : Nat → Nat → List Nat
  | 0, _ => []
  | n + 1, v => v % 256 :: leBytes n (v / 256)

/-- The `n` low bytes of a word, the most significant first: the byte order of IEEE 1588, ARP and IP (R2). -/
def beBytes (n v : Nat) : List Nat := (leBytes n v).reverse

/-- `n` bytes of `l` from offset `o`, as a number, lowest first; bytes past the end count as 0. -/
def leAt (l : List Nat) (o n : Nat) : Nat := leVal ((l.drop o).take n)

/-- The bytes as plain numbers. -/
def natBytes (l : List Byte) : List Nat := l.map BitVec.toNat

/-- `n` steps of a reflected CRC register over one byte's bits. -/
def crcStep (poly : Nat) : Nat → Nat → Nat
  | 0, c => c
  | n + 1, c => if c % 2 = 1 then crcStep poly n (Nat.xor (c / 2) poly) else crcStep poly n (c / 2)

/-- A reflected 32-bit CRC over bytes, from register value `c`. -/
def crcBytes (poly : Nat) : List Nat → Nat → Nat
  | [], c => c
  | b :: bs, c => crcBytes poly bs (crcStep poly 8 (Nat.xor c (b % 256)))

/-- CRC-32C: polynomial 0x1EDC_6F41 reflected, initial value and final XOR 0xFFFF_FFFF (R3, R371). -/
def crc32c (l : List Nat) : Nat := Nat.xor (crcBytes 0x82F63B78 l 0xFFFFFFFF) 0xFFFFFFFF

/-- The CRC of the safety layer: polynomial 0x741B_8CD7 (R3, R290), reflected, initial value and final XOR 0xFFFF_FFFF. -/
def crcSafety (l : List Nat) : Nat := Nat.xor (crcBytes 0xEB31D82E l 0xFFFFFFFF) 0xFFFFFFFF

end Sys2Proof.Machine
end

