-- ==== Sys2Proof/Machine/Real.lean ====
section
/-! DEFINITION. IEEE 754 binary32 and binary64 patterns as exact rational numbers and back (R1). The way back is exact where the
number is representable and a free value (Config.roundF32, Config.roundF64) where it is not. -/

namespace Sys2Proof.Machine

/-- 2^e for a signed exponent. -/
def pow2 (e : Int) : Rat := if e < 0 then 1 / ((2 : Rat) ^ e.natAbs) else (2 : Rat) ^ e.natAbs

/-- The value of an IEEE pattern with `m` fraction bits, `x` exponent bits; infinities and NaNs give 0 (test with `ieeeFinite`). -/
def ieeeVal (m x w : Nat) : Rat :=
  let f := bits w 0 m
  let e := bits w m x
  let bias : Int := 2 ^ (x - 1) - 1
  let mag : Rat :=
    if e = 2 ^ x - 1 then 0
    else if e = 0 then (f : Rat) * pow2 (1 - bias - m)
    else ((2 ^ m + f : Nat) : Rat) * pow2 ((e : Int) - bias - m)
  if bitAt w (m + x) then -mag else mag

/-- Is the pattern a finite number? -/
def ieeeFinite (m x w : Nat) : Bool := bits w m x ≠ 2 ^ x - 1

/-- The pattern that holds `v` exactly, if there is one. -/
def ieeeExact? (m x : Nat) (v : Rat) : Option Nat :=
  if v = 0 then some 0 else
    let s := if v < 0 then 2 ^ (m + x) else 0
    let n := v.num.natAbs
    let k := v.den.log2
    let bias : Nat := 2 ^ (x - 1) - 1
    if 2 ^ k ≠ v.den then none else
      let l := n.log2
      let e : Int := (l : Int) - k
      if (bias : Int) < e then none
      else if (1 : Int) - bias ≤ e then
        if l ≤ m then some (s + (e + bias).toNat * 2 ^ m + (n * 2 ^ (m - l) - 2 ^ m))
        else if n % 2 ^ (l - m) = 0 then some (s + (e + bias).toNat * 2 ^ m + (n / 2 ^ (l - m) - 2 ^ m))
        else none
      else if k ≤ bias - 1 + m then some (s + n * 2 ^ (bias - 1 + m - k)) else none

/-- The value of a binary32 pattern. -/
def f32 (w : Nat) : Rat := ieeeVal 23 8 w

/-- The value of a binary64 pattern. -/
def f64 (w : Nat) : Rat := ieeeVal 52 11 w

/-- Is the binary32 pattern finite? -/
def f32Finite (w : Nat) : Bool := ieeeFinite 23 8 w

/-- Positive infinity in binary32, the reset of the minimum-distance registers (R245). -/
def f32Inf : Nat := 0x7F800000

/-- The binary32 pattern of a real: exact where representable, otherwise the free rounding. -/
def toF32 (v : Rat) : Nat :=
  match ieeeExact? 23 8 v with
  | some w => w
  | none => (Config.roundF32 v).toNat

/-- The binary64 pattern of a real. -/
def toF64 (v : Rat) : Nat :=
  match ieeeExact? 52 11 v with
  | some w => w
  | none => (Config.roundF64 v).toNat

/-- The absolute value of a rational number. -/
def rabs (v : Rat) : Rat := if v < 0 then -v else v

/-- The square root by Config.sqrt; exact on 0. -/
def rsqrt (v : Rat) : Rat := if v = 0 then 0 else Config.sqrt v

end Sys2Proof.Machine
end

