-- ==== Sys2Proof/Machine/Regs.lean ====
section
/-! DEFINITION. The register space, written from the register tables of spec/ by name: for each register its address (R411 and
the R-rule of its chapter), for each field its place (address, lowest bit, width), and for each block the rows that say which
bits may be written, cleared by a 1, are write-only or loaded by the image, and what the word is after power-on (R5, R8).
A field the tables mark strap, factory or stored is listed with reset bits 0; Device.lean sets it at POWER_GOOD. -/

namespace Sys2Proof.Machine

/-- The place of one register field: the word's byte address, its lowest bit, its width. -/
structure Fld where
  addr : Nat
  lo : Nat
  width : Nat
  deriving DecidableEq, Repr

/-- One register of the tables with its instances: `addr + s1 * i + s2 * j` for `i < n1`, `j < n2`.
The masks hold the bits whose access is RW, W1C and WO and the bits whose Reset column reads "image" (R5, R8). -/
structure RegRow where
  addr : Nat
  s1 : Nat
  n1 : Nat
  s2 : Nat
  n2 : Nat
  rw : Nat
  w1c : Nat
  wo : Nat
  img : Nat
  reset : Nat
  /-- added to the reset word once for each index `i` (LE_STAT.PHYS and CORE_STAT.PHYS reset to the window's number) -/
  resetStep : Nat
  deriving DecidableEq, Repr

/-- DEV_ID, 01, R22. -/
def Reg.DEV_ID : Nat := 0
def Reg.DEV_ID.FAMILY : Fld := ⟨Reg.DEV_ID, 16, 16⟩
def Reg.DEV_ID.DEVICE : Fld := ⟨Reg.DEV_ID, 0, 16⟩

/-- STEPPING, 01, R22. -/
def Reg.STEPPING : Nat := 4
def Reg.STEPPING.LETTER : Fld := ⟨Reg.STEPPING, 8, 8⟩
def Reg.STEPPING.NUMBER : Fld := ⟨Reg.STEPPING, 0, 8⟩

/-- DEV_STATE, 01, R22. -/
def Reg.DEV_STATE : Nat := 16
def Reg.DEV_STATE.AUTO_REFUSED : Fld := ⟨Reg.DEV_STATE, 16, 1⟩
def Reg.DEV_STATE.SHDN_REQ : Fld := ⟨Reg.DEV_STATE, 12, 1⟩
def Reg.DEV_STATE.OFF_READY : Fld := ⟨Reg.DEV_STATE, 11, 1⟩
def Reg.DEV_STATE.IMAGE_COPY : Fld := ⟨Reg.DEV_STATE, 10, 1⟩
def Reg.DEV_STATE.COMMISSION_CONFIRMED : Fld := ⟨Reg.DEV_STATE, 9, 1⟩
def Reg.DEV_STATE.STARTUP_TEST_DONE : Fld := ⟨Reg.DEV_STATE, 8, 1⟩
def Reg.DEV_STATE.STATE : Fld := ⟨Reg.DEV_STATE, 0, 4⟩

/-- DEV_CTRL, 01, R22. -/
def Reg.DEV_CTRL : Nat := 20
def Reg.DEV_CTRL.RELOAD : Fld := ⟨Reg.DEV_CTRL, 2, 1⟩
def Reg.DEV_CTRL.REDUCED_REQ : Fld := ⟨Reg.DEV_CTRL, 1, 1⟩
def Reg.DEV_CTRL.AUTO_REQ : Fld := ⟨Reg.DEV_CTRL, 0, 1⟩

/-- CYCLE_LO, 01, R22. -/
def Reg.CYCLE_LO : Nat := 24
def Reg.CYCLE_LO.CYCLE : Fld := ⟨Reg.CYCLE_LO, 0, 32⟩

/-- CYCLE_HI, 01, R22. -/
def Reg.CYCLE_HI : Nat := 28
def Reg.CYCLE_HI.CYCLE : Fld := ⟨Reg.CYCLE_HI, 0, 32⟩

/-- TSC_LO, 02, R44. -/
def Reg.TSC_LO : Nat := 65536
def Reg.TSC_LO.VALUE : Fld := ⟨Reg.TSC_LO, 0, 32⟩

/-- TSC_HI, 02, R44. -/
def Reg.TSC_HI : Nat := 65540
def Reg.TSC_HI.VALUE : Fld := ⟨Reg.TSC_HI, 0, 32⟩

/-- CYCLE_TSC_LO, 02, R44. -/
def Reg.CYCLE_TSC_LO : Nat := 65544
def Reg.CYCLE_TSC_LO.VALUE : Fld := ⟨Reg.CYCLE_TSC_LO, 0, 32⟩

/-- CYCLE_TSC_HI, 02, R44. -/
def Reg.CYCLE_TSC_HI : Nat := 65548
def Reg.CYCLE_TSC_HI.VALUE : Fld := ⟨Reg.CYCLE_TSC_HI, 0, 32⟩

/-- LINE_CFG, 02, R44. -/
def Reg.LINE_CFG (k : Nat) : Nat := 65792 + 64 * k
def Reg.LINE_CFG.INVERT (k : Nat) : Fld := ⟨Reg.LINE_CFG k, 16, 1⟩
def Reg.LINE_CFG.SRC_INDEX (k : Nat) : Fld := ⟨Reg.LINE_CFG k, 8, 8⟩
def Reg.LINE_CFG.SOURCE (k : Nat) : Fld := ⟨Reg.LINE_CFG k, 0, 3⟩

/-- LINE_SCALE, 02, R44. -/
def Reg.LINE_SCALE (k : Nat) : Nat := 65796 + 64 * k
def Reg.LINE_SCALE.MM_PER_COUNT (k : Nat) : Fld := ⟨Reg.LINE_SCALE k, 0, 32⟩

/-- LINE_POS_LO, 02, R44. -/
def Reg.LINE_POS_LO (k : Nat) : Nat := 65800 + 64 * k
def Reg.LINE_POS_LO.POS (k : Nat) : Fld := ⟨Reg.LINE_POS_LO k, 0, 32⟩

/-- LINE_POS_HI, 02, R44. -/
def Reg.LINE_POS_HI (k : Nat) : Nat := 65804 + 64 * k
def Reg.LINE_POS_HI.POS (k : Nat) : Fld := ⟨Reg.LINE_POS_HI k, 0, 32⟩

/-- LINE_VEL, 02, R44. -/
def Reg.LINE_VEL (k : Nat) : Nat := 65808 + 64 * k
def Reg.LINE_VEL.VEL (k : Nat) : Fld := ⟨Reg.LINE_VEL k, 0, 32⟩

/-- LINE_VRATE, 02, R44. -/
def Reg.LINE_VRATE (k : Nat) : Nat := 65812 + 64 * k
def Reg.LINE_VRATE.VRATE (k : Nat) : Fld := ⟨Reg.LINE_VRATE k, 0, 32⟩

/-- LINE_PRESET_LO, 02, R44. -/
def Reg.LINE_PRESET_LO (k : Nat) : Nat := 65816 + 64 * k
def Reg.LINE_PRESET_LO.PRESET (k : Nat) : Fld := ⟨Reg.LINE_PRESET_LO k, 0, 32⟩

/-- LINE_PRESET_HI, 02, R44. -/
def Reg.LINE_PRESET_HI (k : Nat) : Nat := 65820 + 64 * k
def Reg.LINE_PRESET_HI.PRESET (k : Nat) : Fld := ⟨Reg.LINE_PRESET_HI k, 0, 32⟩

/-- LINE_CTRL, 02, R44. -/
def Reg.LINE_CTRL (k : Nat) : Nat := 65824 + 64 * k
def Reg.LINE_CTRL.RESUME (k : Nat) : Fld := ⟨Reg.LINE_CTRL k, 1, 1⟩
def Reg.LINE_CTRL.PRESET (k : Nat) : Fld := ⟨Reg.LINE_CTRL k, 0, 1⟩

/-- LINE_STAT, 02, R44. -/
def Reg.LINE_STAT (k : Nat) : Nat := 65828 + 64 * k
def Reg.LINE_STAT.PENDING (k : Nat) : Fld := ⟨Reg.LINE_STAT k, 16, 11⟩
def Reg.LINE_STAT.DIR_REV (k : Nat) : Fld := ⟨Reg.LINE_STAT k, 3, 1⟩
def Reg.LINE_STAT.DISCONT (k : Nat) : Fld := ⟨Reg.LINE_STAT k, 2, 1⟩
def Reg.LINE_STAT.SRC_LOST (k : Nat) : Fld := ⟨Reg.LINE_STAT k, 1, 1⟩
def Reg.LINE_STAT.RUNNING (k : Nat) : Fld := ⟨Reg.LINE_STAT k, 0, 1⟩

/-- ACT_TRIG_LO, 02, R44. -/
def Reg.ACT_TRIG_LO : Nat := 67584
def Reg.ACT_TRIG_LO.TRIG : Fld := ⟨Reg.ACT_TRIG_LO, 0, 32⟩

/-- ACT_TRIG_HI, 02, R44. -/
def Reg.ACT_TRIG_HI : Nat := 67588
def Reg.ACT_TRIG_HI.TRIG : Fld := ⟨Reg.ACT_TRIG_HI, 0, 32⟩

/-- ACT_TOL, 02, R44. -/
def Reg.ACT_TOL : Nat := 67592
def Reg.ACT_TOL.TOL : Fld := ⟨Reg.ACT_TOL, 0, 32⟩

/-- ACT_SPEC, 02, R44. -/
def Reg.ACT_SPEC : Nat := 67596
def Reg.ACT_SPEC.TARGET : Fld := ⟨Reg.ACT_SPEC, 8, 10⟩
def Reg.ACT_SPEC.DIR : Fld := ⟨Reg.ACT_SPEC, 7, 1⟩
def Reg.ACT_SPEC.LINE : Fld := ⟨Reg.ACT_SPEC, 4, 3⟩
def Reg.ACT_SPEC.KIND : Fld := ⟨Reg.ACT_SPEC, 0, 3⟩

/-- ACT_ARM, 02, R44. -/
def Reg.ACT_ARM : Nat := 67600
def Reg.ACT_ARM.TAG : Fld := ⟨Reg.ACT_ARM, 0, 16⟩

/-- ACT_CANCEL, 02, R44. -/
def Reg.ACT_CANCEL : Nat := 67604
def Reg.ACT_CANCEL.TAG : Fld := ⟨Reg.ACT_CANCEL, 16, 16⟩
def Reg.ACT_CANCEL.INDEX : Fld := ⟨Reg.ACT_CANCEL, 0, 10⟩

/-- ACT_RESULT, 02, R44. -/
def Reg.ACT_RESULT : Nat := 67608
def Reg.ACT_RESULT.TAG : Fld := ⟨Reg.ACT_RESULT, 16, 16⟩
def Reg.ACT_RESULT.STATUS : Fld := ⟨Reg.ACT_RESULT, 13, 3⟩
def Reg.ACT_RESULT.INDEX : Fld := ⟨Reg.ACT_RESULT, 0, 10⟩

/-- ACT_COUNT, 02, R44. -/
def Reg.ACT_COUNT : Nat := 67612
def Reg.ACT_COUNT.COUNT : Fld := ⟨Reg.ACT_COUNT, 0, 11⟩

/-- ACT_PEND, 02, R44. -/
def Reg.ACT_PEND (k : Nat) : Nat := 67840 + 4 * k
def Reg.ACT_PEND.PEND (k : Nat) : Fld := ⟨Reg.ACT_PEND k, 0, 32⟩

/-- ISL_CFG, 03, R71. -/
def Reg.ISL_CFG (k : Nat) : Nat := 294912 + 64 * k
def Reg.ISL_CFG.AXES (k : Nat) : Fld := ⟨Reg.ISL_CFG k, 16, 9⟩
def Reg.ISL_CFG.ROOT (k : Nat) : Fld := ⟨Reg.ISL_CFG k, 9, 1⟩
def Reg.ISL_CFG.PARENT (k : Nat) : Fld := ⟨Reg.ISL_CFG k, 0, 9⟩

/-- ISL_STATE, 03, R71. -/
def Reg.ISL_STATE (k : Nat) : Nat := 294916 + 64 * k
def Reg.ISL_STATE.PG_ACTIVE (k : Nat) : Fld := ⟨Reg.ISL_STATE k, 12, 1⟩
def Reg.ISL_STATE.REDUCED_CAP (k : Nat) : Fld := ⟨Reg.ISL_STATE k, 11, 1⟩
def Reg.ISL_STATE.CAUSE (k : Nat) : Fld := ⟨Reg.ISL_STATE k, 8, 3⟩
def Reg.ISL_STATE.FLOW (k : Nat) : Fld := ⟨Reg.ISL_STATE k, 4, 3⟩
def Reg.ISL_STATE.STATE (k : Nat) : Fld := ⟨Reg.ISL_STATE k, 0, 3⟩

/-- ISL_CTRL, 03, R71. -/
def Reg.ISL_CTRL (k : Nat) : Nat := 294920 + 64 * k
def Reg.ISL_CTRL.SS1 (k : Nat) : Fld := ⟨Reg.ISL_CTRL k, 5, 1⟩
def Reg.ISL_CTRL.FLUSH (k : Nat) : Fld := ⟨Reg.ISL_CTRL k, 4, 1⟩
def Reg.ISL_CTRL.RESUME (k : Nat) : Fld := ⟨Reg.ISL_CTRL k, 3, 1⟩
def Reg.ISL_CTRL.HOLD (k : Nat) : Fld := ⟨Reg.ISL_CTRL k, 2, 1⟩
def Reg.ISL_CTRL.DISABLE (k : Nat) : Fld := ⟨Reg.ISL_CTRL k, 1, 1⟩
def Reg.ISL_CTRL.ENABLE (k : Nat) : Fld := ⟨Reg.ISL_CTRL k, 0, 1⟩

/-- ISL_FACTOR, 03, R71. -/
def Reg.ISL_FACTOR (k : Nat) : Nat := 294924 + 64 * k
def Reg.ISL_FACTOR.SIGMA (k : Nat) : Fld := ⟨Reg.ISL_FACTOR k, 16, 16⟩
def Reg.ISL_FACTOR.TARGET (k : Nat) : Fld := ⟨Reg.ISL_FACTOR k, 0, 16⟩

/-- ISL_OVR, 03, R71. -/
def Reg.ISL_OVR (k : Nat) : Nat := 294928 + 64 * k
def Reg.ISL_OVR.OVR (k : Nat) : Fld := ⟨Reg.ISL_OVR k, 0, 16⟩

/-- ISL_SEQ, 03, R71. -/
def Reg.ISL_SEQ (k : Nat) : Nat := 294932 + 64 * k
def Reg.ISL_SEQ.SEQ (k : Nat) : Fld := ⟨Reg.ISL_SEQ k, 0, 32⟩

/-- ISL_REJECT, 03, R71. -/
def Reg.ISL_REJECT (k : Nat) : Nat := 294936 + 64 * k
def Reg.ISL_REJECT.REASON (k : Nat) : Fld := ⟨Reg.ISL_REJECT k, 0, 8⟩

/-- ISL_VMAX, 03, R71. -/
def Reg.ISL_VMAX (k : Nat) : Nat := 294940 + 64 * k
def Reg.ISL_VMAX.VALUE (k : Nat) : Fld := ⟨Reg.ISL_VMAX k, 0, 32⟩

/-- ISL_AMAX, 03, R71. -/
def Reg.ISL_AMAX (k : Nat) : Nat := 294944 + 64 * k
def Reg.ISL_AMAX.VALUE (k : Nat) : Fld := ⟨Reg.ISL_AMAX k, 0, 32⟩

/-- ISL_JMAX, 03, R71. -/
def Reg.ISL_JMAX (k : Nat) : Nat := 294948 + 64 * k
def Reg.ISL_JMAX.VALUE (k : Nat) : Fld := ⟨Reg.ISL_JMAX k, 0, 32⟩

/-- ISL_STOP_DEC, 03, R71. -/
def Reg.ISL_STOP_DEC (k : Nat) : Nat := 294952 + 64 * k
def Reg.ISL_STOP_DEC.VALUE (k : Nat) : Fld := ⟨Reg.ISL_STOP_DEC k, 0, 32⟩

/-- ISL_STOP_JERK, 03, R71. -/
def Reg.ISL_STOP_JERK (k : Nat) : Nat := 294956 + 64 * k
def Reg.ISL_STOP_JERK.VALUE (k : Nat) : Fld := ⟨Reg.ISL_STOP_JERK k, 0, 32⟩

/-- AX_VMAX, 03, R72. -/
def Reg.AX_VMAX (k : Nat) : Nat := 1048704 + 256 * k
def Reg.AX_VMAX.VALUE (k : Nat) : Fld := ⟨Reg.AX_VMAX k, 0, 32⟩

/-- AX_AMAX, 03, R72. -/
def Reg.AX_AMAX (k : Nat) : Nat := 1048708 + 256 * k
def Reg.AX_AMAX.VALUE (k : Nat) : Fld := ⟨Reg.AX_AMAX k, 0, 32⟩

/-- AX_JMAX, 03, R72. -/
def Reg.AX_JMAX (k : Nat) : Nat := 1048712 + 256 * k
def Reg.AX_JMAX.VALUE (k : Nat) : Fld := ⟨Reg.AX_JMAX k, 0, 32⟩

/-- AX_SOFT_CFG, 03, R72. -/
def Reg.AX_SOFT_CFG (k : Nat) : Nat := 1048716 + 256 * k
def Reg.AX_SOFT_CFG.EN (k : Nat) : Fld := ⟨Reg.AX_SOFT_CFG k, 0, 1⟩

/-- AX_SOFT_LO_LO, 03, R72. -/
def Reg.AX_SOFT_LO_LO (k : Nat) : Nat := 1048720 + 256 * k
def Reg.AX_SOFT_LO_LO.LIMIT (k : Nat) : Fld := ⟨Reg.AX_SOFT_LO_LO k, 0, 32⟩

/-- AX_SOFT_LO_HI, 03, R72. -/
def Reg.AX_SOFT_LO_HI (k : Nat) : Nat := 1048724 + 256 * k
def Reg.AX_SOFT_LO_HI.LIMIT (k : Nat) : Fld := ⟨Reg.AX_SOFT_LO_HI k, 0, 32⟩

/-- AX_SOFT_HI_LO, 03, R72. -/
def Reg.AX_SOFT_HI_LO (k : Nat) : Nat := 1048728 + 256 * k
def Reg.AX_SOFT_HI_LO.LIMIT (k : Nat) : Fld := ⟨Reg.AX_SOFT_HI_LO k, 0, 32⟩

/-- AX_SOFT_HI_HI, 03, R72. -/
def Reg.AX_SOFT_HI_HI (k : Nat) : Nat := 1048732 + 256 * k
def Reg.AX_SOFT_HI_HI.LIMIT (k : Nat) : Fld := ⟨Reg.AX_SOFT_HI_HI k, 0, 32⟩

/-- PG_TARGET_LO, 03, R72. -/
def Reg.PG_TARGET_LO (k : Nat) : Nat := 1048736 + 256 * k
def Reg.PG_TARGET_LO.TARGET (k : Nat) : Fld := ⟨Reg.PG_TARGET_LO k, 0, 32⟩

/-- PG_TARGET_HI, 03, R72. -/
def Reg.PG_TARGET_HI (k : Nat) : Nat := 1048740 + 256 * k
def Reg.PG_TARGET_HI.TARGET (k : Nat) : Fld := ⟨Reg.PG_TARGET_HI k, 0, 32⟩

/-- PG_VLIM, 03, R72. -/
def Reg.PG_VLIM (k : Nat) : Nat := 1048744 + 256 * k
def Reg.PG_VLIM.VLIM (k : Nat) : Fld := ⟨Reg.PG_VLIM k, 0, 32⟩

/-- PG_CTRL, 03, R72. -/
def Reg.PG_CTRL (k : Nat) : Nat := 1048748 + 256 * k
def Reg.PG_CTRL.DIR (k : Nat) : Fld := ⟨Reg.PG_CTRL k, 2, 2⟩
def Reg.PG_CTRL.STOP (k : Nat) : Fld := ⟨Reg.PG_CTRL k, 1, 1⟩
def Reg.PG_CTRL.GO (k : Nat) : Fld := ⟨Reg.PG_CTRL k, 0, 1⟩

/-- PG_STAT, 03, R72. -/
def Reg.PG_STAT (k : Nat) : Nat := 1048752 + 256 * k
def Reg.PG_STAT.REFUSED (k : Nat) : Fld := ⟨Reg.PG_STAT k, 6, 1⟩
def Reg.PG_STAT.LIMITED (k : Nat) : Fld := ⟨Reg.PG_STAT k, 5, 1⟩
def Reg.PG_STAT.AT_TARGET (k : Nat) : Fld := ⟨Reg.PG_STAT k, 4, 1⟩
def Reg.PG_STAT.PHASE (k : Nat) : Fld := ⟨Reg.PG_STAT k, 1, 3⟩
def Reg.PG_STAT.ACTIVE (k : Nat) : Fld := ⟨Reg.PG_STAT k, 0, 1⟩

/-- SCHED_CFG, 04, R92. -/
def Reg.SCHED_CFG : Nat := 262144
def Reg.SCHED_CFG.ITEM_MAX : Fld := ⟨Reg.SCHED_CFG, 16, 16⟩
def Reg.SCHED_CFG.URGENT : Fld := ⟨Reg.SCHED_CFG, 0, 8⟩

/-- SCHED_STAT, 04, R92. -/
def Reg.SCHED_STAT : Nat := 262148
def Reg.SCHED_STAT.CORES_BUSY : Fld := ⟨Reg.SCHED_STAT, 24, 5⟩
def Reg.SCHED_STAT.CORES_IN_SERVICE : Fld := ⟨Reg.SCHED_STAT, 16, 5⟩
def Reg.SCHED_STAT.STORE_USED : Fld := ⟨Reg.SCHED_STAT, 0, 11⟩

/-- SCHED_OPND_DATA, 04, R92. -/
def Reg.SCHED_OPND_DATA (k : Nat) : Nat := 262208 + 4 * k
def Reg.SCHED_OPND_DATA.DATA (k : Nat) : Fld := ⟨Reg.SCHED_OPND_DATA k, 0, 32⟩

/-- SCHED_OPND, 04, R92. -/
def Reg.SCHED_OPND : Nat := 262240
def Reg.SCHED_OPND.TAG : Fld := ⟨Reg.SCHED_OPND, 16, 16⟩
def Reg.SCHED_OPND.SLOT : Fld := ⟨Reg.SCHED_OPND, 10, 2⟩
def Reg.SCHED_OPND.ENTRY : Fld := ⟨Reg.SCHED_OPND, 0, 10⟩

/-- SCHED_OPND_RESULT, 04, R92. -/
def Reg.SCHED_OPND_RESULT : Nat := 262244
def Reg.SCHED_OPND_RESULT.TAG : Fld := ⟨Reg.SCHED_OPND_RESULT, 16, 16⟩
def Reg.SCHED_OPND_RESULT.STATUS : Fld := ⟨Reg.SCHED_OPND_RESULT, 0, 3⟩

/-- CORE_STAT, 04, R92. -/
def Reg.CORE_STAT (k : Nat) : Nat := 262400 + 4 * k
def Reg.CORE_STAT.ISOLATED (k : Nat) : Fld := ⟨Reg.CORE_STAT k, 31, 1⟩
def Reg.CORE_STAT.BOOST (k : Nat) : Fld := ⟨Reg.CORE_STAT k, 30, 1⟩
def Reg.CORE_STAT.PHYS (k : Nat) : Fld := ⟨Reg.CORE_STAT k, 25, 5⟩
def Reg.CORE_STAT.CLASS (k : Nat) : Fld := ⟨Reg.CORE_STAT k, 23, 2⟩
def Reg.CORE_STAT.STATE (k : Nat) : Fld := ⟨Reg.CORE_STAT k, 20, 3⟩
def Reg.CORE_STAT.FLOW (k : Nat) : Fld := ⟨Reg.CORE_STAT k, 10, 10⟩
def Reg.CORE_STAT.ENTRY (k : Nat) : Fld := ⟨Reg.CORE_STAT k, 0, 10⟩

/-- DC_CFG, 04, R92. -/
def Reg.DC_CFG (k : Nat) : Nat := 266240 + 16 * k
def Reg.DC_CFG.TICK (k : Nat) : Fld := ⟨Reg.DC_CFG k, 16, 2⟩
def Reg.DC_CFG.INIT (k : Nat) : Fld := ⟨Reg.DC_CFG k, 0, 16⟩

/-- DC_VAL, 04, R92. -/
def Reg.DC_VAL (k : Nat) : Nat := 266244 + 16 * k
def Reg.DC_VAL.VALUE (k : Nat) : Fld := ⟨Reg.DC_VAL k, 0, 16⟩

/-- DC_STAT, 04, R92. -/
def Reg.DC_STAT (k : Nat) : Nat := 266248 + 16 * k
def Reg.DC_STAT.RUNS (k : Nat) : Fld := ⟨Reg.DC_STAT k, 16, 16⟩
def Reg.DC_STAT.RUNNING (k : Nat) : Fld := ⟨Reg.DC_STAT k, 1, 1⟩
def Reg.DC_STAT.OVERLAP (k : Nat) : Fld := ⟨Reg.DC_STAT k, 0, 1⟩

/-- FLOW_STAT, 04, R92. -/
def Reg.FLOW_STAT (k : Nat) : Nat := 278528 + 4 * k
def Reg.FLOW_STAT.STARVED (k : Nat) : Fld := ⟨Reg.FLOW_STAT k, 15, 1⟩
def Reg.FLOW_STAT.DONE_WAITING (k : Nat) : Fld := ⟨Reg.FLOW_STAT k, 8, 7⟩
def Reg.FLOW_STAT.IN_FLIGHT (k : Nat) : Fld := ⟨Reg.FLOW_STAT k, 0, 7⟩

/-- FAB_ISO_LO, 04, R92. -/
def Reg.FAB_ISO_LO : Nat := 286720
def Reg.FAB_ISO_LO.ISO : Fld := ⟨Reg.FAB_ISO_LO, 0, 32⟩

/-- FAB_ISO_HI, 04, R92. -/
def Reg.FAB_ISO_HI : Nat := 286724
def Reg.FAB_ISO_HI.ISO : Fld := ⟨Reg.FAB_ISO_HI, 0, 32⟩

/-- FAB_CTRL, 04, R92. -/
def Reg.FAB_CTRL : Nat := 286728
def Reg.FAB_CTRL.CLR_MAX : Fld := ⟨Reg.FAB_CTRL, 0, 1⟩

/-- FAB_TGT_CFG, 04, R92. -/
def Reg.FAB_TGT_CFG (k : Nat) : Nat := 286976 + 8 * k
def Reg.FAB_TGT_CFG.QUOTA (k : Nat) : Fld := ⟨Reg.FAB_TGT_CFG k, 0, 8⟩

/-- FAB_TGT_STAT, 04, R92. -/
def Reg.FAB_TGT_STAT (k : Nat) : Nat := 286980 + 8 * k
def Reg.FAB_TGT_STAT.OWNER (k : Nat) : Fld := ⟨Reg.FAB_TGT_STAT k, 26, 6⟩
def Reg.FAB_TGT_STAT.OWNED (k : Nat) : Fld := ⟨Reg.FAB_TGT_STAT k, 25, 1⟩
def Reg.FAB_TGT_STAT.HIGH_MASKED (k : Nat) : Fld := ⟨Reg.FAB_TGT_STAT k, 24, 1⟩
def Reg.FAB_TGT_STAT.MAX_HOLD (k : Nat) : Fld := ⟨Reg.FAB_TGT_STAT k, 0, 16⟩

/-- LE_CFG, 05, R116. -/
def Reg.LE_CFG (k : Nat) : Nat := 524288 + 16384 * k
def Reg.LE_CFG.OPMODE (k : Nat) : Fld := ⟨Reg.LE_CFG k, 16, 1⟩
def Reg.LE_CFG.AXES (k : Nat) : Fld := ⟨Reg.LE_CFG k, 8, 5⟩
def Reg.LE_CFG.RING (k : Nat) : Fld := ⟨Reg.LE_CFG k, 0, 5⟩

/-- LE_STAT, 05, R116. -/
def Reg.LE_STAT (k : Nat) : Nat := 524292 + 16384 * k
def Reg.LE_STAT.PHYS (k : Nat) : Fld := ⟨Reg.LE_STAT k, 27, 5⟩
def Reg.LE_STAT.IN_SERVICE (k : Nat) : Fld := ⟨Reg.LE_STAT k, 26, 1⟩
def Reg.LE_STAT.SHED (k : Nat) : Fld := ⟨Reg.LE_STAT k, 25, 1⟩
def Reg.LE_STAT.COEF_OVF (k : Nat) : Fld := ⟨Reg.LE_STAT k, 24, 1⟩
def Reg.LE_STAT.COEF_BAD (k : Nat) : Fld := ⟨Reg.LE_STAT k, 23, 1⟩
def Reg.LE_STAT.COEF_FREE (k : Nat) : Fld := ⟨Reg.LE_STAT k, 16, 6⟩

/-- LE_LOAD, 05, R116. -/
def Reg.LE_LOAD (k : Nat) : Nat := 524296 + 16384 * k
def Reg.LE_LOAD.PEAK (k : Nat) : Fld := ⟨Reg.LE_LOAD k, 16, 16⟩
def Reg.LE_LOAD.LAST (k : Nat) : Fld := ⟨Reg.LE_LOAD k, 0, 16⟩

/-- LE_CTRL, 05, R116. -/
def Reg.LE_CTRL (k : Nat) : Nat := 524300 + 16384 * k
def Reg.LE_CTRL.CLR_PEAK (k : Nat) : Fld := ⟨Reg.LE_CTRL k, 1, 1⟩
def Reg.LE_CTRL.RESTORE (k : Nat) : Fld := ⟨Reg.LE_CTRL k, 0, 1⟩

/-- LE_OVR, 05, R116. -/
def Reg.LE_OVR (k : Nat) : Nat := 524304 + 16384 * k
def Reg.LE_OVR.COUNT (k : Nat) : Fld := ⟨Reg.LE_OVR k, 0, 32⟩

/-- LAW_COEF_SEL, 05, R116. -/
def Reg.LAW_COEF_SEL (k : Nat) : Nat := 524320 + 16384 * k
def Reg.LAW_COEF_SEL.SLOT (k : Nat) : Fld := ⟨Reg.LAW_COEF_SEL k, 16, 5⟩
def Reg.LAW_COEF_SEL.BANK (k : Nat) : Fld := ⟨Reg.LAW_COEF_SEL k, 8, 1⟩
def Reg.LAW_COEF_SEL.INDEX (k : Nat) : Fld := ⟨Reg.LAW_COEF_SEL k, 0, 6⟩

/-- LAW_COEF_DATA, 05, R116. -/
def Reg.LAW_COEF_DATA (k : Nat) : Nat := 524324 + 16384 * k
def Reg.LAW_COEF_DATA.EXP (k : Nat) : Fld := ⟨Reg.LAW_COEF_DATA k, 24, 4⟩
def Reg.LAW_COEF_DATA.FRAC (k : Nat) : Fld := ⟨Reg.LAW_COEF_DATA k, 0, 24⟩

/-- LAW_COEF_READ, 05, R116. -/
def Reg.LAW_COEF_READ (k : Nat) : Nat := 524332 + 16384 * k
def Reg.LAW_COEF_READ.EXP (k : Nat) : Fld := ⟨Reg.LAW_COEF_READ k, 24, 4⟩
def Reg.LAW_COEF_READ.FRAC (k : Nat) : Fld := ⟨Reg.LAW_COEF_READ k, 0, 24⟩

/-- LAW_SWITCH, 05, R116. -/
def Reg.LAW_SWITCH (k : Nat) : Nat := 524328 + 16384 * k
def Reg.LAW_SWITCH.SLOT (k : Nat) : Fld := ⟨Reg.LAW_SWITCH k, 16, 5⟩
def Reg.LAW_SWITCH.ACTION (k : Nat) : Fld := ⟨Reg.LAW_SWITCH k, 0, 2⟩

/-- TR_CFG, 05, R116. -/
def Reg.TR_CFG (k : Nat) : Nat := 524544 + 16384 * k
def Reg.TR_CFG.RATE (k : Nat) : Fld := ⟨Reg.TR_CFG k, 30, 1⟩
def Reg.TR_CFG.DECIM (k : Nat) : Fld := ⟨Reg.TR_CFG k, 22, 8⟩
def Reg.TR_CFG.NCH (k : Nat) : Fld := ⟨Reg.TR_CFG k, 19, 3⟩
def Reg.TR_CFG.LEN (k : Nat) : Fld := ⟨Reg.TR_CFG k, 0, 14⟩

/-- TR_TRIG, 05, R116. -/
def Reg.TR_TRIG (k : Nat) : Nat := 524548 + 16384 * k
def Reg.TR_TRIG.SLOT (k : Nat) : Fld := ⟨Reg.TR_TRIG k, 8, 5⟩
def Reg.TR_TRIG.SOURCE (k : Nat) : Fld := ⟨Reg.TR_TRIG k, 0, 4⟩

/-- TR_LEVEL, 05, R116. -/
def Reg.TR_LEVEL (k : Nat) : Nat := 524552 + 16384 * k
def Reg.TR_LEVEL.LEVEL (k : Nat) : Fld := ⟨Reg.TR_LEVEL k, 0, 24⟩

/-- TR_POST, 05, R116. -/
def Reg.TR_POST (k : Nat) : Nat := 524556 + 16384 * k
def Reg.TR_POST.POST (k : Nat) : Fld := ⟨Reg.TR_POST k, 0, 24⟩

/-- TR_CTRL, 05, R116. -/
def Reg.TR_CTRL (k : Nat) : Nat := 524560 + 16384 * k
def Reg.TR_CTRL.FORCE (k : Nat) : Fld := ⟨Reg.TR_CTRL k, 2, 1⟩
def Reg.TR_CTRL.STOP (k : Nat) : Fld := ⟨Reg.TR_CTRL k, 1, 1⟩
def Reg.TR_CTRL.ARM (k : Nat) : Fld := ⟨Reg.TR_CTRL k, 0, 1⟩

/-- TR_STAT, 05, R116. -/
def Reg.TR_STAT (k : Nat) : Nat := 524564 + 16384 * k
def Reg.TR_STAT.CFG_REFUSED (k : Nat) : Fld := ⟨Reg.TR_STAT k, 7, 1⟩
def Reg.TR_STAT.TRIG_LOST (k : Nat) : Fld := ⟨Reg.TR_STAT k, 6, 1⟩
def Reg.TR_STAT.LENGTH_PENDING (k : Nat) : Fld := ⟨Reg.TR_STAT k, 5, 1⟩
def Reg.TR_STAT.WRAPPED (k : Nat) : Fld := ⟨Reg.TR_STAT k, 4, 1⟩
def Reg.TR_STAT.STATE (k : Nat) : Fld := ⟨Reg.TR_STAT k, 0, 2⟩

/-- TR_PTR, 05, R116. -/
def Reg.TR_PTR (k : Nat) : Nat := 524568 + 16384 * k
def Reg.TR_PTR.TRIG_PTR (k : Nat) : Fld := ⟨Reg.TR_PTR k, 16, 13⟩
def Reg.TR_PTR.WPTR (k : Nat) : Fld := ⟨Reg.TR_PTR k, 0, 13⟩

/-- TR_CH, 05, R116. -/
def Reg.TR_CH (k : Nat) (m : Nat) : Nat := 524576 + 16384 * k + 4 * m
def Reg.TR_CH.SLOT (k : Nat) (m : Nat) : Fld := ⟨Reg.TR_CH k m, 8, 5⟩
def Reg.TR_CH.NODE (k : Nat) (m : Nat) : Fld := ⟨Reg.TR_CH k m, 0, 6⟩

/-- LAW_AXIS, 05, R116. -/
def Reg.LAW_AXIS (k : Nat) (m : Nat) : Nat := 525312 + 16384 * k + 64 * m
def Reg.LAW_AXIS.VALID (k : Nat) (m : Nat) : Fld := ⟨Reg.LAW_AXIS k m, 31, 1⟩
def Reg.LAW_AXIS.LAW (k : Nat) (m : Nat) : Fld := ⟨Reg.LAW_AXIS k m, 16, 8⟩
def Reg.LAW_AXIS.COUPLED (k : Nat) (m : Nat) : Fld := ⟨Reg.LAW_AXIS k m, 9, 1⟩
def Reg.LAW_AXIS.AXIS (k : Nat) (m : Nat) : Fld := ⟨Reg.LAW_AXIS k m, 0, 8⟩

/-- BAND_OUTER, 05, R116. -/
def Reg.BAND_OUTER (k : Nat) (m : Nat) : Nat := 525316 + 16384 * k + 64 * m
def Reg.BAND_OUTER.BAND (k : Nat) (m : Nat) : Fld := ⟨Reg.BAND_OUTER k m, 0, 32⟩

/-- BAND_INNER, 05, R116. -/
def Reg.BAND_INNER (k : Nat) (m : Nat) : Nat := 525320 + 16384 * k + 64 * m
def Reg.BAND_INNER.BAND (k : Nat) (m : Nat) : Fld := ⟨Reg.BAND_INNER k m, 0, 32⟩

/-- BAND_CFG, 05, R116. -/
def Reg.BAND_CFG (k : Nat) (m : Nat) : Nat := 525324 + 16384 * k + 64 * m
def Reg.BAND_CFG.DWELL (k : Nat) (m : Nat) : Fld := ⟨Reg.BAND_CFG k m, 16, 16⟩
def Reg.BAND_CFG.N_OUT (k : Nat) (m : Nat) : Fld := ⟨Reg.BAND_CFG k m, 8, 8⟩
def Reg.BAND_CFG.MODE (k : Nat) (m : Nat) : Fld := ⟨Reg.BAND_CFG k m, 0, 1⟩

/-- LAW_STAT, 05, R116. -/
def Reg.LAW_STAT (k : Nat) (m : Nat) : Nat := 525328 + 16384 * k + 64 * m
def Reg.LAW_STAT.LIVE_WRITES (k : Nat) (m : Nat) : Fld := ⟨Reg.LAW_STAT k m, 24, 8⟩
def Reg.LAW_STAT.BAND_REFUSED (k : Nat) (m : Nat) : Fld := ⟨Reg.LAW_STAT k m, 17, 1⟩
def Reg.LAW_STAT.LIVE_WRITE (k : Nat) (m : Nat) : Fld := ⟨Reg.LAW_STAT k m, 16, 1⟩
def Reg.LAW_STAT.CONSEC (k : Nat) (m : Nat) : Fld := ⟨Reg.LAW_STAT k m, 8, 4⟩
def Reg.LAW_STAT.BAND (k : Nat) (m : Nat) : Fld := ⟨Reg.LAW_STAT k m, 4, 3⟩
def Reg.LAW_STAT.SWITCH_PENDING (k : Nat) (m : Nat) : Fld := ⟨Reg.LAW_STAT k m, 1, 1⟩
def Reg.LAW_STAT.BANK (k : Nat) (m : Nat) : Fld := ⟨Reg.LAW_STAT k m, 0, 1⟩

/-- BAND_COUNT, 05, R116. -/
def Reg.BAND_COUNT (k : Nat) (m : Nat) : Nat := 525332 + 16384 * k + 64 * m
def Reg.BAND_COUNT.DWELL_CNT (k : Nat) (m : Nat) : Fld := ⟨Reg.BAND_COUNT k m, 16, 16⟩
def Reg.BAND_COUNT.OUT_CNT (k : Nat) (m : Nat) : Fld := ⟨Reg.BAND_COUNT k m, 0, 8⟩

/-- FERR, 05, R116. -/
def Reg.FERR (k : Nat) (m : Nat) : Nat := 525336 + 16384 * k + 64 * m
def Reg.FERR.VALUE (k : Nat) (m : Nat) : Fld := ⟨Reg.FERR k m, 0, 32⟩

/-- LAW_OVR, 05, R116. -/
def Reg.LAW_OVR (k : Nat) (m : Nat) : Nat := 525340 + 16384 * k + 64 * m
def Reg.LAW_OVR.COUNT (k : Nat) (m : Nat) : Fld := ⟨Reg.LAW_OVR k m, 0, 32⟩

/-- BAND_SWITCHES, 05, R116. -/
def Reg.BAND_SWITCHES (k : Nat) (m : Nat) : Nat := 525344 + 16384 * k + 64 * m
def Reg.BAND_SWITCHES.COUNT (k : Nat) (m : Nat) : Fld := ⟨Reg.BAND_SWITCHES k m, 0, 32⟩

/-- LE_PC, 06, R142. -/
def Reg.LE_PC (k : Nat) : Nat := 528384 + 16384 * k
def Reg.LE_PC.RUNNING (k : Nat) : Fld := ⟨Reg.LE_PC k, 17, 1⟩
def Reg.LE_PC.SET (k : Nat) : Fld := ⟨Reg.LE_PC k, 16, 1⟩
def Reg.LE_PC.PC (k : Nat) : Fld := ⟨Reg.LE_PC k, 0, 14⟩

/-- LE_FAULT, 06, R142. -/
def Reg.LE_FAULT (k : Nat) : Nat := 528388 + 16384 * k
def Reg.LE_FAULT.COUNT (k : Nat) : Fld := ⟨Reg.LE_FAULT k, 24, 8⟩
def Reg.LE_FAULT.CAUSE (k : Nat) : Fld := ⟨Reg.LE_FAULT k, 20, 4⟩
def Reg.LE_FAULT.PC (k : Nat) : Fld := ⟨Reg.LE_FAULT k, 0, 14⟩

/-- LE_PSTAT, 06, R142. -/
def Reg.LE_PSTAT (k : Nat) : Nat := 528392 + 16384 * k
def Reg.LE_PSTAT.EXT_SKIPS (k : Nat) : Fld := ⟨Reg.LE_PSTAT k, 16, 16⟩
def Reg.LE_PSTAT.EXT_SKIP (k : Nat) : Fld := ⟨Reg.LE_PSTAT k, 2, 1⟩
def Reg.LE_PSTAT.BAD_CMT (k : Nat) : Fld := ⟨Reg.LE_PSTAT k, 1, 1⟩
def Reg.LE_PSTAT.FAULTED (k : Nat) : Fld := ⟨Reg.LE_PSTAT k, 0, 1⟩

/-- LE_PCTRL, 06, R142. -/
def Reg.LE_PCTRL (k : Nat) : Nat := 528396 + 16384 * k
def Reg.LE_PCTRL.CLR_COUNT (k : Nat) : Fld := ⟨Reg.LE_PCTRL k, 0, 1⟩

/-- LE_BUDGET, 06, R142. -/
def Reg.LE_BUDGET (k : Nat) : Nat := 528400 + 16384 * k
def Reg.LE_BUDGET.DECLARED (k : Nat) : Fld := ⟨Reg.LE_BUDGET k, 16, 16⟩
def Reg.LE_BUDGET.LIMIT (k : Nat) : Fld := ⟨Reg.LE_BUDGET k, 0, 16⟩

/-- LE_MEM_ADDR, 06, R142. -/
def Reg.LE_MEM_ADDR (k : Nat) : Nat := 528416 + 16384 * k
def Reg.LE_MEM_ADDR.ADDR (k : Nat) : Fld := ⟨Reg.LE_MEM_ADDR k, 0, 18⟩

/-- LE_MEM_DATA, 06, R142. -/
def Reg.LE_MEM_DATA (k : Nat) : Nat := 528420 + 16384 * k
def Reg.LE_MEM_DATA.DATA (k : Nat) : Fld := ⟨Reg.LE_MEM_DATA k, 0, 32⟩

/-- TASK_ENTRY, 06, R142. -/
def Reg.TASK_ENTRY (k : Nat) (m : Nat) : Nat := 528640 + 16384 * k + 8 * m
def Reg.TASK_ENTRY.VALID (k : Nat) (m : Nat) : Fld := ⟨Reg.TASK_ENTRY k m, 31, 1⟩
def Reg.TASK_ENTRY.EXT (k : Nat) (m : Nat) : Fld := ⟨Reg.TASK_ENTRY k m, 30, 1⟩
def Reg.TASK_ENTRY.SATA (k : Nat) (m : Nat) : Fld := ⟨Reg.TASK_ENTRY k m, 27, 1⟩
def Reg.TASK_ENTRY.RM (k : Nat) (m : Nat) : Fld := ⟨Reg.TASK_ENTRY k m, 26, 1⟩
def Reg.TASK_ENTRY.ADDR (k : Nat) (m : Nat) : Fld := ⟨Reg.TASK_ENTRY k m, 0, 14⟩

/-- TASK_SLOTS, 06, R142. -/
def Reg.TASK_SLOTS (k : Nat) (m : Nat) : Nat := 528644 + 16384 * k + 8 * m
def Reg.TASK_SLOTS.SLOTS (k : Nat) (m : Nat) : Fld := ⟨Reg.TASK_SLOTS k m, 0, 24⟩

/-- AX_CFG, 07, R163. -/
def Reg.AX_CFG (k : Nat) : Nat := 1048576 + 256 * k
def Reg.AX_CFG.BRAKE (k : Nat) : Fld := ⟨Reg.AX_CFG k, 25, 1⟩
def Reg.AX_CFG.ISLAND (k : Nat) : Fld := ⟨Reg.AX_CFG k, 16, 9⟩
def Reg.AX_CFG.IN_ISLAND (k : Nat) : Fld := ⟨Reg.AX_CFG k, 13, 1⟩
def Reg.AX_CFG.SLOT (k : Nat) : Fld := ⟨Reg.AX_CFG k, 8, 5⟩
def Reg.AX_CFG.RING (k : Nat) : Fld := ⟨Reg.AX_CFG k, 4, 4⟩
def Reg.AX_CFG.KIND (k : Nat) : Fld := ⟨Reg.AX_CFG k, 0, 2⟩

/-- AX_STATE, 07, R163. -/
def Reg.AX_STATE (k : Nat) : Nat := 1048580 + 256 * k
def Reg.AX_STATE.REASON (k : Nat) : Fld := ⟨Reg.AX_STATE k, 20, 4⟩
def Reg.AX_STATE.REFUSED (k : Nat) : Fld := ⟨Reg.AX_STATE k, 16, 1⟩
def Reg.AX_STATE.LATCHED (k : Nat) : Fld := ⟨Reg.AX_STATE k, 8, 1⟩
def Reg.AX_STATE.PHASE (k : Nat) : Fld := ⟨Reg.AX_STATE k, 4, 3⟩
def Reg.AX_STATE.STATE (k : Nat) : Fld := ⟨Reg.AX_STATE k, 0, 3⟩

/-- AX_CTRL, 07, R163. -/
def Reg.AX_CTRL (k : Nat) : Nat := 1048584 + 256 * k
def Reg.AX_CTRL.CLEAR (k : Nat) : Fld := ⟨Reg.AX_CTRL k, 2, 1⟩
def Reg.AX_CTRL.DISABLE (k : Nat) : Fld := ⟨Reg.AX_CTRL k, 1, 1⟩
def Reg.AX_CTRL.ENABLE (k : Nat) : Fld := ⟨Reg.AX_CTRL k, 0, 1⟩

/-- AX_FAULT, 07, R163. -/
def Reg.AX_FAULT (k : Nat) : Nat := 1048588 + 256 * k
def Reg.AX_FAULT.COUNT (k : Nat) : Fld := ⟨Reg.AX_FAULT k, 16, 16⟩
def Reg.AX_FAULT.CAUSE (k : Nat) : Fld := ⟨Reg.AX_FAULT k, 0, 8⟩

/-- DRV_SEQ0, 07, R163. -/
def Reg.DRV_SEQ0 (k : Nat) : Nat := 1048592 + 256 * k
def Reg.DRV_SEQ0.UDC_MIN (k : Nat) : Fld := ⟨Reg.DRV_SEQ0 k, 16, 16⟩
def Reg.DRV_SEQ0.PRECHG_T (k : Nat) : Fld := ⟨Reg.DRV_SEQ0 k, 0, 16⟩

/-- DRV_SEQ1, 07, R163. -/
def Reg.DRV_SEQ1 (k : Nat) : Nat := 1048596 + 256 * k
def Reg.DRV_SEQ1.BRAKE_SET_T (k : Nat) : Fld := ⟨Reg.DRV_SEQ1 k, 16, 8⟩
def Reg.DRV_SEQ1.HOLD_T (k : Nat) : Fld := ⟨Reg.DRV_SEQ1 k, 8, 8⟩
def Reg.DRV_SEQ1.BRAKE_REL_T (k : Nat) : Fld := ⟨Reg.DRV_SEQ1 k, 0, 8⟩

/-- QS_UP, 07, R163. -/
def Reg.QS_UP (k : Nat) : Nat := 1048600 + 256 * k
def Reg.QS_UP.SPEED (k : Nat) : Fld := ⟨Reg.QS_UP k, 0, 32⟩

/-- QS_DOWN, 07, R163. -/
def Reg.QS_DOWN (k : Nat) : Nat := 1048604 + 256 * k
def Reg.QS_DOWN.SPEED (k : Nat) : Fld := ⟨Reg.QS_DOWN k, 0, 32⟩

/-- QS_CFG, 07, R163. -/
def Reg.QS_CFG (k : Nat) : Nat := 1048608 + 256 * k
def Reg.QS_CFG.QUIET_GAIN (k : Nat) : Fld := ⟨Reg.QS_CFG k, 16, 16⟩
def Reg.QS_CFG.MODE (k : Nat) : Fld := ⟨Reg.QS_CFG k, 0, 2⟩

/-- DRV_PWM, 07, R163. -/
def Reg.DRV_PWM (k : Nat) : Nat := 1048612 + 256 * k
def Reg.DRV_PWM.QUIET_KHZ (k : Nat) : Fld := ⟨Reg.DRV_PWM k, 8, 8⟩
def Reg.DRV_PWM.STRONG_KHZ (k : Nat) : Fld := ⟨Reg.DRV_PWM k, 0, 8⟩

/-- DRV_STAT, 07, R163. -/
def Reg.DRV_STAT (k : Nat) : Nat := 1048616 + 256 * k
def Reg.DRV_STAT.MODE_SWITCHES (k : Nat) : Fld := ⟨Reg.DRV_STAT k, 16, 16⟩
def Reg.DRV_STAT.QS_REFUSED (k : Nat) : Fld := ⟨Reg.DRV_STAT k, 6, 1⟩
def Reg.DRV_STAT.HELD (k : Nat) : Fld := ⟨Reg.DRV_STAT k, 5, 1⟩
def Reg.DRV_STAT.PWM_SEL (k : Nat) : Fld := ⟨Reg.DRV_STAT k, 4, 1⟩
def Reg.DRV_STAT.BRAKE_REL (k : Nat) : Fld := ⟨Reg.DRV_STAT k, 3, 1⟩
def Reg.DRV_STAT.PWM_SET (k : Nat) : Fld := ⟨Reg.DRV_STAT k, 2, 1⟩
def Reg.DRV_STAT.OP (k : Nat) : Fld := ⟨Reg.DRV_STAT k, 0, 2⟩

/-- I2T_ICONT, 07, R163. -/
def Reg.I2T_ICONT (k : Nat) : Nat := 1048620 + 256 * k
def Reg.I2T_ICONT.VALUE (k : Nat) : Fld := ⟨Reg.I2T_ICONT k, 0, 32⟩

/-- I2T_IPEAK, 07, R163. -/
def Reg.I2T_IPEAK (k : Nat) : Nat := 1048624 + 256 * k
def Reg.I2T_IPEAK.VALUE (k : Nat) : Fld := ⟨Reg.I2T_IPEAK k, 0, 32⟩

/-- I2T_TPEAK, 07, R163. -/
def Reg.I2T_TPEAK (k : Nat) : Nat := 1048628 + 256 * k
def Reg.I2T_TPEAK.VALUE (k : Nat) : Fld := ⟨Reg.I2T_TPEAK k, 0, 32⟩

/-- I2T_STAT, 07, R163. -/
def Reg.I2T_STAT (k : Nat) : Nat := 1048632 + 256 * k
def Reg.I2T_STAT.LIMITING (k : Nat) : Fld := ⟨Reg.I2T_STAT k, 16, 1⟩
def Reg.I2T_STAT.LOAD (k : Nat) : Fld := ⟨Reg.I2T_STAT k, 0, 16⟩

/-- I_LIM, 07, R163. -/
def Reg.I_LIM (k : Nat) : Nat := 1048636 + 256 * k
def Reg.I_LIM.LIMIT (k : Nat) : Fld := ⟨Reg.I_LIM k, 0, 32⟩

/-- STEP_CFG, 07, R163. -/
def Reg.STEP_CFG (k : Nat) : Nat := 1048640 + 256 * k
def Reg.STEP_CFG.STALL_N (k : Nat) : Fld := ⟨Reg.STEP_CFG k, 4, 4⟩
def Reg.STEP_CFG.STALL_ACT (k : Nat) : Fld := ⟨Reg.STEP_CFG k, 0, 2⟩

/-- STEP_STAT, 07, R163. -/
def Reg.STEP_STAT (k : Nat) : Nat := 1048644 + 256 * k
def Reg.STEP_STAT.STALL (k : Nat) : Fld := ⟨Reg.STEP_STAT k, 17, 1⟩
def Reg.STEP_STAT.LOAD_ANGLE (k : Nat) : Fld := ⟨Reg.STEP_STAT k, 0, 16⟩

/-- FB_CFG, 08, R187. -/
def Reg.FB_CFG (k : Nat) : Nat := 1196032 + 64 * k
def Reg.FB_CFG.DIR_HYST (k : Nat) : Fld := ⟨Reg.FB_CFG k, 24, 8⟩
def Reg.FB_CFG.IDX_FAULT (k : Nat) : Fld := ⟨Reg.FB_CFG k, 15, 1⟩
def Reg.FB_CFG.IDX_CHK (k : Nat) : Fld := ⟨Reg.FB_CFG k, 14, 1⟩
def Reg.FB_CFG.DIR_EVT (k : Nat) : Fld := ⟨Reg.FB_CFG k, 13, 1⟩
def Reg.FB_CFG.ABS (k : Nat) : Fld := ⟨Reg.FB_CFG k, 12, 1⟩
def Reg.FB_CFG.BITS (k : Nat) : Fld := ⟨Reg.FB_CFG k, 0, 6⟩

/-- FB_CPR, 08, R187. -/
def Reg.FB_CPR (k : Nat) : Nat := 1196036 + 64 * k
def Reg.FB_CPR.CPR (k : Nat) : Fld := ⟨Reg.FB_CPR k, 0, 32⟩

/-- FB_IDX_NOM, 08, R187. -/
def Reg.FB_IDX_NOM (k : Nat) : Nat := 1196040 + 64 * k
def Reg.FB_IDX_NOM.LINES (k : Nat) : Fld := ⟨Reg.FB_IDX_NOM k, 8, 24⟩
def Reg.FB_IDX_NOM.TOL (k : Nat) : Fld := ⟨Reg.FB_IDX_NOM k, 0, 8⟩

/-- ENC_IDX_NOM, 08, R187. -/
def Reg.ENC_IDX_NOM (k : Nat) : Nat := 1179652 + 64 * k
def Reg.ENC_IDX_NOM.LINES (k : Nat) : Fld := ⟨Reg.ENC_IDX_NOM k, 8, 24⟩
def Reg.ENC_IDX_NOM.TOL (k : Nat) : Fld := ⟨Reg.ENC_IDX_NOM k, 0, 8⟩

/-- FB_LIMITS, 08, R187. -/
def Reg.FB_LIMITS (k : Nat) : Nat := 1196044 + 64 * k
def Reg.FB_LIMITS.JUMP_MAX (k : Nat) : Fld := ⟨Reg.FB_LIMITS k, 16, 16⟩
def Reg.FB_LIMITS.STANDSTILL_T (k : Nat) : Fld := ⟨Reg.FB_LIMITS k, 0, 16⟩

/-- ENC_LIMITS, 08, R187. -/
def Reg.ENC_LIMITS (k : Nat) : Nat := 1179684 + 64 * k
def Reg.ENC_LIMITS.DIR_HYST (k : Nat) : Fld := ⟨Reg.ENC_LIMITS k, 24, 8⟩
def Reg.ENC_LIMITS.STANDSTILL_T (k : Nat) : Fld := ⟨Reg.ENC_LIMITS k, 0, 16⟩

/-- FB_POS_LO, 08, R187. -/
def Reg.FB_POS_LO (k : Nat) : Nat := 1196048 + 64 * k
def Reg.FB_POS_LO.VALUE (k : Nat) : Fld := ⟨Reg.FB_POS_LO k, 0, 32⟩

/-- FB_POS_HI, 08, R187. -/
def Reg.FB_POS_HI (k : Nat) : Nat := 1196052 + 64 * k
def Reg.FB_POS_HI.VALUE (k : Nat) : Fld := ⟨Reg.FB_POS_HI k, 0, 32⟩

/-- FB_UPOS_LO, 08, R187. -/
def Reg.FB_UPOS_LO (k : Nat) : Nat := 1196056 + 64 * k
def Reg.FB_UPOS_LO.VALUE (k : Nat) : Fld := ⟨Reg.FB_UPOS_LO k, 0, 32⟩

/-- FB_UPOS_HI, 08, R187. -/
def Reg.FB_UPOS_HI (k : Nat) : Nat := 1196060 + 64 * k
def Reg.FB_UPOS_HI.VALUE (k : Nat) : Fld := ⟨Reg.FB_UPOS_HI k, 0, 32⟩

/-- FB_IDX_LO, 08, R187. -/
def Reg.FB_IDX_LO (k : Nat) : Nat := 1196064 + 64 * k
def Reg.FB_IDX_LO.VALUE (k : Nat) : Fld := ⟨Reg.FB_IDX_LO k, 0, 32⟩

/-- FB_IDX_HI, 08, R187. -/
def Reg.FB_IDX_HI (k : Nat) : Nat := 1196068 + 64 * k
def Reg.FB_IDX_HI.VALUE (k : Nat) : Fld := ⟨Reg.FB_IDX_HI k, 0, 32⟩

/-- FB_PRESET_LO, 08, R187. -/
def Reg.FB_PRESET_LO (k : Nat) : Nat := 1196080 + 64 * k
def Reg.FB_PRESET_LO.VALUE (k : Nat) : Fld := ⟨Reg.FB_PRESET_LO k, 0, 32⟩

/-- FB_PRESET_HI, 08, R187. -/
def Reg.FB_PRESET_HI (k : Nat) : Nat := 1196084 + 64 * k
def Reg.FB_PRESET_HI.VALUE (k : Nat) : Fld := ⟨Reg.FB_PRESET_HI k, 0, 32⟩

/-- FB_SPEED, 08, R187. -/
def Reg.FB_SPEED (k : Nat) : Nat := 1196072 + 64 * k
def Reg.FB_SPEED.SPEED (k : Nat) : Fld := ⟨Reg.FB_SPEED k, 0, 32⟩

/-- ENC_SPEED, 08, R187. -/
def Reg.ENC_SPEED (k : Nat) : Nat := 1179672 + 64 * k
def Reg.ENC_SPEED.SPEED (k : Nat) : Fld := ⟨Reg.ENC_SPEED k, 0, 32⟩

/-- FB_STAT, 08, R187. -/
def Reg.FB_STAT (k : Nat) : Nat := 1196076 + 64 * k
def Reg.FB_STAT.ERRS (k : Nat) : Fld := ⟨Reg.FB_STAT k, 16, 16⟩
def Reg.FB_STAT.CAUSE (k : Nat) : Fld := ⟨Reg.FB_STAT k, 5, 3⟩
def Reg.FB_STAT.FAULT (k : Nat) : Fld := ⟨Reg.FB_STAT k, 4, 1⟩
def Reg.FB_STAT.IDX_SEEN (k : Nat) : Fld := ⟨Reg.FB_STAT k, 3, 1⟩
def Reg.FB_STAT.STANDSTILL (k : Nat) : Fld := ⟨Reg.FB_STAT k, 2, 1⟩
def Reg.FB_STAT.PRESET_REFUSED (k : Nat) : Fld := ⟨Reg.FB_STAT k, 1, 1⟩
def Reg.FB_STAT.DIR (k : Nat) : Fld := ⟨Reg.FB_STAT k, 0, 1⟩

/-- ENC_STAT, 08, R187. -/
def Reg.ENC_STAT (k : Nat) : Nat := 1179676 + 64 * k
def Reg.ENC_STAT.ERRS (k : Nat) : Fld := ⟨Reg.ENC_STAT k, 16, 16⟩
def Reg.ENC_STAT.IN_WIN (k : Nat) : Fld := ⟨Reg.ENC_STAT k, 8, 8⟩
def Reg.ENC_STAT.CAUSE (k : Nat) : Fld := ⟨Reg.ENC_STAT k, 5, 3⟩
def Reg.ENC_STAT.FAULT (k : Nat) : Fld := ⟨Reg.ENC_STAT k, 4, 1⟩
def Reg.ENC_STAT.IDX_SEEN (k : Nat) : Fld := ⟨Reg.ENC_STAT k, 3, 1⟩
def Reg.ENC_STAT.STANDSTILL (k : Nat) : Fld := ⟨Reg.ENC_STAT k, 2, 1⟩
def Reg.ENC_STAT.DIR (k : Nat) : Fld := ⟨Reg.ENC_STAT k, 0, 1⟩

/-- FB_CTRL, 08, R187. -/
def Reg.FB_CTRL (k : Nat) : Nat := 1196088 + 64 * k
def Reg.FB_CTRL.CLR_FAULT (k : Nat) : Fld := ⟨Reg.FB_CTRL k, 1, 1⟩
def Reg.FB_CTRL.PRESET (k : Nat) : Fld := ⟨Reg.FB_CTRL k, 0, 1⟩

/-- ENC_CTRL, 08, R187. -/
def Reg.ENC_CTRL (k : Nat) : Nat := 1179680 + 64 * k
def Reg.ENC_CTRL.CLR_FAULT (k : Nat) : Fld := ⟨Reg.ENC_CTRL k, 1, 1⟩

/-- ENC_CFG, 08, R187. -/
def Reg.ENC_CFG (k : Nat) : Nat := 1179648 + 64 * k
def Reg.ENC_CFG.ILL_WIN (k : Nat) : Fld := ⟨Reg.ENC_CFG k, 16, 16⟩
def Reg.ENC_CFG.ILL_MAX (k : Nat) : Fld := ⟨Reg.ENC_CFG k, 8, 8⟩
def Reg.ENC_CFG.FILT (k : Nat) : Fld := ⟨Reg.ENC_CFG k, 4, 4⟩
def Reg.ENC_CFG.DIR_EVT (k : Nat) : Fld := ⟨Reg.ENC_CFG k, 3, 1⟩
def Reg.ENC_CFG.IDX_FAULT (k : Nat) : Fld := ⟨Reg.ENC_CFG k, 2, 1⟩
def Reg.ENC_CFG.IDX_CHK (k : Nat) : Fld := ⟨Reg.ENC_CFG k, 1, 1⟩
def Reg.ENC_CFG.EN (k : Nat) : Fld := ⟨Reg.ENC_CFG k, 0, 1⟩

/-- ENC_CNT_LO, 08, R187. -/
def Reg.ENC_CNT_LO (k : Nat) : Nat := 1179656 + 64 * k
def Reg.ENC_CNT_LO.COUNT (k : Nat) : Fld := ⟨Reg.ENC_CNT_LO k, 0, 32⟩

/-- ENC_CNT_HI, 08, R187. -/
def Reg.ENC_CNT_HI (k : Nat) : Nat := 1179660 + 64 * k
def Reg.ENC_CNT_HI.COUNT (k : Nat) : Fld := ⟨Reg.ENC_CNT_HI k, 0, 32⟩

/-- ENC_IDX_LO, 08, R187. -/
def Reg.ENC_IDX_LO (k : Nat) : Nat := 1179664 + 64 * k
def Reg.ENC_IDX_LO.COUNT (k : Nat) : Fld := ⟨Reg.ENC_IDX_LO k, 0, 32⟩

/-- ENC_IDX_HI, 08, R187. -/
def Reg.ENC_IDX_HI (k : Nat) : Nat := 1179668 + 64 * k
def Reg.ENC_IDX_HI.COUNT (k : Nat) : Fld := ⟨Reg.ENC_IDX_HI k, 0, 32⟩

/-- CMP_CFG, 08, R187. -/
def Reg.CMP_CFG (k : Nat) : Nat := 1183744 + 64 * k
def Reg.CMP_CFG.PW (k : Nat) : Fld := ⟨Reg.CMP_CFG k, 16, 16⟩
def Reg.CMP_CFG.SRC_INDEX (k : Nat) : Fld := ⟨Reg.CMP_CFG k, 4, 8⟩
def Reg.CMP_CFG.SRC (k : Nat) : Fld := ⟨Reg.CMP_CFG k, 2, 2⟩
def Reg.CMP_CFG.DIR (k : Nat) : Fld := ⟨Reg.CMP_CFG k, 1, 1⟩
def Reg.CMP_CFG.POL (k : Nat) : Fld := ⟨Reg.CMP_CFG k, 0, 1⟩

/-- CMP_VAL_LO, 08, R187. -/
def Reg.CMP_VAL_LO (k : Nat) : Nat := 1183748 + 64 * k
def Reg.CMP_VAL_LO.VALUE (k : Nat) : Fld := ⟨Reg.CMP_VAL_LO k, 0, 32⟩

/-- CMP_VAL_HI, 08, R187. -/
def Reg.CMP_VAL_HI (k : Nat) : Nat := 1183752 + 64 * k
def Reg.CMP_VAL_HI.VALUE (k : Nat) : Fld := ⟨Reg.CMP_VAL_HI k, 0, 32⟩

/-- CMP_SPC_LO, 08, R187. -/
def Reg.CMP_SPC_LO (k : Nat) : Nat := 1183756 + 64 * k
def Reg.CMP_SPC_LO.VALUE (k : Nat) : Fld := ⟨Reg.CMP_SPC_LO k, 0, 32⟩

/-- CMP_SPC_HI, 08, R187. -/
def Reg.CMP_SPC_HI (k : Nat) : Nat := 1183760 + 64 * k
def Reg.CMP_SPC_HI.VALUE (k : Nat) : Fld := ⟨Reg.CMP_SPC_HI k, 0, 32⟩

/-- CMP_LIMIT, 08, R187. -/
def Reg.CMP_LIMIT (k : Nat) : Nat := 1183764 + 64 * k
def Reg.CMP_LIMIT.VALUE (k : Nat) : Fld := ⟨Reg.CMP_LIMIT k, 0, 16⟩

/-- CMP_STAT, 08, R187. -/
def Reg.CMP_STAT (k : Nat) : Nat := 1183768 + 64 * k
def Reg.CMP_STAT.SRC_LOST (k : Nat) : Fld := ⟨Reg.CMP_STAT k, 2, 1⟩
def Reg.CMP_STAT.ARMED (k : Nat) : Fld := ⟨Reg.CMP_STAT k, 1, 1⟩
def Reg.CMP_STAT.OPEN (k : Nat) : Fld := ⟨Reg.CMP_STAT k, 0, 1⟩

/-- CMP_PULSES, 08, R187. -/
def Reg.CMP_PULSES (k : Nat) : Nat := 1183772 + 64 * k
def Reg.CMP_PULSES.PULSES (k : Nat) : Fld := ⟨Reg.CMP_PULSES k, 0, 32⟩

/-- CMP_SKIP, 08, R187. -/
def Reg.CMP_SKIP (k : Nat) : Nat := 1183776 + 64 * k
def Reg.CMP_SKIP.DROPS (k : Nat) : Fld := ⟨Reg.CMP_SKIP k, 16, 16⟩
def Reg.CMP_SKIP.SKIPS (k : Nat) : Fld := ⟨Reg.CMP_SKIP k, 0, 16⟩

/-- CMP_CTRL, 08, R187. -/
def Reg.CMP_CTRL (k : Nat) : Nat := 1183780 + 64 * k
def Reg.CMP_CTRL.PULSE (k : Nat) : Fld := ⟨Reg.CMP_CTRL k, 2, 1⟩
def Reg.CMP_CTRL.CLOSE (k : Nat) : Fld := ⟨Reg.CMP_CTRL k, 1, 1⟩
def Reg.CMP_CTRL.OPEN (k : Nat) : Fld := ⟨Reg.CMP_CTRL k, 0, 1⟩

/-- EMU_CFG, 08, R187. -/
def Reg.EMU_CFG (k : Nat) : Nat := 1187840 + 64 * k
def Reg.EMU_CFG.LAG_MAX (k : Nat) : Fld := ⟨Reg.EMU_CFG k, 16, 16⟩
def Reg.EMU_CFG.SRC_INDEX (k : Nat) : Fld := ⟨Reg.EMU_CFG k, 8, 8⟩
def Reg.EMU_CFG.INVERT (k : Nat) : Fld := ⟨Reg.EMU_CFG k, 3, 1⟩
def Reg.EMU_CFG.SRC (k : Nat) : Fld := ⟨Reg.EMU_CFG k, 0, 2⟩

/-- EMU_N, 08, R187. -/
def Reg.EMU_N (k : Nat) : Nat := 1187844 + 64 * k
def Reg.EMU_N.VALUE (k : Nat) : Fld := ⟨Reg.EMU_N k, 0, 32⟩

/-- EMU_M, 08, R187. -/
def Reg.EMU_M (k : Nat) : Nat := 1187848 + 64 * k
def Reg.EMU_M.VALUE (k : Nat) : Fld := ⟨Reg.EMU_M k, 0, 32⟩

/-- EMU_ZPER, 08, R187. -/
def Reg.EMU_ZPER (k : Nat) : Nat := 1187852 + 64 * k
def Reg.EMU_ZPER.VALUE (k : Nat) : Fld := ⟨Reg.EMU_ZPER k, 0, 32⟩

/-- EMU_OUT, 08, R187. -/
def Reg.EMU_OUT (k : Nat) : Nat := 1187856 + 64 * k
def Reg.EMU_OUT.VALUE (k : Nat) : Fld := ⟨Reg.EMU_OUT k, 0, 32⟩

/-- EMU_STAT, 08, R187. -/
def Reg.EMU_STAT (k : Nat) : Nat := 1187860 + 64 * k
def Reg.EMU_STAT.BACKLOG (k : Nat) : Fld := ⟨Reg.EMU_STAT k, 16, 16⟩
def Reg.EMU_STAT.CFG_REFUSED (k : Nat) : Fld := ⟨Reg.EMU_STAT k, 3, 1⟩
def Reg.EMU_STAT.LAGGING (k : Nat) : Fld := ⟨Reg.EMU_STAT k, 2, 1⟩
def Reg.EMU_STAT.SRC_LOST (k : Nat) : Fld := ⟨Reg.EMU_STAT k, 1, 1⟩
def Reg.EMU_STAT.RUNNING (k : Nat) : Fld := ⟨Reg.EMU_STAT k, 0, 1⟩

/-- EMU_CTRL, 08, R187. -/
def Reg.EMU_CTRL (k : Nat) : Nat := 1187864 + 64 * k
def Reg.EMU_CTRL.ALIGN (k : Nat) : Fld := ⟨Reg.EMU_CTRL k, 0, 1⟩

/-- RING_CFG, 09, R213. -/
def Reg.RING_CFG (k : Nat) : Nat := 1310720 + 4096 * k
def Reg.RING_CFG.NODES (k : Nat) : Fld := ⟨Reg.RING_CFG k, 8, 5⟩
def Reg.RING_CFG.EN (k : Nat) : Fld := ⟨Reg.RING_CFG k, 2, 1⟩
def Reg.RING_CFG.TOPOLOGY (k : Nat) : Fld := ⟨Reg.RING_CFG k, 0, 2⟩

/-- RING_STAT, 09, R213. -/
def Reg.RING_STAT (k : Nat) : Nat := 1310724 + 4096 * k
def Reg.RING_STAT.TBL_GEN (k : Nat) : Fld := ⟨Reg.RING_STAT k, 24, 8⟩
def Reg.RING_STAT.VALID_RUN (k : Nat) : Fld := ⟨Reg.RING_STAT k, 16, 8⟩
def Reg.RING_STAT.VALID (k : Nat) : Fld := ⟨Reg.RING_STAT k, 10, 1⟩
def Reg.RING_STAT.RECLOSE_REFUSED (k : Nat) : Fld := ⟨Reg.RING_STAT k, 9, 1⟩
def Reg.RING_STAT.OVER_BUDGET (k : Nat) : Fld := ⟨Reg.RING_STAT k, 8, 1⟩
def Reg.RING_STAT.RX_B (k : Nat) : Fld := ⟨Reg.RING_STAT k, 7, 1⟩
def Reg.RING_STAT.RX_A (k : Nat) : Fld := ⟨Reg.RING_STAT k, 6, 1⟩
def Reg.RING_STAT.LINK_B (k : Nat) : Fld := ⟨Reg.RING_STAT k, 5, 1⟩
def Reg.RING_STAT.LINK_A (k : Nat) : Fld := ⟨Reg.RING_STAT k, 4, 1⟩
def Reg.RING_STAT.MODE (k : Nat) : Fld := ⟨Reg.RING_STAT k, 0, 3⟩

/-- RING_CTRL, 09, R213. -/
def Reg.RING_CTRL (k : Nat) : Nat := 1310728 + 4096 * k
def Reg.RING_CTRL.NODE (k : Nat) : Fld := ⟨Reg.RING_CTRL k, 8, 5⟩
def Reg.RING_CTRL.CLR (k : Nat) : Fld := ⟨Reg.RING_CTRL k, 4, 1⟩
def Reg.RING_CTRL.MUTE (k : Nat) : Fld := ⟨Reg.RING_CTRL k, 3, 1⟩
def Reg.RING_CTRL.UNMUTE (k : Nat) : Fld := ⟨Reg.RING_CTRL k, 2, 1⟩
def Reg.RING_CTRL.RECLOSE (k : Nat) : Fld := ⟨Reg.RING_CTRL k, 1, 1⟩
def Reg.RING_CTRL.SWAP (k : Nat) : Fld := ⟨Reg.RING_CTRL k, 0, 1⟩

/-- RING_MUTE, 09, R213. -/
def Reg.RING_MUTE (k : Nat) : Nat := 1310732 + 4096 * k
def Reg.RING_MUTE.MUTE (k : Nat) : Fld := ⟨Reg.RING_MUTE k, 0, 25⟩

/-- RING_LOOP_A, 09, R213. -/
def Reg.RING_LOOP_A (k : Nat) : Nat := 1310736 + 4096 * k
def Reg.RING_LOOP_A.MAX (k : Nat) : Fld := ⟨Reg.RING_LOOP_A k, 16, 16⟩
def Reg.RING_LOOP_A.LOOP (k : Nat) : Fld := ⟨Reg.RING_LOOP_A k, 0, 16⟩

/-- RING_LOOP_B, 09, R213. -/
def Reg.RING_LOOP_B (k : Nat) : Nat := 1310740 + 4096 * k
def Reg.RING_LOOP_B.MAX (k : Nat) : Fld := ⟨Reg.RING_LOOP_B k, 16, 16⟩
def Reg.RING_LOOP_B.LOOP (k : Nat) : Fld := ⟨Reg.RING_LOOP_B k, 0, 16⟩

/-- SCHED_STAT (rings), 09, R213. -/
def Reg.RSCHED_STAT (k : Nat) : Nat := 1310752 + 4096 * k
def Reg.RSCHED_STAT.REASON (k : Nat) : Fld := ⟨Reg.RSCHED_STAT k, 16, 4⟩
def Reg.RSCHED_STAT.SLOT (k : Nat) : Fld := ⟨Reg.RSCHED_STAT k, 8, 5⟩
def Reg.RSCHED_STAT.WRITE_IGNORED (k : Nat) : Fld := ⟨Reg.RSCHED_STAT k, 2, 1⟩
def Reg.RSCHED_STAT.SWAP_REFUSED (k : Nat) : Fld := ⟨Reg.RSCHED_STAT k, 1, 1⟩
def Reg.RSCHED_STAT.SWAP_PENDING (k : Nat) : Fld := ⟨Reg.RSCHED_STAT k, 0, 1⟩

/-- SCHED_ACT, 09, R213. -/
def Reg.SCHED_ACT (k : Nat) (m : Nat) : Nat := 1310976 + 4096 * k + 4 * m
def Reg.SCHED_ACT.TYPE (k : Nat) (m : Nat) : Fld := ⟨Reg.SCHED_ACT k m, 16, 16⟩
def Reg.SCHED_ACT.AXIS (k : Nat) (m : Nat) : Fld := ⟨Reg.SCHED_ACT k m, 8, 8⟩
def Reg.SCHED_ACT.NODE (k : Nat) (m : Nat) : Fld := ⟨Reg.SCHED_ACT k m, 3, 5⟩
def Reg.SCHED_ACT.KIND (k : Nat) (m : Nat) : Fld := ⟨Reg.SCHED_ACT k m, 0, 3⟩

/-- SCHED_SHD, 09, R213. -/
def Reg.SCHED_SHD (k : Nat) (m : Nat) : Nat := 1311104 + 4096 * k + 4 * m
def Reg.SCHED_SHD.TYPE (k : Nat) (m : Nat) : Fld := ⟨Reg.SCHED_SHD k m, 16, 16⟩
def Reg.SCHED_SHD.AXIS (k : Nat) (m : Nat) : Fld := ⟨Reg.SCHED_SHD k m, 8, 8⟩
def Reg.SCHED_SHD.NODE (k : Nat) (m : Nat) : Fld := ⟨Reg.SCHED_SHD k m, 3, 5⟩
def Reg.SCHED_SHD.KIND (k : Nat) (m : Nat) : Fld := ⟨Reg.SCHED_SHD k m, 0, 3⟩

/-- NODE_INFO, 09, R213. -/
def Reg.NODE_INFO (k : Nat) (m : Nat) : Nat := 1311744 + 4096 * k + 32 * m
def Reg.NODE_INFO.ADDRESSED (k : Nat) (m : Nat) : Fld := ⟨Reg.NODE_INFO k m, 31, 1⟩
def Reg.NODE_INFO.MUTED (k : Nat) (m : Nat) : Fld := ⟨Reg.NODE_INFO k m, 30, 1⟩
def Reg.NODE_INFO.MUTE_REASON (k : Nat) (m : Nat) : Fld := ⟨Reg.NODE_INFO k m, 28, 2⟩
def Reg.NODE_INFO.LOOPED (k : Nat) (m : Nat) : Fld := ⟨Reg.NODE_INFO k m, 27, 1⟩
def Reg.NODE_INFO.ORIGIN (k : Nat) (m : Nat) : Fld := ⟨Reg.NODE_INFO k m, 26, 1⟩
def Reg.NODE_INFO.HOP (k : Nat) (m : Nat) : Fld := ⟨Reg.NODE_INFO k m, 16, 8⟩
def Reg.NODE_INFO.TYPE (k : Nat) (m : Nat) : Fld := ⟨Reg.NODE_INFO k m, 0, 16⟩

/-- NODE_SERIAL_LO, 09, R213. -/
def Reg.NODE_SERIAL_LO (k : Nat) (m : Nat) : Nat := 1311748 + 4096 * k + 32 * m
def Reg.NODE_SERIAL_LO.SERIAL (k : Nat) (m : Nat) : Fld := ⟨Reg.NODE_SERIAL_LO k m, 0, 32⟩

/-- NODE_SERIAL_HI, 09, R213. -/
def Reg.NODE_SERIAL_HI (k : Nat) (m : Nat) : Nat := 1311752 + 4096 * k + 32 * m
def Reg.NODE_SERIAL_HI.SERIAL (k : Nat) (m : Nat) : Fld := ⟨Reg.NODE_SERIAL_HI k m, 0, 32⟩

/-- NODE_DELAY, 09, R213. -/
def Reg.NODE_DELAY (k : Nat) (m : Nat) : Nat := 1311756 + 4096 * k + 32 * m
def Reg.NODE_DELAY.ESTIMATED (k : Nat) (m : Nat) : Fld := ⟨Reg.NODE_DELAY k m, 31, 1⟩
def Reg.NODE_DELAY.DELAY (k : Nat) (m : Nat) : Fld := ⟨Reg.NODE_DELAY k m, 0, 16⟩

/-- NODE_CNT, 09, R213. -/
def Reg.NODE_CNT (k : Nat) (m : Nat) : Nat := 1311760 + 4096 * k + 32 * m
def Reg.NODE_CNT.POLL_BAD (k : Nat) (m : Nat) : Fld := ⟨Reg.NODE_CNT k m, 24, 8⟩
def Reg.NODE_CNT.CRC (k : Nat) (m : Nat) : Fld := ⟨Reg.NODE_CNT k m, 16, 8⟩
def Reg.NODE_CNT.MISS (k : Nat) (m : Nat) : Fld := ⟨Reg.NODE_CNT k m, 8, 8⟩
def Reg.NODE_CNT.EDGE (k : Nat) (m : Nat) : Fld := ⟨Reg.NODE_CNT k m, 0, 8⟩

/-- NODE_SLOTS, 09, R213. -/
def Reg.NODE_SLOTS (k : Nat) (m : Nat) : Nat := 1311764 + 4096 * k + 32 * m
def Reg.NODE_SLOTS.SLOTS (k : Nat) (m : Nat) : Fld := ⟨Reg.NODE_SLOTS k m, 0, 32⟩

/-- SVC_ADDR, 09, R213. -/
def Reg.SVC_ADDR (k : Nat) : Nat := 1312768 + 4096 * k
def Reg.SVC_ADDR.ADDR (k : Nat) : Fld := ⟨Reg.SVC_ADDR k, 0, 32⟩

/-- SVC_CMD, 09, R213. -/
def Reg.SVC_CMD (k : Nat) : Nat := 1312772 + 4096 * k
def Reg.SVC_CMD.TAG (k : Nat) : Fld := ⟨Reg.SVC_CMD k, 16, 16⟩
def Reg.SVC_CMD.NODE (k : Nat) : Fld := ⟨Reg.SVC_CMD k, 8, 5⟩
def Reg.SVC_CMD.LEN (k : Nat) : Fld := ⟨Reg.SVC_CMD k, 2, 6⟩
def Reg.SVC_CMD.OP (k : Nat) : Fld := ⟨Reg.SVC_CMD k, 0, 2⟩

/-- SVC_DATA, 09, R213. -/
def Reg.SVC_DATA (k : Nat) (m : Nat) : Nat := 1312784 + 4096 * k + 4 * m
def Reg.SVC_DATA.DATA (k : Nat) (m : Nat) : Fld := ⟨Reg.SVC_DATA k m, 0, 32⟩

/-- SVC_RESULT, 09, R213. -/
def Reg.SVC_RESULT (k : Nat) : Nat := 1312816 + 4096 * k
def Reg.SVC_RESULT.TAG (k : Nat) : Fld := ⟨Reg.SVC_RESULT k, 16, 16⟩
def Reg.SVC_RESULT.NODE_STATUS (k : Nat) : Fld := ⟨Reg.SVC_RESULT k, 8, 8⟩
def Reg.SVC_RESULT.STATUS (k : Nat) : Fld := ⟨Reg.SVC_RESULT k, 0, 3⟩

/-- MIR_STAT, 10, R227. -/
def Reg.MIR_STAT : Nat := 1441792
def Reg.MIR_STAT.USED : Fld := ⟨Reg.MIR_STAT, 0, 13⟩

/-- MIR_SEL, 10, R227. -/
def Reg.MIR_SEL : Nat := 1441796
def Reg.MIR_SEL.INDEX : Fld := ⟨Reg.MIR_SEL, 0, 12⟩

/-- MIR_DATA, 10, R227. -/
def Reg.MIR_DATA (k : Nat) : Nat := 1442048 + 4 * k
def Reg.MIR_DATA.DATA (k : Nat) : Fld := ⟨Reg.MIR_DATA k, 0, 32⟩

/-- LIFE_CFG, 10, R227. -/
def Reg.LIFE_CFG (k : Nat) : Nat := 1445888 + 16 * k
def Reg.LIFE_CFG.CONT_USE (k : Nat) : Fld := ⟨Reg.LIFE_CFG k, 31, 1⟩
def Reg.LIFE_CFG.WARN (k : Nat) : Fld := ⟨Reg.LIFE_CFG k, 16, 8⟩
def Reg.LIFE_CFG.STOP (k : Nat) : Fld := ⟨Reg.LIFE_CFG k, 8, 8⟩
def Reg.LIFE_CFG.DERATE (k : Nat) : Fld := ⟨Reg.LIFE_CFG k, 0, 8⟩

/-- LIFE_FRAC, 10, R227. -/
def Reg.LIFE_FRAC (k : Nat) : Nat := 1445892 + 16 * k
def Reg.LIFE_FRAC.FRAC (k : Nat) : Fld := ⟨Reg.LIFE_FRAC k, 0, 32⟩

/-- LIFE_STAT, 10, R227. -/
def Reg.LIFE_STAT (k : Nat) : Nat := 1445896 + 16 * k
def Reg.LIFE_STAT.WRITES (k : Nat) : Fld := ⟨Reg.LIFE_STAT k, 8, 24⟩
def Reg.LIFE_STAT.DUE (k : Nat) : Fld := ⟨Reg.LIFE_STAT k, 7, 1⟩
def Reg.LIFE_STAT.CREDIT (k : Nat) : Fld := ⟨Reg.LIFE_STAT k, 4, 3⟩
def Reg.LIFE_STAT.ACCEPTED (k : Nat) : Fld := ⟨Reg.LIFE_STAT k, 3, 1⟩
def Reg.LIFE_STAT.STATE (k : Nat) : Fld := ⟨Reg.LIFE_STAT k, 0, 3⟩

/-- LIFE_SERIAL, 10, R227. -/
def Reg.LIFE_SERIAL (k : Nat) : Nat := 1445900 + 16 * k
def Reg.LIFE_SERIAL.SERIAL (k : Nat) : Fld := ⟨Reg.LIFE_SERIAL k, 0, 32⟩

/-- SEP_CFG, 11, R245. -/
def Reg.SEP_CFG : Nat := 1572864
def Reg.SEP_CFG.RISE_HOLD : Fld := ⟨Reg.SEP_CFG, 16, 8⟩
def Reg.SEP_CFG.HASH_CELL : Fld := ⟨Reg.SEP_CFG, 0, 16⟩

/-- SEP_STAT, 11, R245. -/
def Reg.SEP_STAT : Nat := 1572868
def Reg.SEP_STAT.SPARES_FREE : Fld := ⟨Reg.SEP_STAT, 20, 4⟩
def Reg.SEP_STAT.DEGRADED : Fld := ⟨Reg.SEP_STAT, 16, 1⟩
def Reg.SEP_STAT.INCOMPLETE : Fld := ⟨Reg.SEP_STAT, 15, 1⟩
def Reg.SEP_STAT.PIPES : Fld := ⟨Reg.SEP_STAT, 0, 7⟩

/-- SEP_PAIRS, 11, R245. -/
def Reg.SEP_PAIRS : Nat := 1572872
def Reg.SEP_PAIRS.COUNT : Fld := ⟨Reg.SEP_PAIRS, 0, 32⟩

/-- SEP_UNCULLED, 11, R245. -/
def Reg.SEP_UNCULLED : Nat := 1572876
def Reg.SEP_UNCULLED.COUNT : Fld := ⟨Reg.SEP_UNCULLED, 0, 32⟩

/-- SEP_TIME, 11, R245. -/
def Reg.SEP_TIME : Nat := 1572880
def Reg.SEP_TIME.PEAK : Fld := ⟨Reg.SEP_TIME, 16, 16⟩
def Reg.SEP_TIME.LAST : Fld := ⟨Reg.SEP_TIME, 0, 16⟩

/-- SEP_CTRL, 11, R245. -/
def Reg.SEP_CTRL : Nat := 1572884
def Reg.SEP_CTRL.CLR_PEAK : Fld := ⟨Reg.SEP_CTRL, 0, 1⟩

/-- PIPE_OUT, 11, R245. -/
def Reg.PIPE_OUT (k : Nat) : Nat := 1572896 + 4 * k
def Reg.PIPE_OUT.OUT (k : Nat) : Fld := ⟨Reg.PIPE_OUT k, 0, 32⟩

/-- CAP_SEL, 11, R245. -/
def Reg.CAP_SEL : Nat := 1572928
def Reg.CAP_SEL.INDEX : Fld := ⟨Reg.CAP_SEL, 0, 10⟩

/-- CAP_DATA0, 11, R245. -/
def Reg.CAP_DATA0 : Nat := 1572960
def Reg.CAP_DATA0.VALID : Fld := ⟨Reg.CAP_DATA0, 31, 1⟩
def Reg.CAP_DATA0.ISLAND : Fld := ⟨Reg.CAP_DATA0, 16, 9⟩
def Reg.CAP_DATA0.LINK : Fld := ⟨Reg.CAP_DATA0, 0, 8⟩

/-- CAP_DATA, 11, R245. -/
def Reg.CAP_DATA (k : Nat) : Nat := 1572964 + 4 * k
def Reg.CAP_DATA.VALUE (k : Nat) : Fld := ⟨Reg.CAP_DATA k, 0, 32⟩

/-- SEPI_FACTOR, 11, R245. -/
def Reg.SEPI_FACTOR (k : Nat) : Nat := 1576960 + 64 * k
def Reg.SEPI_FACTOR.COMPUTED (k : Nat) : Fld := ⟨Reg.SEPI_FACTOR k, 16, 16⟩
def Reg.SEPI_FACTOR.PUBLISHED (k : Nat) : Fld := ⟨Reg.SEPI_FACTOR k, 0, 16⟩

/-- SEPI_CAUSE, 11, R245. -/
def Reg.SEPI_CAUSE (k : Nat) : Nat := 1576964 + 64 * k
def Reg.SEPI_CAUSE.CAUSE (k : Nat) : Fld := ⟨Reg.SEPI_CAUSE k, 16, 3⟩
def Reg.SEPI_CAUSE.PARTNER (k : Nat) : Fld := ⟨Reg.SEPI_CAUSE k, 0, 9⟩

/-- SEPI_DMIN_P, 11, R245. -/
def Reg.SEPI_DMIN_P (k : Nat) : Nat := 1576968 + 64 * k
def Reg.SEPI_DMIN_P.VALUE (k : Nat) : Fld := ⟨Reg.SEPI_DMIN_P k, 0, 32⟩

/-- SEPI_DMIN_S, 11, R245. -/
def Reg.SEPI_DMIN_S (k : Nat) : Nat := 1576972 + 64 * k
def Reg.SEPI_DMIN_S.VALUE (k : Nat) : Fld := ⟨Reg.SEPI_DMIN_S k, 0, 32⟩

/-- SEPI_DMIN_I, 11, R245. -/
def Reg.SEPI_DMIN_I (k : Nat) : Nat := 1576976 + 64 * k
def Reg.SEPI_DMIN_I.VALUE (k : Nat) : Fld := ⟨Reg.SEPI_DMIN_I k, 0, 32⟩

/-- SEPI_VCAP, 11, R245. -/
def Reg.SEPI_VCAP (k : Nat) : Nat := 1576980 + 64 * k
def Reg.SEPI_VCAP.VALUE (k : Nat) : Fld := ⟨Reg.SEPI_VCAP k, 0, 32⟩

/-- SEPI_TSTOP, 11, R245. -/
def Reg.SEPI_TSTOP (k : Nat) : Nat := 1576984 + 64 * k
def Reg.SEPI_TSTOP.VALUE (k : Nat) : Fld := ⟨Reg.SEPI_TSTOP k, 0, 32⟩

/-- SEPI_RISE, 11, R245. -/
def Reg.SEPI_RISE (k : Nat) : Nat := 1576988 + 64 * k
def Reg.SEPI_RISE.COUNT (k : Nat) : Fld := ⟨Reg.SEPI_RISE k, 0, 8⟩

/-- SEPI_TR, 11, R245. -/
def Reg.SEPI_TR (k : Nat) : Nat := 1576992 + 64 * k
def Reg.SEPI_TR.VALUE (k : Nat) : Fld := ⟨Reg.SEPI_TR k, 0, 32⟩

/-- SEPI_C, 11, R245. -/
def Reg.SEPI_C (k : Nat) : Nat := 1576996 + 64 * k
def Reg.SEPI_C.VALUE (k : Nat) : Fld := ⟨Reg.SEPI_C k, 0, 32⟩

/-- SEPI_ZR, 11, R245. -/
def Reg.SEPI_ZR (k : Nat) : Nat := 1577000 + 64 * k
def Reg.SEPI_ZR.VALUE (k : Nat) : Fld := ⟨Reg.SEPI_ZR k, 0, 32⟩

/-- SEPI_VHMIN, 11, R245. -/
def Reg.SEPI_VHMIN (k : Nat) : Nat := 1577004 + 64 * k
def Reg.SEPI_VHMIN.VALUE (k : Nat) : Fld := ⟨Reg.SEPI_VHMIN k, 0, 32⟩

/-- SEPI_SH_STOP, 11, R245. -/
def Reg.SEPI_SH_STOP (k : Nat) : Nat := 1577008 + 64 * k
def Reg.SEPI_SH_STOP.VALUE (k : Nat) : Fld := ⟨Reg.SEPI_SH_STOP k, 0, 32⟩

/-- SEPI_SH_SLOW, 11, R245. -/
def Reg.SEPI_SH_SLOW (k : Nat) : Nat := 1577012 + 64 * k
def Reg.SEPI_SH_SLOW.VALUE (k : Nat) : Fld := ⟨Reg.SEPI_SH_SLOW k, 0, 32⟩

/-- SEPI_CAPS, 11, R245. -/
def Reg.SEPI_CAPS (k : Nat) : Nat := 1577016 + 64 * k
def Reg.SEPI_CAPS.CAPSULES (k : Nat) : Fld := ⟨Reg.SEPI_CAPS k, 0, 10⟩

/-- PER_STAT, 11, R245. -/
def Reg.PER_STAT (k : Nat) : Nat := 1609728 + 128 * k
def Reg.PER_STAT.AGE (k : Nat) : Fld := ⟨Reg.PER_STAT k, 16, 16⟩
def Reg.PER_STAT.REMOTE (k : Nat) : Fld := ⟨Reg.PER_STAT k, 14, 1⟩
def Reg.PER_STAT.CONN (k : Nat) : Fld := ⟨Reg.PER_STAT k, 8, 6⟩
def Reg.PER_STAT.STATE (k : Nat) : Fld := ⟨Reg.PER_STAT k, 0, 2⟩

/-- PER_RAW, 11, R245. -/
def Reg.PER_RAW (k : Nat) (m : Nat) : Nat := 1609792 + 128 * k + 4 * m
def Reg.PER_RAW.DATA (k : Nat) (m : Nat) : Fld := ⟨Reg.PER_RAW k m, 0, 32⟩

/-- SH_CFG, 11, R245. -/
def Reg.SH_CFG (k : Nat) : Nat := 1617920 + 64 * k
def Reg.SH_CFG.LINE (k : Nat) : Fld := ⟨Reg.SH_CFG k, 4, 3⟩
def Reg.SH_CFG.ON_LINE (k : Nat) : Fld := ⟨Reg.SH_CFG k, 1, 1⟩
def Reg.SH_CFG.ACTIVE (k : Nat) : Fld := ⟨Reg.SH_CFG k, 0, 1⟩

/-- SH_C, 11, R245. -/
def Reg.SH_C (k : Nat) (m : Nat) : Nat := 1617924 + 64 * k + 4 * m
def Reg.SH_C.VALUE (k : Nat) (m : Nat) : Fld := ⟨Reg.SH_C k m, 0, 32⟩

/-- SH_H, 11, R245. -/
def Reg.SH_H (k : Nat) (m : Nat) : Nat := 1617936 + 64 * k + 4 * m
def Reg.SH_H.VALUE (k : Nat) (m : Nat) : Fld := ⟨Reg.SH_H k m, 0, 32⟩

/-- SH_Q, 11, R245. -/
def Reg.SH_Q (k : Nat) (m : Nat) : Nat := 1617948 + 64 * k + 4 * m
def Reg.SH_Q.VALUE (k : Nat) (m : Nat) : Fld := ⟨Reg.SH_Q k m, 0, 32⟩

/-- SH_LREF_LO, 11, R245. -/
def Reg.SH_LREF_LO (k : Nat) : Nat := 1617964 + 64 * k
def Reg.SH_LREF_LO.VALUE (k : Nat) : Fld := ⟨Reg.SH_LREF_LO k, 0, 32⟩

/-- SH_LREF_HI, 11, R245. -/
def Reg.SH_LREF_HI (k : Nat) : Nat := 1617968 + 64 * k
def Reg.SH_LREF_HI.VALUE (k : Nat) : Fld := ⟨Reg.SH_LREF_HI k, 0, 32⟩

/-- SH_D, 11, R245. -/
def Reg.SH_D (k : Nat) (m : Nat) : Nat := 1617972 + 64 * k + 4 * m
def Reg.SH_D.VALUE (k : Nat) (m : Nat) : Fld := ⟨Reg.SH_D k m, 0, 32⟩

/-- PAIR_CFG, 11, R245. -/
def Reg.PAIR_CFG (k : Nat) : Nat := 1638400 + 16 * k
def Reg.PAIR_CFG.VALID (k : Nat) : Fld := ⟨Reg.PAIR_CFG k, 31, 1⟩
def Reg.PAIR_CFG.ISL_B (k : Nat) : Fld := ⟨Reg.PAIR_CFG k, 16, 9⟩
def Reg.PAIR_CFG.ISL_A (k : Nat) : Fld := ⟨Reg.PAIR_CFG k, 0, 9⟩

/-- PAIR_STOP, 11, R245. -/
def Reg.PAIR_STOP (k : Nat) : Nat := 1638404 + 16 * k
def Reg.PAIR_STOP.VALUE (k : Nat) : Fld := ⟨Reg.PAIR_STOP k, 0, 32⟩

/-- PAIR_SLOW, 11, R245. -/
def Reg.PAIR_SLOW (k : Nat) : Nat := 1638408 + 16 * k
def Reg.PAIR_SLOW.VALUE (k : Nat) : Fld := ⟨Reg.PAIR_SLOW k, 0, 32⟩

/-- PAIR_DMIN, 11, R245. -/
def Reg.PAIR_DMIN (k : Nat) : Nat := 1638412 + 16 * k
def Reg.PAIR_DMIN.VALUE (k : Nat) : Fld := ⟨Reg.PAIR_DMIN k, 0, 32⟩

/-- NRW_CFG, 12, R264. -/
def Reg.NRW_CFG (k : Nat) : Nat := 1703936 + 256 * k
def Reg.NRW_CFG.VALID (k : Nat) : Fld := ⟨Reg.NRW_CFG k, 31, 1⟩
def Reg.NRW_CFG.ROLE (k : Nat) : Fld := ⟨Reg.NRW_CFG k, 29, 2⟩
def Reg.NRW_CFG.LINE (k : Nat) : Fld := ⟨Reg.NRW_CFG k, 24, 3⟩
def Reg.NRW_CFG.WAIT_MAX (k : Nat) : Fld := ⟨Reg.NRW_CFG k, 16, 8⟩
def Reg.NRW_CFG.WD (k : Nat) : Fld := ⟨Reg.NRW_CFG k, 0, 16⟩

/-- NRW_HOME, 12, R264. -/
def Reg.NRW_HOME (k : Nat) : Nat := 1703940 + 256 * k
def Reg.NRW_HOME.NODE (k : Nat) : Fld := ⟨Reg.NRW_HOME k, 16, 9⟩
def Reg.NRW_HOME.NARROWS (k : Nat) : Fld := ⟨Reg.NRW_HOME k, 0, 7⟩

/-- NRW_PASS_LO, 12, R264. -/
def Reg.NRW_PASS_LO (k : Nat) : Nat := 1703944 + 256 * k
def Reg.NRW_PASS_LO.PASS (k : Nat) : Fld := ⟨Reg.NRW_PASS_LO k, 0, 32⟩

/-- NRW_PASS_HI, 12, R264. -/
def Reg.NRW_PASS_HI (k : Nat) : Nat := 1703948 + 256 * k
def Reg.NRW_PASS_HI.PASS (k : Nat) : Fld := ⟨Reg.NRW_PASS_HI k, 0, 32⟩

/-- NRW_STATE, 12, R264. -/
def Reg.NRW_STATE (k : Nat) : Nat := 1703952 + 256 * k
def Reg.NRW_STATE.EPOCH (k : Nat) : Fld := ⟨Reg.NRW_STATE k, 16, 16⟩
def Reg.NRW_STATE.CAUSE (k : Nat) : Fld := ⟨Reg.NRW_STATE k, 8, 4⟩
def Reg.NRW_STATE.NEXT_VALID (k : Nat) : Fld := ⟨Reg.NRW_STATE k, 4, 1⟩
def Reg.NRW_STATE.STATE (k : Nat) : Fld := ⟨Reg.NRW_STATE k, 0, 2⟩

/-- NRW_OWNER, 12, R264. -/
def Reg.NRW_OWNER (k : Nat) : Nat := 1703956 + 256 * k
def Reg.NRW_OWNER.REMOTE (k : Nat) : Fld := ⟨Reg.NRW_OWNER k, 31, 1⟩
def Reg.NRW_OWNER.VALID (k : Nat) : Fld := ⟨Reg.NRW_OWNER k, 30, 1⟩
def Reg.NRW_OWNER.NODE (k : Nat) : Fld := ⟨Reg.NRW_OWNER k, 16, 9⟩
def Reg.NRW_OWNER.ISLAND (k : Nat) : Fld := ⟨Reg.NRW_OWNER k, 0, 9⟩

/-- NRW_NEXT, 12, R264. -/
def Reg.NRW_NEXT (k : Nat) : Nat := 1703960 + 256 * k
def Reg.NRW_NEXT.REMOTE (k : Nat) : Fld := ⟨Reg.NRW_NEXT k, 31, 1⟩
def Reg.NRW_NEXT.VALID (k : Nat) : Fld := ⟨Reg.NRW_NEXT k, 30, 1⟩
def Reg.NRW_NEXT.NODE (k : Nat) : Fld := ⟨Reg.NRW_NEXT k, 16, 9⟩
def Reg.NRW_NEXT.ISLAND (k : Nat) : Fld := ⟨Reg.NRW_NEXT k, 0, 9⟩

/-- NRW_HELD, 12, R264. -/
def Reg.NRW_HELD (k : Nat) : Nat := 1703964 + 256 * k
def Reg.NRW_HELD.HELD (k : Nat) : Fld := ⟨Reg.NRW_HELD k, 0, 32⟩

/-- NRW_CLEAR, 12, R264. -/
def Reg.NRW_CLEAR (k : Nat) : Nat := 1703968 + 256 * k
def Reg.NRW_CLEAR.COUNT (k : Nat) : Fld := ⟨Reg.NRW_CLEAR k, 0, 5⟩

/-- NRW_DMIN, 12, R264. -/
def Reg.NRW_DMIN (k : Nat) : Nat := 1703972 + 256 * k
def Reg.NRW_DMIN.DMIN (k : Nat) : Fld := ⟨Reg.NRW_DMIN k, 0, 32⟩

/-- NRW_REQ, 12, R264. -/
def Reg.NRW_REQ (k : Nat) : Nat := 1703976 + 256 * k
def Reg.NRW_REQ.REQ (k : Nat) : Fld := ⟨Reg.NRW_REQ k, 0, 16⟩

/-- NRW_MEMBER, 12, R264. -/
def Reg.NRW_MEMBER (k : Nat) (m : Nat) : Nat := 1704000 + 256 * k + 8 * m
def Reg.NRW_MEMBER.VALID (k : Nat) (m : Nat) : Fld := ⟨Reg.NRW_MEMBER k m, 31, 1⟩
def Reg.NRW_MEMBER.REMOTE (k : Nat) (m : Nat) : Fld := ⟨Reg.NRW_MEMBER k m, 30, 1⟩
def Reg.NRW_MEMBER.PRIO (k : Nat) (m : Nat) : Fld := ⟨Reg.NRW_MEMBER k m, 18, 8⟩
def Reg.NRW_MEMBER.NODE (k : Nat) (m : Nat) : Fld := ⟨Reg.NRW_MEMBER k m, 9, 9⟩
def Reg.NRW_MEMBER.ISLAND (k : Nat) (m : Nat) : Fld := ⟨Reg.NRW_MEMBER k m, 0, 9⟩

/-- NRW_WAIT, 12, R264. -/
def Reg.NRW_WAIT (k : Nat) (m : Nat) : Nat := 1704004 + 256 * k + 8 * m
def Reg.NRW_WAIT.PENDING (k : Nat) (m : Nat) : Fld := ⟨Reg.NRW_WAIT k m, 8, 1⟩
def Reg.NRW_WAIT.COUNT (k : Nat) (m : Nat) : Fld := ⟨Reg.NRW_WAIT k m, 0, 8⟩

/-- BOX_CFG, 12, R264. -/
def Reg.BOX_CFG (k : Nat) : Nat := 1736704 + 64 * k
def Reg.BOX_CFG.VALID (k : Nat) : Fld := ⟨Reg.BOX_CFG k, 31, 1⟩
def Reg.BOX_CFG.NARROWS (k : Nat) : Fld := ⟨Reg.BOX_CFG k, 0, 7⟩

/-- BOX_C, 12, R264. -/
def Reg.BOX_C (k : Nat) (m : Nat) : Nat := 1736708 + 64 * k + 4 * m
def Reg.BOX_C.VALUE (k : Nat) (m : Nat) : Fld := ⟨Reg.BOX_C k m, 0, 32⟩

/-- BOX_H, 12, R264. -/
def Reg.BOX_H (k : Nat) (m : Nat) : Nat := 1736720 + 64 * k + 4 * m
def Reg.BOX_H.VALUE (k : Nat) (m : Nat) : Fld := ⟨Reg.BOX_H k m, 0, 32⟩

/-- BOX_Q, 12, R264. -/
def Reg.BOX_Q (k : Nat) (m : Nat) : Nat := 1736732 + 64 * k + 4 * m
def Reg.BOX_Q.VALUE (k : Nat) (m : Nat) : Fld := ⟨Reg.BOX_Q k m, 0, 32⟩

/-- NRW_REL, 12, R264. -/
def Reg.NRW_REL : Nat := 1769472
def Reg.NRW_REL.EPOCH : Fld := ⟨Reg.NRW_REL, 16, 16⟩
def Reg.NRW_REL.TAG : Fld := ⟨Reg.NRW_REL, 8, 8⟩
def Reg.NRW_REL.NARROWS : Fld := ⟨Reg.NRW_REL, 0, 7⟩

/-- NRW_REL_RESULT, 12, R264. -/
def Reg.NRW_REL_RESULT : Nat := 1769476
def Reg.NRW_REL_RESULT.TAG : Fld := ⟨Reg.NRW_REL_RESULT, 8, 8⟩
def Reg.NRW_REL_RESULT.STATUS : Fld := ⟨Reg.NRW_REL_RESULT, 0, 3⟩

/-- SAFE_STAT, 13, R300. -/
def Reg.SAFE_STAT : Nat := 1835008
def Reg.SAFE_STAT.A_STATE : Fld := ⟨Reg.SAFE_STAT, 24, 4⟩
def Reg.SAFE_STAT.B_STATE : Fld := ⟨Reg.SAFE_STAT, 20, 4⟩
def Reg.SAFE_STAT.OVERTEMP : Fld := ⟨Reg.SAFE_STAT, 11, 1⟩
def Reg.SAFE_STAT.SIG_AGREED : Fld := ⟨Reg.SAFE_STAT, 10, 1⟩
def Reg.SAFE_STAT.CONFIRMED : Fld := ⟨Reg.SAFE_STAT, 9, 1⟩
def Reg.SAFE_STAT.STARTUP_DONE : Fld := ⟨Reg.SAFE_STAT, 8, 1⟩

/-- SAFE_SIG_LO, 13, R300. -/
def Reg.SAFE_SIG_LO : Nat := 1835016
def Reg.SAFE_SIG_LO.SIG : Fld := ⟨Reg.SAFE_SIG_LO, 0, 32⟩

/-- SAFE_SIG_HI, 13, R300. -/
def Reg.SAFE_SIG_HI : Nat := 1835020
def Reg.SAFE_SIG_HI.SIG : Fld := ⟨Reg.SAFE_SIG_HI, 0, 32⟩

/-- SAFE_CONF_LO, 13, R300. -/
def Reg.SAFE_CONF_LO : Nat := 1835024
def Reg.SAFE_CONF_LO.SIG : Fld := ⟨Reg.SAFE_CONF_LO, 0, 32⟩

/-- SAFE_CONF_HI, 13, R300. -/
def Reg.SAFE_CONF_HI : Nat := 1835028
def Reg.SAFE_CONF_HI.SIG : Fld := ⟨Reg.SAFE_CONF_HI, 0, 32⟩

/-- STO_STAT, 13, R300. -/
def Reg.STO_STAT : Nat := 1835040
def Reg.STO_STAT.SS1_RUN : Fld := ⟨Reg.STO_STAT, 16, 16⟩
def Reg.STO_STAT.STO : Fld := ⟨Reg.STO_STAT, 0, 16⟩

/-- STO_LATCH, 13, R300. -/
def Reg.STO_LATCH : Nat := 1835044
def Reg.STO_LATCH.SS1 : Fld := ⟨Reg.STO_LATCH, 16, 16⟩
def Reg.STO_LATCH.STO : Fld := ⟨Reg.STO_LATCH, 0, 16⟩

/-- CHA_STAT, 13, R300. -/
def Reg.CHA_STAT : Nat := 1835056
def Reg.CHA_STAT.EVAL_PEAK : Fld := ⟨Reg.CHA_STAT, 16, 16⟩
def Reg.CHA_STAT.EVAL_LAST : Fld := ⟨Reg.CHA_STAT, 0, 16⟩

/-- CHB_STAT, 13, R300. -/
def Reg.CHB_STAT : Nat := 1835060
def Reg.CHB_STAT.REPORT_MISS : Fld := ⟨Reg.CHB_STAT, 24, 8⟩
def Reg.CHB_STAT.XCHK_MISMATCH : Fld := ⟨Reg.CHB_STAT, 16, 8⟩
def Reg.CHB_STAT.TJ : Fld := ⟨Reg.CHB_STAT, 0, 16⟩

/-- SAFE_VSS, 13, R300. -/
def Reg.SAFE_VSS : Nat := 1835072
def Reg.SAFE_VSS.VALUE : Fld := ⟨Reg.SAFE_VSS, 0, 32⟩

/-- SAFE_SLS_TOL, 13, R300. -/
def Reg.SAFE_SLS_TOL : Nat := 1835076
def Reg.SAFE_SLS_TOL.VALUE : Fld := ⟨Reg.SAFE_SLS_TOL, 0, 32⟩

/-- GRP_CFG, 13, R300. -/
def Reg.GRP_CFG (k : Nat) : Nat := 1835264 + 8 * k
def Reg.GRP_CFG.SS1_T (k : Nat) : Fld := ⟨Reg.GRP_CFG k, 16, 16⟩

/-- GRP_STAT, 13, R300. -/
def Reg.GRP_STAT (k : Nat) : Nat := 1835268 + 8 * k
def Reg.GRP_STAT.CAUSE (k : Nat) : Fld := ⟨Reg.GRP_STAT k, 16, 5⟩
def Reg.GRP_STAT.SS1_ELAPSED (k : Nat) : Fld := ⟨Reg.GRP_STAT k, 0, 16⟩

/-- IN_CFG, 13, R300. -/
def Reg.IN_CFG (k : Nat) : Nat := 1835520 + 16 * k
def Reg.IN_CFG.GROUPS (k : Nat) : Fld := ⟨Reg.IN_CFG k, 16, 16⟩
def Reg.IN_CFG.TP_EN (k : Nat) : Fld := ⟨Reg.IN_CFG k, 15, 1⟩
def Reg.IN_CFG.FILT (k : Nat) : Fld := ⟨Reg.IN_CFG k, 14, 1⟩
def Reg.IN_CFG.AUTO_ONLY (k : Nat) : Fld := ⟨Reg.IN_CFG k, 13, 1⟩
def Reg.IN_CFG.STOP (k : Nat) : Fld := ⟨Reg.IN_CFG k, 12, 1⟩
def Reg.IN_CFG.FUNC (k : Nat) : Fld := ⟨Reg.IN_CFG k, 0, 3⟩

/-- IN_TIME, 13, R300. -/
def Reg.IN_TIME (k : Nat) : Nat := 1835524 + 16 * k
def Reg.IN_TIME.DISC_T (k : Nat) : Fld := ⟨Reg.IN_TIME k, 16, 16⟩
def Reg.IN_TIME.TP_PER (k : Nat) : Fld := ⟨Reg.IN_TIME k, 0, 16⟩

/-- IN_STAT, 13, R300. -/
def Reg.IN_STAT (k : Nat) : Nat := 1835528 + 16 * k
def Reg.IN_STAT.OPENINGS (k : Nat) : Fld := ⟨Reg.IN_STAT k, 16, 16⟩
def Reg.IN_STAT.FCAUSE (k : Nat) : Fld := ⟨Reg.IN_STAT k, 6, 3⟩
def Reg.IN_STAT.SEEN_CLOSED (k : Nat) : Fld := ⟨Reg.IN_STAT k, 5, 1⟩
def Reg.IN_STAT.SEEN_OPEN (k : Nat) : Fld := ⟨Reg.IN_STAT k, 4, 1⟩
def Reg.IN_STAT.FAULT (k : Nat) : Fld := ⟨Reg.IN_STAT k, 3, 1⟩
def Reg.IN_STAT.CLOSED (k : Nat) : Fld := ⟨Reg.IN_STAT k, 2, 1⟩
def Reg.IN_STAT.LANE_B (k : Nat) : Fld := ⟨Reg.IN_STAT k, 1, 1⟩
def Reg.IN_STAT.LANE_A (k : Nat) : Fld := ⟨Reg.IN_STAT k, 0, 1⟩

/-- CONN_ID, 13, R300. -/
def Reg.CONN_ID (k : Nat) : Nat := 1839104 + 32 * k
def Reg.CONN_ID.ID (k : Nat) : Fld := ⟨Reg.CONN_ID k, 0, 32⟩

/-- CONN_CFG, 13, R300. -/
def Reg.CONN_CFG (k : Nat) : Nat := 1839108 + 32 * k
def Reg.CONN_CFG.VALID (k : Nat) : Fld := ⟨Reg.CONN_CFG k, 31, 1⟩
def Reg.CONN_CFG.DIR (k : Nat) : Fld := ⟨Reg.CONN_CFG k, 30, 1⟩
def Reg.CONN_CFG.KIND (k : Nat) : Fld := ⟨Reg.CONN_CFG k, 28, 2⟩
def Reg.CONN_CFG.DORLU (k : Nat) : Fld := ⟨Reg.CONN_CFG k, 27, 1⟩
def Reg.CONN_CFG.E1 (k : Nat) : Fld := ⟨Reg.CONN_CFG k, 26, 1⟩
def Reg.CONN_CFG.E0 (k : Nat) : Fld := ⟨Reg.CONN_CFG k, 25, 1⟩
def Reg.CONN_CFG.TO_STOP (k : Nat) : Fld := ⟨Reg.CONN_CFG k, 24, 1⟩
def Reg.CONN_CFG.SEQ_WIN (k : Nat) : Fld := ⟨Reg.CONN_CFG k, 16, 8⟩
def Reg.CONN_CFG.GROUPS (k : Nat) : Fld := ⟨Reg.CONN_CFG k, 0, 16⟩

/-- CONN_TIME, 13, R300. -/
def Reg.CONN_TIME (k : Nat) : Nat := 1839112 + 32 * k
def Reg.CONN_TIME.SEND_T (k : Nat) : Fld := ⟨Reg.CONN_TIME k, 16, 16⟩
def Reg.CONN_TIME.EXPECT (k : Nat) : Fld := ⟨Reg.CONN_TIME k, 0, 16⟩

/-- CONN_STAT, 13, R300. -/
def Reg.CONN_STAT (k : Nat) : Nat := 1839116 + 32 * k
def Reg.CONN_STAT.SEQ (k : Nat) : Fld := ⟨Reg.CONN_STAT k, 16, 16⟩
def Reg.CONN_STAT.STATE (k : Nat) : Fld := ⟨Reg.CONN_STAT k, 0, 2⟩

/-- CONN_ERR, 13, R300. -/
def Reg.CONN_ERR (k : Nat) : Nat := 1839120 + 32 * k
def Reg.CONN_ERR.CRC (k : Nat) : Fld := ⟨Reg.CONN_ERR k, 24, 8⟩
def Reg.CONN_ERR.SEQ (k : Nat) : Fld := ⟨Reg.CONN_ERR k, 16, 8⟩
def Reg.CONN_ERR.FORMAT (k : Nat) : Fld := ⟨Reg.CONN_ERR k, 8, 8⟩
def Reg.CONN_ERR.TIMEOUTS (k : Nat) : Fld := ⟨Reg.CONN_ERR k, 0, 8⟩

/-- CONN_AGE, 13, R300. -/
def Reg.CONN_AGE (k : Nat) : Nat := 1839124 + 32 * k
def Reg.CONN_AGE.AGE (k : Nat) : Fld := ⟨Reg.CONN_AGE k, 0, 16⟩

/-- CONN_UDP, 13, R300. -/
def Reg.CONN_UDP (k : Nat) : Nat := 1839128 + 32 * k
def Reg.CONN_UDP.PORT (k : Nat) : Fld := ⟨Reg.CONN_UDP k, 0, 16⟩

/-- AXB_CFG, 13, R300. -/
def Reg.AXB_CFG (k : Nat) : Nat := 1843200 + 8 * k
def Reg.AXB_CFG.OVS_CNT (k : Nat) : Fld := ⟨Reg.AXB_CFG k, 8, 24⟩
def Reg.AXB_CFG.SSTILL_CNT (k : Nat) : Fld := ⟨Reg.AXB_CFG k, 0, 8⟩

/-- AXB_STAT, 13, R300. -/
def Reg.AXB_STAT (k : Nat) : Nat := 1843204 + 8 * k
def Reg.AXB_STAT.TAP_MISS (k : Nat) : Fld := ⟨Reg.AXB_STAT k, 24, 8⟩
def Reg.AXB_STAT.DELTA (k : Nat) : Fld := ⟨Reg.AXB_STAT k, 0, 24⟩

/-- ISA_STAT, 13, R300. -/
def Reg.ISA_STAT (k : Nat) : Nat := 1851392 + 32 * k
def Reg.ISA_STAT.CAUSE (k : Nat) : Fld := ⟨Reg.ISA_STAT k, 16, 5⟩
def Reg.ISA_STAT.SUPERVISING (k : Nat) : Fld := ⟨Reg.ISA_STAT k, 2, 1⟩
def Reg.ISA_STAT.STANDSTILL_REQ (k : Nat) : Fld := ⟨Reg.ISA_STAT k, 1, 1⟩
def Reg.ISA_STAT.LATCHED (k : Nat) : Fld := ⟨Reg.ISA_STAT k, 0, 1⟩

/-- ISA_MARGIN, 13, R300. -/
def Reg.ISA_MARGIN (k : Nat) : Nat := 1851396 + 32 * k
def Reg.ISA_MARGIN.VALUE (k : Nat) : Fld := ⟨Reg.ISA_MARGIN k, 0, 32⟩

/-- ISA_SPEED, 13, R300. -/
def Reg.ISA_SPEED (k : Nat) : Nat := 1851400 + 32 * k
def Reg.ISA_SPEED.VALUE (k : Nat) : Fld := ⟨Reg.ISA_SPEED k, 0, 32⟩

/-- ISA_SS1_T, 13, R300. -/
def Reg.ISA_SS1_T (k : Nat) : Nat := 1851404 + 32 * k
def Reg.ISA_SS1_T.VALUE (k : Nat) : Fld := ⟨Reg.ISA_SS1_T k, 0, 32⟩

/-- ISA_TR, 13, R300. -/
def Reg.ISA_TR (k : Nat) : Nat := 1851408 + 32 * k
def Reg.ISA_TR.VALUE (k : Nat) : Fld := ⟨Reg.ISA_TR k, 0, 32⟩

/-- ISA_DEC, 13, R300. -/
def Reg.ISA_DEC (k : Nat) : Nat := 1851412 + 32 * k
def Reg.ISA_DEC.VALUE (k : Nat) : Fld := ⟨Reg.ISA_DEC k, 0, 32⟩

/-- ISA_JERK, 13, R300. -/
def Reg.ISA_JERK (k : Nat) : Nat := 1851416 + 32 * k
def Reg.ISA_JERK.VALUE (k : Nat) : Fld := ⟨Reg.ISA_JERK k, 0, 32⟩

/-- ISA_VTOL, 13, R300. -/
def Reg.ISA_VTOL (k : Nat) : Nat := 1851420 + 32 * k
def Reg.ISA_VTOL.VALUE (k : Nat) : Fld := ⟨Reg.ISA_VTOL k, 0, 32⟩

/-- DPX_CFG, 14, R320. -/
def Reg.DPX_CFG : Nat := 1966080
def Reg.DPX_CFG.POS : Fld := ⟨Reg.DPX_CFG, 8, 1⟩
def Reg.DPX_CFG.EN : Fld := ⟨Reg.DPX_CFG, 0, 1⟩

/-- DPX_STAT, 14, R320. -/
def Reg.DPX_STAT : Nat := 1966084
def Reg.DPX_STAT.PROMO : Fld := ⟨Reg.DPX_STAT, 24, 8⟩
def Reg.DPX_STAT.OWN_DEMAND : Fld := ⟨Reg.DPX_STAT, 16, 8⟩
def Reg.DPX_STAT.HO_REFUSED : Fld := ⟨Reg.DPX_STAT, 15, 1⟩
def Reg.DPX_STAT.STALE : Fld := ⟨Reg.DPX_STAT, 11, 1⟩
def Reg.DPX_STAT.LINK_LOST : Fld := ⟨Reg.DPX_STAT, 10, 1⟩
def Reg.DPX_STAT.LANE1_UP : Fld := ⟨Reg.DPX_STAT, 9, 1⟩
def Reg.DPX_STAT.LANE0_UP : Fld := ⟨Reg.DPX_STAT, 8, 1⟩
def Reg.DPX_STAT.SYNCED : Fld := ⟨Reg.DPX_STAT, 7, 1⟩
def Reg.DPX_STAT.PARTNER_SEEN : Fld := ⟨Reg.DPX_STAT, 6, 1⟩
def Reg.DPX_STAT.ROLE : Fld := ⟨Reg.DPX_STAT, 0, 3⟩

/-- DPX_CTRL, 14, R320. -/
def Reg.DPX_CTRL : Nat := 1966088
def Reg.DPX_CTRL.REJOIN : Fld := ⟨Reg.DPX_CTRL, 1, 1⟩
def Reg.DPX_CTRL.HANDOVER : Fld := ⟨Reg.DPX_CTRL, 0, 1⟩

/-- DPX_HB, 14, R320. -/
def Reg.DPX_HB : Nat := 1966092
def Reg.DPX_HB.MISS_RUN : Fld := ⟨Reg.DPX_HB, 24, 8⟩
def Reg.DPX_HB.RX : Fld := ⟨Reg.DPX_HB, 0, 16⟩

/-- DPX_RING_MISS, 14, R320. -/
def Reg.DPX_RING_MISS : Nat := 1966096
def Reg.DPX_RING_MISS.SILENT : Fld := ⟨Reg.DPX_RING_MISS, 0, 16⟩

/-- DPX_CMP, 14, R320. -/
def Reg.DPX_CMP : Nat := 1966100
def Reg.DPX_CMP.MISMATCHES : Fld := ⟨Reg.DPX_CMP, 16, 16⟩
def Reg.DPX_CMP.DIVERGENCES : Fld := ⟨Reg.DPX_CMP, 0, 16⟩

/-- DPX_SYNC, 14, R320. -/
def Reg.DPX_SYNC : Nat := 1966104
def Reg.DPX_SYNC.CMP_RUN : Fld := ⟨Reg.DPX_SYNC, 16, 16⟩
def Reg.DPX_SYNC.CKPT_MS : Fld := ⟨Reg.DPX_SYNC, 0, 16⟩

/-- DPX_UNALIGNED, 14, R320. -/
def Reg.DPX_UNALIGNED (k : Nat) : Nat := 1966112 + 4 * k
def Reg.DPX_UNALIGNED.UNALIGNED (k : Nat) : Fld := ⟨Reg.DPX_UNALIGNED k, 0, 32⟩

/-- DPX_SUSPEND, 14, R320. -/
def Reg.DPX_SUSPEND : Nat := 1966144
def Reg.DPX_SUSPEND.RINGS : Fld := ⟨Reg.DPX_SUSPEND, 0, 16⟩

/-- DPX_LAST, 14, R320. -/
def Reg.DPX_LAST : Nat := 1966148
def Reg.DPX_LAST.OUTCOME : Fld := ⟨Reg.DPX_LAST, 8, 4⟩
def Reg.DPX_LAST.AXIS : Fld := ⟨Reg.DPX_LAST, 0, 8⟩

/-- DPX_STAT2, 14, R320. -/
def Reg.DPX_STAT2 : Nat := 1966152
def Reg.DPX_STAT2.OWN_DEMAND_HI : Fld := ⟨Reg.DPX_STAT2, 0, 8⟩

/-- FED_CFG, 15, R342. -/
def Reg.FED_CFG : Nat := 2097152
def Reg.FED_CFG.EN : Fld := ⟨Reg.FED_CFG, 31, 1⟩
def Reg.FED_CFG.RANK : Fld := ⟨Reg.FED_CFG, 16, 3⟩
def Reg.FED_CFG.NODE : Fld := ⟨Reg.FED_CFG, 0, 9⟩

/-- FED_STAT, 15, R342. -/
def Reg.FED_STAT : Nat := 2097156
def Reg.FED_STAT.MISS_RUN : Fld := ⟨Reg.FED_STAT, 24, 8⟩
def Reg.FED_STAT.OVER_BUDGET : Fld := ⟨Reg.FED_STAT, 14, 1⟩
def Reg.FED_STAT.RECLOSE_REFUSED : Fld := ⟨Reg.FED_STAT, 13, 1⟩
def Reg.FED_STAT.LOOP_LINK : Fld := ⟨Reg.FED_STAT, 12, 1⟩
def Reg.FED_STAT.LOOPED : Fld := ⟨Reg.FED_STAT, 11, 1⟩
def Reg.FED_STAT.LINK1 : Fld := ⟨Reg.FED_STAT, 10, 1⟩
def Reg.FED_STAT.LINK0 : Fld := ⟨Reg.FED_STAT, 9, 1⟩
def Reg.FED_STAT.ALIGNED : Fld := ⟨Reg.FED_STAT, 8, 1⟩
def Reg.FED_STAT.MODE : Fld := ⟨Reg.FED_STAT, 4, 3⟩
def Reg.FED_STAT.STATE : Fld := ⟨Reg.FED_STAT, 0, 3⟩

/-- FED_MASTER, 15, R342. -/
def Reg.FED_MASTER : Nat := 2097160
def Reg.FED_MASTER.VALID : Fld := ⟨Reg.FED_MASTER, 31, 1⟩
def Reg.FED_MASTER.MRANK : Fld := ⟨Reg.FED_MASTER, 16, 3⟩
def Reg.FED_MASTER.NODE : Fld := ⟨Reg.FED_MASTER, 0, 9⟩

/-- FED_DELAY, 15, R342. -/
def Reg.FED_DELAY : Nat := 2097164
def Reg.FED_DELAY.D : Fld := ⟨Reg.FED_DELAY, 0, 32⟩

/-- FED_CYC_LO, 15, R342. -/
def Reg.FED_CYC_LO : Nat := 2097168
def Reg.FED_CYC_LO.VALUE : Fld := ⟨Reg.FED_CYC_LO, 0, 32⟩

/-- FED_CYC_HI, 15, R342. -/
def Reg.FED_CYC_HI : Nat := 2097172
def Reg.FED_CYC_HI.VALUE : Fld := ⟨Reg.FED_CYC_HI, 0, 32⟩

/-- FED_OFS_LO, 15, R342. -/
def Reg.FED_OFS_LO : Nat := 2097176
def Reg.FED_OFS_LO.VALUE : Fld := ⟨Reg.FED_OFS_LO, 0, 32⟩

/-- FED_OFS_HI, 15, R342. -/
def Reg.FED_OFS_HI : Nat := 2097180
def Reg.FED_OFS_HI.VALUE : Fld := ⟨Reg.FED_OFS_HI, 0, 32⟩

/-- FED_CYC_BASE_LO, 15, R342. -/
def Reg.FED_CYC_BASE_LO : Nat := 2097184
def Reg.FED_CYC_BASE_LO.VALUE : Fld := ⟨Reg.FED_CYC_BASE_LO, 0, 32⟩

/-- FED_CYC_BASE_HI, 15, R342. -/
def Reg.FED_CYC_BASE_HI : Nat := 2097188
def Reg.FED_CYC_BASE_HI.VALUE : Fld := ⟨Reg.FED_CYC_BASE_HI, 0, 32⟩

/-- FED_PHASE, 15, R342. -/
def Reg.FED_PHASE : Nat := 2097192
def Reg.FED_PHASE.VALUE : Fld := ⟨Reg.FED_PHASE, 0, 32⟩

/-- FED_LOOP, 15, R342. -/
def Reg.FED_LOOP : Nat := 2097196
def Reg.FED_LOOP.VALUE : Fld := ⟨Reg.FED_LOOP, 0, 32⟩

/-- FED_LOOP_MAX, 15, R342. -/
def Reg.FED_LOOP_MAX : Nat := 2097200
def Reg.FED_LOOP_MAX.VALUE : Fld := ⟨Reg.FED_LOOP_MAX, 0, 32⟩

/-- FED_CTRL, 15, R342. -/
def Reg.FED_CTRL : Nat := 2097204
def Reg.FED_CTRL.NODE : Fld := ⟨Reg.FED_CTRL, 16, 9⟩
def Reg.FED_CTRL.CLR : Fld := ⟨Reg.FED_CTRL, 3, 1⟩
def Reg.FED_CTRL.MUTE : Fld := ⟨Reg.FED_CTRL, 2, 1⟩
def Reg.FED_CTRL.UNMUTE : Fld := ⟨Reg.FED_CTRL, 1, 1⟩
def Reg.FED_CTRL.RECLOSE : Fld := ⟨Reg.FED_CTRL, 0, 1⟩

/-- FED_CNT, 15, R342. -/
def Reg.FED_CNT : Nat := 2097208
def Reg.FED_CNT.EDGE : Fld := ⟨Reg.FED_CNT, 24, 8⟩
def Reg.FED_CNT.CRC : Fld := ⟨Reg.FED_CNT, 16, 8⟩
def Reg.FED_CNT.SKIPPED : Fld := ⟨Reg.FED_CNT, 8, 8⟩
def Reg.FED_CNT.RELAY_DROP : Fld := ⟨Reg.FED_CNT, 0, 8⟩

/-- FED_TX, 15, R342. -/
def Reg.FED_TX : Nat := 2097212
def Reg.FED_TX.EVT_DROP : Fld := ⟨Reg.FED_TX, 16, 16⟩
def Reg.FED_TX.LEN : Fld := ⟨Reg.FED_TX, 0, 9⟩

/-- FED_PUB, 15, R342. -/
def Reg.FED_PUB (k : Nat) : Nat := 2097216 + 4 * k
def Reg.FED_PUB.EN (k : Nat) : Fld := ⟨Reg.FED_PUB k, 31, 1⟩
def Reg.FED_PUB.SHARED (k : Nat) : Fld := ⟨Reg.FED_PUB k, 0, 8⟩

/-- FED_MUTE, 15, R342. -/
def Reg.FED_MUTE (k : Nat) : Nat := 2097408 + 4 * k
def Reg.FED_MUTE.BITS (k : Nat) : Fld := ⟨Reg.FED_MUTE k, 0, 32⟩

/-- FED_SEEN, 15, R342. -/
def Reg.FED_SEEN (k : Nat) : Nat := 2097472 + 4 * k
def Reg.FED_SEEN.BITS (k : Nat) : Fld := ⟨Reg.FED_SEEN k, 0, 32⟩

/-- ETH_STAT, 16, R355. -/
def Reg.ETH_STAT (k : Nat) : Nat := 2228224 + 256 * k
def Reg.ETH_STAT.LINK (k : Nat) : Fld := ⟨Reg.ETH_STAT k, 0, 1⟩

/-- ETH_LAT, 16, R355. -/
def Reg.ETH_LAT (k : Nat) : Nat := 2228228 + 256 * k
def Reg.ETH_LAT.TX_NS (k : Nat) : Fld := ⟨Reg.ETH_LAT k, 16, 16⟩
def Reg.ETH_LAT.RX_NS (k : Nat) : Fld := ⟨Reg.ETH_LAT k, 0, 16⟩

/-- ETH_CNT, 16, R355. -/
def Reg.ETH_CNT (k : Nat) : Nat := 2228232 + 256 * k
def Reg.ETH_CNT.DISCARD (k : Nat) : Fld := ⟨Reg.ETH_CNT k, 16, 16⟩
def Reg.ETH_CNT.CRC (k : Nat) : Fld := ⟨Reg.ETH_CNT k, 0, 16⟩

/-- TD_CFG, 16, R355. -/
def Reg.TD_CFG (k : Nat) : Nat := 2232320 + 256 * k
def Reg.TD_CFG.EN (k : Nat) : Fld := ⟨Reg.TD_CFG k, 31, 1⟩
def Reg.TD_CFG.PORT (k : Nat) : Fld := ⟨Reg.TD_CFG k, 30, 1⟩
def Reg.TD_CFG.ROLE (k : Nat) : Fld := ⟨Reg.TD_CFG k, 28, 2⟩
def Reg.TD_CFG.P2P (k : Nat) : Fld := ⟨Reg.TD_CFG k, 27, 1⟩
def Reg.TD_CFG.ONE_STEP (k : Nat) : Fld := ⟨Reg.TD_CFG k, 26, 1⟩
def Reg.TD_CFG.UDP (k : Nat) : Fld := ⟨Reg.TD_CFG k, 25, 1⟩
def Reg.TD_CFG.DOMAIN (k : Nat) : Fld := ⟨Reg.TD_CFG k, 8, 8⟩
def Reg.TD_CFG.LOG_SYNC (k : Nat) : Fld := ⟨Reg.TD_CFG k, 0, 8⟩

/-- TD_STAT, 16, R355. -/
def Reg.TD_STAT (k : Nat) : Nat := 2232324 + 256 * k
def Reg.TD_STAT.CMD_IGNORED (k : Nat) : Fld := ⟨Reg.TD_STAT k, 4, 1⟩
def Reg.TD_STAT.CAUSE (k : Nat) : Fld := ⟨Reg.TD_STAT k, 2, 2⟩

/-- TD_STATE, 16, R355. -/
def Reg.TD_STATE (k : Nat) : Nat := 2232328 + 256 * k
def Reg.TD_STATE.STATE (k : Nat) : Fld := ⟨Reg.TD_STATE k, 0, 3⟩

/-- TD_CTRL, 16, R355. -/
def Reg.TD_CTRL (k : Nat) : Nat := 2232332 + 256 * k
def Reg.TD_CTRL.CONFIRM_ASYM (k : Nat) : Fld := ⟨Reg.TD_CTRL k, 1, 1⟩
def Reg.TD_CTRL.ACCEPT_STEP (k : Nat) : Fld := ⟨Reg.TD_CTRL k, 0, 1⟩

/-- TD_THRESH, 16, R355. -/
def Reg.TD_THRESH (k : Nat) : Nat := 2232336 + 256 * k
def Reg.TD_THRESH.STEP_MAX (k : Nat) : Fld := ⟨Reg.TD_THRESH k, 16, 16⟩
def Reg.TD_THRESH.DELAY_STEP (k : Nat) : Fld := ⟨Reg.TD_THRESH k, 8, 8⟩
def Reg.TD_THRESH.LOCK_NS (k : Nat) : Fld := ⟨Reg.TD_THRESH k, 0, 8⟩

/-- TD_ASYM, 16, R355. -/
def Reg.TD_ASYM (k : Nat) : Nat := 2232340 + 256 * k
def Reg.TD_ASYM.ASYM (k : Nat) : Fld := ⟨Reg.TD_ASYM k, 0, 32⟩

/-- TD_RATE, 16, R355. -/
def Reg.TD_RATE (k : Nat) : Nat := 2232344 + 256 * k
def Reg.TD_RATE.RATE (k : Nat) : Fld := ⟨Reg.TD_RATE k, 0, 32⟩

/-- TD_OFFSET, 16, R355. -/
def Reg.TD_OFFSET (k : Nat) : Nat := 2232348 + 256 * k
def Reg.TD_OFFSET.THETA (k : Nat) : Fld := ⟨Reg.TD_OFFSET k, 0, 32⟩

/-- TD_MPD, 16, R355. -/
def Reg.TD_MPD (k : Nat) : Nat := 2232352 + 256 * k
def Reg.TD_MPD.DELAY (k : Nat) : Fld := ⟨Reg.TD_MPD k, 0, 32⟩

/-- TD_MPD_REF, 16, R355. -/
def Reg.TD_MPD_REF (k : Nat) : Nat := 2232356 + 256 * k
def Reg.TD_MPD_REF.DELAY (k : Nat) : Fld := ⟨Reg.TD_MPD_REF k, 0, 32⟩

/-- TD_SERVO, 16, R355. -/
def Reg.TD_SERVO (k : Nat) : Nat := 2232360 + 256 * k
def Reg.TD_SERVO.KP (k : Nat) : Fld := ⟨Reg.TD_SERVO k, 16, 16⟩
def Reg.TD_SERVO.KI (k : Nat) : Fld := ⟨Reg.TD_SERVO k, 0, 16⟩

/-- TD_SEC_LO, 16, R355. -/
def Reg.TD_SEC_LO (k : Nat) : Nat := 2232368 + 256 * k
def Reg.TD_SEC_LO.VALUE (k : Nat) : Fld := ⟨Reg.TD_SEC_LO k, 0, 32⟩

/-- TD_SEC_HI, 16, R355. -/
def Reg.TD_SEC_HI (k : Nat) : Nat := 2232372 + 256 * k
def Reg.TD_SEC_HI.VALUE (k : Nat) : Fld := ⟨Reg.TD_SEC_HI k, 0, 32⟩

/-- TD_NS, 16, R355. -/
def Reg.TD_NS (k : Nat) : Nat := 2232376 + 256 * k
def Reg.TD_NS.VALUE (k : Nat) : Fld := ⟨Reg.TD_NS k, 0, 32⟩

/-- TD_SNAP_TSC_LO, 16, R355. -/
def Reg.TD_SNAP_TSC_LO (k : Nat) : Nat := 2232384 + 256 * k
def Reg.TD_SNAP_TSC_LO.VALUE (k : Nat) : Fld := ⟨Reg.TD_SNAP_TSC_LO k, 0, 32⟩

/-- TD_SNAP_TSC_HI, 16, R355. -/
def Reg.TD_SNAP_TSC_HI (k : Nat) : Nat := 2232388 + 256 * k
def Reg.TD_SNAP_TSC_HI.VALUE (k : Nat) : Fld := ⟨Reg.TD_SNAP_TSC_HI k, 0, 32⟩

/-- TD_SNAP_SEC_LO, 16, R355. -/
def Reg.TD_SNAP_SEC_LO (k : Nat) : Nat := 2232392 + 256 * k
def Reg.TD_SNAP_SEC_LO.VALUE (k : Nat) : Fld := ⟨Reg.TD_SNAP_SEC_LO k, 0, 32⟩

/-- TD_SNAP_SEC_HI, 16, R355. -/
def Reg.TD_SNAP_SEC_HI (k : Nat) : Nat := 2232396 + 256 * k
def Reg.TD_SNAP_SEC_HI.VALUE (k : Nat) : Fld := ⟨Reg.TD_SNAP_SEC_HI k, 0, 32⟩

/-- TD_SNAP_NS, 16, R355. -/
def Reg.TD_SNAP_NS (k : Nat) : Nat := 2232400 + 256 * k
def Reg.TD_SNAP_NS.VALUE (k : Nat) : Fld := ⟨Reg.TD_SNAP_NS k, 0, 32⟩

/-- PS_STAT, 17, R368. -/
def Reg.PS_STAT : Nat := 2359296
def Reg.PS_STAT.SEL_ERR : Fld := ⟨Reg.PS_STAT, 16, 16⟩
def Reg.PS_STAT.XOFF : Fld := ⟨Reg.PS_STAT, 4, 4⟩
def Reg.PS_STAT.ACCEPTING : Fld := ⟨Reg.PS_STAT, 0, 1⟩

/-- HQ_DATA, 17, R368. -/
def Reg.HQ_DATA (k : Nat) : Nat := 2359360 + 4 * k
def Reg.HQ_DATA.DATA (k : Nat) : Fld := ⟨Reg.HQ_DATA k, 0, 32⟩

/-- HQ_PUSH, 17, R368. -/
def Reg.HQ_PUSH : Nat := 2359392
def Reg.HQ_PUSH.TAG : Fld := ⟨Reg.HQ_PUSH, 16, 16⟩
def Reg.HQ_PUSH.LAST : Fld := ⟨Reg.HQ_PUSH, 15, 1⟩
def Reg.HQ_PUSH.VALID : Fld := ⟨Reg.HQ_PUSH, 8, 6⟩
def Reg.HQ_PUSH.QUEUE : Fld := ⟨Reg.HQ_PUSH, 0, 5⟩

/-- HQ_RESULT, 17, R368. -/
def Reg.HQ_RESULT : Nat := 2359396
def Reg.HQ_RESULT.TAG : Fld := ⟨Reg.HQ_RESULT, 16, 16⟩
def Reg.HQ_RESULT.STATUS : Fld := ⟨Reg.HQ_RESULT, 0, 3⟩

/-- Q_CFG, 17, R368. -/
def Reg.Q_CFG (k : Nat) : Nat := 2363392 + 32 * k
def Reg.Q_CFG.MODE (k : Nat) : Fld := ⟨Reg.Q_CFG k, 30, 2⟩
def Reg.Q_CFG.HWM (k : Nat) : Fld := ⟨Reg.Q_CFG k, 16, 9⟩
def Reg.Q_CFG.LWM (k : Nat) : Fld := ⟨Reg.Q_CFG k, 0, 9⟩

/-- Q_STAT, 17, R368. -/
def Reg.Q_STAT (k : Nat) : Nat := 2363396 + 32 * k
def Reg.Q_STAT.DEPTH (k : Nat) : Fld := ⟨Reg.Q_STAT k, 16, 10⟩
def Reg.Q_STAT.CFG_REFUSED (k : Nat) : Fld := ⟨Reg.Q_STAT k, 13, 1⟩
def Reg.Q_STAT.ABOVE (k : Nat) : Fld := ⟨Reg.Q_STAT k, 12, 1⟩
def Reg.Q_STAT.BELOW (k : Nat) : Fld := ⟨Reg.Q_STAT k, 11, 1⟩
def Reg.Q_STAT.STAGED (k : Nat) : Fld := ⟨Reg.Q_STAT k, 10, 1⟩
def Reg.Q_STAT.CLOSED (k : Nat) : Fld := ⟨Reg.Q_STAT k, 9, 1⟩
def Reg.Q_STAT.FILL (k : Nat) : Fld := ⟨Reg.Q_STAT k, 0, 6⟩

/-- Q_CNT, 17, R368. -/
def Reg.Q_CNT (k : Nat) : Nat := 2363400 + 32 * k
def Reg.Q_CNT.PUSHED (k : Nat) : Fld := ⟨Reg.Q_CNT k, 0, 32⟩

/-- Q_ERR, 17, R368. -/
def Reg.Q_ERR (k : Nat) : Nat := 2363404 + 32 * k
def Reg.Q_ERR.STALLS (k : Nat) : Fld := ⟨Reg.Q_ERR k, 16, 16⟩
def Reg.Q_ERR.RECORD_BAD (k : Nat) : Fld := ⟨Reg.Q_ERR k, 8, 8⟩

/-- Q_CTRL, 17, R368. -/
def Reg.Q_CTRL (k : Nat) : Nat := 2363408 + 32 * k
def Reg.Q_CTRL.FLUSH (k : Nat) : Fld := ⟨Reg.Q_CTRL k, 0, 1⟩

/-- IMG_SEQ_A, 18, R381. -/
def Reg.IMG_SEQ_A : Nat := 2490368
def Reg.IMG_SEQ_A.SEQ : Fld := ⟨Reg.IMG_SEQ_A, 0, 32⟩

/-- IMG_SEQ_B, 18, R381. -/
def Reg.IMG_SEQ_B : Nat := 2490372
def Reg.IMG_SEQ_B.SEQ : Fld := ⟨Reg.IMG_SEQ_B, 0, 32⟩

/-- IMG_CHK, 18, R381. -/
def Reg.IMG_CHK : Nat := 2490376
def Reg.IMG_CHK.REASON_B : Fld := ⟨Reg.IMG_CHK, 16, 4⟩
def Reg.IMG_CHK.REASON_A : Fld := ⟨Reg.IMG_CHK, 0, 4⟩

/-- IMG_REJ_TAG, 18, R381. -/
def Reg.IMG_REJ_TAG : Nat := 2490380
def Reg.IMG_REJ_TAG.VALUE : Fld := ⟨Reg.IMG_REJ_TAG, 0, 32⟩

/-- IMG_REJ_OFS, 18, R381. -/
def Reg.IMG_REJ_OFS : Nat := 2490384
def Reg.IMG_REJ_OFS.VALUE : Fld := ⟨Reg.IMG_REJ_OFS, 0, 32⟩

/-- IMG_CTRL, 18, R381. -/
def Reg.IMG_CTRL : Nat := 2490388
def Reg.IMG_CTRL.ABORT : Fld := ⟨Reg.IMG_CTRL, 2, 1⟩
def Reg.IMG_CTRL.COMMIT : Fld := ⟨Reg.IMG_CTRL, 1, 1⟩
def Reg.IMG_CTRL.BEGIN : Fld := ⟨Reg.IMG_CTRL, 0, 1⟩

/-- IMG_STAT, 18, R381. -/
def Reg.IMG_STAT : Nat := 2490392
def Reg.IMG_STAT.REASON : Fld := ⟨Reg.IMG_STAT, 16, 4⟩
def Reg.IMG_STAT.BUSY : Fld := ⟨Reg.IMG_STAT, 10, 1⟩
def Reg.IMG_STAT.SEQ_ERR : Fld := ⟨Reg.IMG_STAT, 9, 1⟩
def Reg.IMG_STAT.TARGET : Fld := ⟨Reg.IMG_STAT, 8, 1⟩
def Reg.IMG_STAT.STATUS : Fld := ⟨Reg.IMG_STAT, 3, 3⟩
def Reg.IMG_STAT.PHASE : Fld := ⟨Reg.IMG_STAT, 0, 3⟩

/-- IMG_OFS, 18, R381. -/
def Reg.IMG_OFS : Nat := 2490396
def Reg.IMG_OFS.VALUE : Fld := ⟨Reg.IMG_OFS, 0, 32⟩

/-- IMG_DATA, 18, R381. -/
def Reg.IMG_DATA : Nat := 2490400
def Reg.IMG_DATA.VALUE : Fld := ⟨Reg.IMG_DATA, 0, 32⟩

/-- FL_INFO, 18, R381. -/
def Reg.FL_INFO : Nat := 2490432
def Reg.FL_INFO.SIZE_MIB : Fld := ⟨Reg.FL_INFO, 16, 16⟩
def Reg.FL_INFO.PRESENT : Fld := ⟨Reg.FL_INFO, 0, 1⟩

/-- FL_ADDR, 18, R381. -/
def Reg.FL_ADDR : Nat := 2490436
def Reg.FL_ADDR.VALUE : Fld := ⟨Reg.FL_ADDR, 0, 32⟩

/-- FL_DATA, 18, R381. -/
def Reg.FL_DATA : Nat := 2490440
def Reg.FL_DATA.VALUE : Fld := ⟨Reg.FL_DATA, 0, 32⟩

/-- LC_STATE, 19, R400. -/
def Reg.LC_STATE : Nat := 2621440
def Reg.LC_STATE.SVC_MODE : Fld := ⟨Reg.LC_STATE, 8, 1⟩
def Reg.LC_STATE.STATE : Fld := ⟨Reg.LC_STATE, 0, 3⟩

/-- LC_CTRL, 19, R400. -/
def Reg.LC_CTRL : Nat := 2621444
def Reg.LC_CTRL.TAG : Fld := ⟨Reg.LC_CTRL, 16, 16⟩
def Reg.LC_CTRL.TARGET : Fld := ⟨Reg.LC_CTRL, 0, 3⟩

/-- LC_RESULT, 19, R400. -/
def Reg.LC_RESULT : Nat := 2621448
def Reg.LC_RESULT.TAG : Fld := ⟨Reg.LC_RESULT, 16, 16⟩
def Reg.LC_RESULT.STATUS : Fld := ⟨Reg.LC_RESULT, 0, 3⟩

/-- ST_STAT, 19, R400. -/
def Reg.ST_STAT : Nat := 2621456
def Reg.ST_STAT.ELEMENT : Fld := ⟨Reg.ST_STAT, 24, 8⟩
def Reg.ST_STAT.GROUP : Fld := ⟨Reg.ST_STAT, 20, 4⟩
def Reg.ST_STAT.CARRIED : Fld := ⟨Reg.ST_STAT, 16, 1⟩
def Reg.ST_STAT.FAILS : Fld := ⟨Reg.ST_STAT, 8, 8⟩
def Reg.ST_STAT.PHASE : Fld := ⟨Reg.ST_STAT, 0, 3⟩

/-- REP_STAT, 19, R400. -/
def Reg.REP_STAT : Nat := 2621460
def Reg.REP_STAT.CORES : Fld := ⟨Reg.REP_STAT, 30, 2⟩
def Reg.REP_STAT.ENGINES : Fld := ⟨Reg.REP_STAT, 28, 2⟩
def Reg.REP_STAT.PIPES : Fld := ⟨Reg.REP_STAT, 24, 4⟩
def Reg.REP_STAT.SRAM_MIN : Fld := ⟨Reg.REP_STAT, 19, 5⟩
def Reg.REP_STAT.DRAM_MIN : Fld := ⟨Reg.REP_STAT, 10, 9⟩
def Reg.REP_STAT.COPY : Fld := ⟨Reg.REP_STAT, 1, 1⟩
def Reg.REP_STAT.VALID : Fld := ⟨Reg.REP_STAT, 0, 1⟩

/-- REP_SEQ, 19, R400. -/
def Reg.REP_SEQ : Nat := 2621464
def Reg.REP_SEQ.SEQ : Fld := ⟨Reg.REP_SEQ, 0, 32⟩

/-- EL_SEL, 19, R400. -/
def Reg.EL_SEL : Nat := 2621472
def Reg.EL_SEL.ELEMENT : Fld := ⟨Reg.EL_SEL, 0, 8⟩

/-- EL_STAT, 19, R400. -/
def Reg.EL_STAT : Nat := 2621476
def Reg.EL_STAT.UNTESTED : Fld := ⟨Reg.EL_STAT, 12, 4⟩
def Reg.EL_STAT.STATE : Fld := ⟨Reg.EL_STAT, 8, 2⟩
def Reg.EL_STAT.SUBST : Fld := ⟨Reg.EL_STAT, 0, 8⟩

/-- ROT_CFG, 19, R400. -/
def Reg.ROT_CFG : Nat := 2621488
def Reg.ROT_CFG.PERIOD : Fld := ⟨Reg.ROT_CFG, 16, 16⟩
def Reg.ROT_CFG.EN : Fld := ⟨Reg.ROT_CFG, 0, 1⟩

/-- ROT_STAT, 19, R400. -/
def Reg.ROT_STAT : Nat := 2621492
def Reg.ROT_STAT.ENGINE : Fld := ⟨Reg.ROT_STAT, 28, 4⟩
def Reg.ROT_STAT.UNDER_TEST : Fld := ⟨Reg.ROT_STAT, 23, 5⟩
def Reg.ROT_STAT.SPARE : Fld := ⟨Reg.ROT_STAT, 18, 5⟩
def Reg.ROT_STAT.SUSPENDED : Fld := ⟨Reg.ROT_STAT, 3, 1⟩
def Reg.ROT_STAT.PHASE : Fld := ⟨Reg.ROT_STAT, 0, 3⟩

/-- ROT_COUNT, 19, R400. -/
def Reg.ROT_COUNT : Nat := 2621496
def Reg.ROT_COUNT.COUNT : Fld := ⟨Reg.ROT_COUNT, 0, 32⟩

/-- BIST_CTRL, 19, R400. -/
def Reg.BIST_CTRL : Nat := 2621504
def Reg.BIST_CTRL.TAG : Fld := ⟨Reg.BIST_CTRL, 16, 16⟩
def Reg.BIST_CTRL.RESTORE : Fld := ⟨Reg.BIST_CTRL, 9, 1⟩
def Reg.BIST_CTRL.RUN : Fld := ⟨Reg.BIST_CTRL, 8, 1⟩
def Reg.BIST_CTRL.ELEMENT : Fld := ⟨Reg.BIST_CTRL, 0, 8⟩

/-- BIST_STAT, 19, R400. -/
def Reg.BIST_STAT : Nat := 2621508
def Reg.BIST_STAT.TAG : Fld := ⟨Reg.BIST_STAT, 16, 16⟩
def Reg.BIST_STAT.CONSEC_PASS : Fld := ⟨Reg.BIST_STAT, 8, 8⟩
def Reg.BIST_STAT.STATUS : Fld := ⟨Reg.BIST_STAT, 0, 3⟩

/-- LOG_WPTR, 20, R420. -/
def Reg.LOG_WPTR : Nat := 131072
def Reg.LOG_WPTR.COUNT : Fld := ⟨Reg.LOG_WPTR, 0, 32⟩

/-- LOG_RPTR, 20, R420. -/
def Reg.LOG_RPTR : Nat := 131076
def Reg.LOG_RPTR.COUNT : Fld := ⟨Reg.LOG_RPTR, 0, 32⟩

/-- LOG_STAT, 20, R420. -/
def Reg.LOG_STAT : Nat := 131080
def Reg.LOG_STAT.LOST : Fld := ⟨Reg.LOG_STAT, 16, 16⟩
def Reg.LOG_STAT.OVERFLOW : Fld := ⟨Reg.LOG_STAT, 15, 1⟩
def Reg.LOG_STAT.EVT : Fld := ⟨Reg.LOG_STAT, 14, 1⟩

/-- LOG_UNREAD, 20, R420. -/
def Reg.LOG_UNREAD : Nat := 131084
def Reg.LOG_UNREAD.UNREAD : Fld := ⟨Reg.LOG_UNREAD, 0, 17⟩

/-- LOG_CFG, 20, R420. -/
def Reg.LOG_CFG : Nat := 131088
def Reg.LOG_CFG.EVT_DELAY : Fld := ⟨Reg.LOG_CFG, 16, 16⟩
def Reg.LOG_CFG.EVT_LEVEL : Fld := ⟨Reg.LOG_CFG, 0, 16⟩

/-- ARC_MASK_LO, 20, R420. -/
def Reg.ARC_MASK_LO : Nat := 131104
def Reg.ARC_MASK_LO.MASK : Fld := ⟨Reg.ARC_MASK_LO, 0, 32⟩

/-- ARC_MASK_HI, 20, R420. -/
def Reg.ARC_MASK_HI : Nat := 131108
def Reg.ARC_MASK_HI.MASK : Fld := ⟨Reg.ARC_MASK_HI, 0, 32⟩

/-- ARC_STAT, 20, R420. -/
def Reg.ARC_STAT : Nat := 131112
def Reg.ARC_STAT.VALID : Fld := ⟨Reg.ARC_STAT, 31, 1⟩
def Reg.ARC_STAT.FAILED : Fld := ⟨Reg.ARC_STAT, 30, 1⟩
def Reg.ARC_STAT.PENDING : Fld := ⟨Reg.ARC_STAT, 0, 7⟩

/-- ARC_PSEQ, 20, R420. -/
def Reg.ARC_PSEQ : Nat := 131116
def Reg.ARC_PSEQ.PSEQ : Fld := ⟨Reg.ARC_PSEQ, 0, 32⟩

/-- ARC_ADDR, 20, R420. -/
def Reg.ARC_ADDR : Nat := 131120
def Reg.ARC_ADDR.ADDR : Fld := ⟨Reg.ARC_ADDR, 0, 32⟩

/-- SVC_WRITES, 20, R420. -/
def Reg.SVC_WRITES : Nat := 131136
def Reg.SVC_WRITES.COUNT : Fld := ⟨Reg.SVC_WRITES, 0, 32⟩

/-- SVC_STAT, 20, R420. -/
def Reg.SVC_STAT : Nat := 131140
def Reg.SVC_STAT.UDP_BAD : Fld := ⟨Reg.SVC_STAT, 24, 8⟩
def Reg.SVC_STAT.UDP_DROP : Fld := ⟨Reg.SVC_STAT, 16, 8⟩
def Reg.SVC_STAT.REPLAYS : Fld := ⟨Reg.SVC_STAT, 8, 8⟩

/-- SVC_LAST_IP, 20, R420. -/
def Reg.SVC_LAST_IP : Nat := 131144
def Reg.SVC_LAST_IP.ADDR : Fld := ⟨Reg.SVC_LAST_IP, 0, 32⟩

/-- SVC_LAST_SRC, 20, R420. -/
def Reg.SVC_LAST_SRC : Nat := 131148
def Reg.SVC_LAST_SRC.PORT : Fld := ⟨Reg.SVC_LAST_SRC, 16, 16⟩
def Reg.SVC_LAST_SRC.ETH : Fld := ⟨Reg.SVC_LAST_SRC, 1, 1⟩
def Reg.SVC_LAST_SRC.UDP : Fld := ⟨Reg.SVC_LAST_SRC, 0, 1⟩

/-- PT_STAT, 21, R434. -/
def Reg.PT_STAT : Nat := 2752512
def Reg.PT_STAT.SENSORS_OK : Fld := ⟨Reg.PT_STAT, 16, 5⟩
def Reg.PT_STAT.SENSOR_BAD : Fld := ⟨Reg.PT_STAT, 11, 1⟩
def Reg.PT_STAT.STOP : Fld := ⟨Reg.PT_STAT, 10, 1⟩
def Reg.PT_STAT.LEVEL : Fld := ⟨Reg.PT_STAT, 8, 2⟩
def Reg.PT_STAT.CREDIT_LOCK : Fld := ⟨Reg.PT_STAT, 1, 1⟩
def Reg.PT_STAT.BOOST : Fld := ⟨Reg.PT_STAT, 0, 1⟩

/-- PT_TJ, 21, R434. -/
def Reg.PT_TJ : Nat := 2752516
def Reg.PT_TJ.MAX : Fld := ⟨Reg.PT_TJ, 16, 16⟩
def Reg.PT_TJ.TJ : Fld := ⟨Reg.PT_TJ, 0, 16⟩

/-- PT_POWER, 21, R434. -/
def Reg.PT_POWER : Nat := 2752520
def Reg.PT_POWER.PEAK : Fld := ⟨Reg.PT_POWER, 16, 16⟩
def Reg.PT_POWER.POWER : Fld := ⟨Reg.PT_POWER, 0, 16⟩

/-- PT_CREDIT, 21, R434. -/
def Reg.PT_CREDIT : Nat := 2752524
def Reg.PT_CREDIT.CREDIT : Fld := ⟨Reg.PT_CREDIT, 0, 16⟩

/-- PT_CFG, 21, R434. -/
def Reg.PT_CFG : Nat := 2752528
def Reg.PT_CFG.BOOST_EN : Fld := ⟨Reg.PT_CFG, 0, 1⟩

/-- PT_CTRL, 21, R434. -/
def Reg.PT_CTRL : Nat := 2752532
def Reg.PT_CTRL.CLR_MAX : Fld := ⟨Reg.PT_CTRL, 0, 1⟩

/-- PT_LIFE_EQH, 21, R434. -/
def Reg.PT_LIFE_EQH : Nat := 2752544
def Reg.PT_LIFE_EQH.VALUE : Fld := ⟨Reg.PT_LIFE_EQH, 0, 32⟩

/-- PT_LIFE_FRAC, 21, R434. -/
def Reg.PT_LIFE_FRAC : Nat := 2752548
def Reg.PT_LIFE_FRAC.VALUE : Fld := ⟨Reg.PT_LIFE_FRAC, 0, 32⟩

/-- PT_LIFE_AF, 21, R434. -/
def Reg.PT_LIFE_AF : Nat := 2752552
def Reg.PT_LIFE_AF.VALUE : Fld := ⟨Reg.PT_LIFE_AF, 0, 32⟩

/-- PT_LIFE_POWERED, 21, R434. -/
def Reg.PT_LIFE_POWERED : Nat := 2752556
def Reg.PT_LIFE_POWERED.VALUE : Fld := ⟨Reg.PT_LIFE_POWERED, 0, 32⟩

/-- The rows of the block at 0x0. -/
def Regs.rows0 : List RegRow :=
  [ ⟨0, 4, 1, 4, 1, 0x0, 0x0, 0x0, 0x0, 0x4B510256, 0x0⟩
  , ⟨4, 4, 1, 4, 1, 0x0, 0x0, 0x0, 0x0, 0x4201, 0x0⟩
  , ⟨16, 4, 1, 4, 1, 0x0, 0x10000, 0x0, 0x0, 0x0, 0x0⟩
  , ⟨20, 4, 1, 4, 1, 0x0, 0x0, 0x7, 0x0, 0x0, 0x0⟩
  , ⟨24, 4, 1, 4, 1, 0x0, 0x0, 0x0, 0x0, 0x0, 0x0⟩
  , ⟨28, 4, 1, 4, 1, 0x0, 0x0, 0x0, 0x0, 0x0, 0x0⟩ ]

/-- The rows of the block at 0x10000. -/
def Regs.rows1 : List RegRow :=
  [ ⟨65536, 4, 1, 4, 1, 0x0, 0x0, 0x0, 0x0, 0x0, 0x0⟩
  , ⟨65540, 4, 1, 4, 1, 0x0, 0x0, 0x0, 0x0, 0x0, 0x0⟩
  , ⟨65544, 4, 1, 4, 1, 0x0, 0x0, 0x0, 0x0, 0x0, 0x0⟩
  , ⟨65548, 4, 1, 4, 1, 0x0, 0x0, 0x0, 0x0, 0x0, 0x0⟩
  , ⟨67584, 4, 1, 4, 1, 0xFFFFFFFF, 0x0, 0x0, 0x0, 0x0, 0x0⟩
  , ⟨67588, 4, 1, 4, 1, 0xFFFFFFFF, 0x0, 0x0, 0x0, 0x0, 0x0⟩
  , ⟨67592, 4, 1, 4, 1, 0xFFFFFFFF, 0x0, 0x0, 0x0, 0x0, 0x0⟩
  , ⟨67596, 4, 1, 4, 1, 0x3FFF7, 0x0, 0x0, 0x0, 0x0, 0x0⟩
  , ⟨67600, 4, 1, 4, 1, 0x0, 0x0, 0xFFFF, 0x0, 0x0, 0x0⟩
  , ⟨67604, 4, 1, 4, 1, 0x0, 0x0, 0xFFFF03FF, 0x0, 0x0, 0x0⟩
  , ⟨67608, 4, 1, 4, 1, 0x0, 0x0, 0x0, 0x0, 0x0, 0x0⟩
  , ⟨67612, 4, 1, 4, 1, 0x0, 0x0, 0x0, 0x0, 0x0, 0x0⟩
  , ⟨67840, 4, 32, 4, 1, 0x0, 0x0, 0x0, 0x0, 0x0, 0x0⟩
  , ⟨65792, 64, 8, 4, 1, 0x0, 0x0, 0x0, 0x1FF07, 0x0, 0x0⟩
  , ⟨65796, 64, 8, 4, 1, 0x0, 0x0, 0x0, 0xFFFFFFFF, 0x0, 0x0⟩
  , ⟨65800, 64, 8, 4, 1, 0x0, 0x0, 0x0, 0x0, 0x0, 0x0⟩
  , ⟨65804, 64, 8, 4, 1, 0x0, 0x0, 0x0, 0x0, 0x0, 0x0⟩
  , ⟨65808, 64, 8, 4, 1, 0x0, 0x0, 0x0, 0x0, 0x0, 0x0⟩
  , ⟨65812, 64, 8, 4, 1, 0xFFFFFFFF, 0x0, 0x0, 0xFFFFFFFF, 0x0, 0x0⟩
  , ⟨65816, 64, 8, 4, 1, 0xFFFFFFFF, 0x0, 0x0, 0x0, 0x0, 0x0⟩
  , ⟨65820, 64, 8, 4, 1, 0xFFFFFFFF, 0x0, 0x0, 0x0, 0x0, 0x0⟩
  , ⟨65824, 64, 8, 4, 1, 0x0, 0x0, 0x3, 0x0, 0x0, 0x0⟩
  , ⟨65828, 64, 8, 4, 1, 0x0, 0x4, 0x0, 0x0, 0x0, 0x0⟩ ]

/-- The rows of the block at 0x40000. -/
def Regs.rows4 : List RegRow :=
  [ ⟨294912, 64, 512, 4, 1, 0x0, 0x0, 0x0, 0x1FF03FF, 0x0, 0x0⟩
  , ⟨294916, 64, 512, 4, 1, 0x0, 0x0, 0x0, 0x0, 0x0, 0x0⟩
  , ⟨294920, 64, 512, 4, 1, 0x0, 0x0, 0x3F, 0x0, 0x0, 0x0⟩
  , ⟨294924, 64, 512, 4, 1, 0x0, 0x0, 0x0, 0x0, 0x0, 0x0⟩
  , ⟨294928, 64, 512, 4, 1, 0xFFFF, 0x0, 0x0, 0x0, 0xFFFF, 0x0⟩
  , ⟨294932, 64, 512, 4, 1, 0x0, 0x0, 0x0, 0x0, 0x0, 0x0⟩
  , ⟨294936, 64, 512, 4, 1, 0x0, 0x0, 0x0, 0x0, 0x0, 0x0⟩
  , ⟨294940, 64, 512, 4, 1, 0x0, 0x0, 0x0, 0xFFFFFFFF, 0x0, 0x0⟩
  , ⟨294944, 64, 512, 4, 1, 0x0, 0x0, 0x0, 0xFFFFFFFF, 0x0, 0x0⟩
  , ⟨294948, 64, 512, 4, 1, 0x0, 0x0, 0x0, 0xFFFFFFFF, 0x0, 0x0⟩
  , ⟨294952, 64, 512, 4, 1, 0x0, 0x0, 0x0, 0xFFFFFFFF, 0x0, 0x0⟩
  , ⟨294956, 64, 512, 4, 1, 0x0, 0x0, 0x0, 0xFFFFFFFF, 0x0, 0x0⟩
  , ⟨262144, 4, 1, 4, 1, 0x0, 0x0, 0x0, 0xFFFF00FF, 0x0, 0x0⟩
  , ⟨262148, 4, 1, 4, 1, 0x0, 0x0, 0x0, 0x0, 0x0, 0x0⟩
  , ⟨262208, 4, 8, 4, 1, 0xFFFFFFFF, 0x0, 0x0, 0x0, 0x0, 0x0⟩
  , ⟨262240, 4, 1, 4, 1, 0x0, 0x0, 0xFFFF0FFF, 0x0, 0x0, 0x0⟩
  , ⟨262244, 4, 1, 4, 1, 0x0, 0x0, 0x0, 0x0, 0x0, 0x0⟩
  , ⟨262400, 4, 16, 4, 1, 0x0, 0x0, 0x0, 0x0, 0x0, 0x2000000⟩
  , ⟨266240, 16, 64, 4, 1, 0x0, 0x0, 0x0, 0x3FFFF, 0x0, 0x0⟩
  , ⟨266244, 16, 64, 4, 1, 0x0, 0x0, 0x0, 0x0, 0x0, 0x0⟩
  , ⟨266248, 16, 64, 4, 1, 0x0, 0x1, 0x0, 0x0, 0x0, 0x0⟩
  , ⟨278528, 4, 576, 4, 1, 0x0, 0x0, 0x0, 0x0, 0x0, 0x0⟩
  , ⟨286720, 4, 1, 4, 1, 0x0, 0x0, 0x0, 0x0, 0x0, 0x0⟩
  , ⟨286724, 4, 1, 4, 1, 0x0, 0x0, 0x0, 0x0, 0x0, 0x0⟩
  , ⟨286728, 4, 1, 4, 1, 0x0, 0x0, 0x1, 0x0, 0x0, 0x0⟩
  , ⟨286976, 8, 33, 4, 1, 0x0, 0x0, 0x0, 0xFF, 0x0, 0x0⟩
  , ⟨286980, 8, 33, 4, 1, 0x0, 0x0, 0x0, 0x0, 0x0, 0x0⟩ ]

/-- The rows of the block at 0x100000. -/
def Regs.rows16 : List RegRow :=
  [ ⟨1048704, 256, 256, 4, 1, 0x0, 0x0, 0x0, 0xFFFFFFFF, 0x0, 0x0⟩
  , ⟨1048708, 256, 256, 4, 1, 0x0, 0x0, 0x0, 0xFFFFFFFF, 0x0, 0x0⟩
  , ⟨1048712, 256, 256, 4, 1, 0x0, 0x0, 0x0, 0xFFFFFFFF, 0x0, 0x0⟩
  , ⟨1048716, 256, 256, 4, 1, 0x0, 0x0, 0x0, 0x1, 0x0, 0x0⟩
  , ⟨1048720, 256, 256, 4, 1, 0x0, 0x0, 0x0, 0xFFFFFFFF, 0x0, 0x0⟩
  , ⟨1048724, 256, 256, 4, 1, 0x0, 0x0, 0x0, 0xFFFFFFFF, 0x0, 0x0⟩
  , ⟨1048728, 256, 256, 4, 1, 0x0, 0x0, 0x0, 0xFFFFFFFF, 0x0, 0x0⟩
  , ⟨1048732, 256, 256, 4, 1, 0x0, 0x0, 0x0, 0xFFFFFFFF, 0x0, 0x0⟩
  , ⟨1048736, 256, 256, 4, 1, 0xFFFFFFFF, 0x0, 0x0, 0x0, 0x0, 0x0⟩
  , ⟨1048740, 256, 256, 4, 1, 0xFFFFFFFF, 0x0, 0x0, 0x0, 0x0, 0x0⟩
  , ⟨1048744, 256, 256, 4, 1, 0xFFFFFFFF, 0x0, 0x0, 0x0, 0x0, 0x0⟩
  , ⟨1048748, 256, 256, 4, 1, 0x0, 0x0, 0xF, 0x0, 0x0, 0x0⟩
  , ⟨1048752, 256, 256, 4, 1, 0x0, 0x60, 0x0, 0x0, 0x0, 0x0⟩
  , ⟨1048576, 256, 256, 4, 1, 0x0, 0x0, 0x0, 0x3FF3FF3, 0x0, 0x0⟩
  , ⟨1048580, 256, 256, 4, 1, 0x0, 0x10000, 0x0, 0x0, 0x0, 0x0⟩
  , ⟨1048584, 256, 256, 4, 1, 0x0, 0x0, 0x7, 0x0, 0x0, 0x0⟩
  , ⟨1048588, 256, 256, 4, 1, 0x0, 0x0, 0x0, 0x0, 0x0, 0x0⟩
  , ⟨1048592, 256, 256, 4, 1, 0x0, 0x0, 0x0, 0xFFFFFFFF, 0x0, 0x0⟩
  , ⟨1048596, 256, 256, 4, 1, 0x0, 0x0, 0x0, 0xFFFFFF, 0x0, 0x0⟩
  , ⟨1048600, 256, 256, 4, 1, 0xFFFFFFFF, 0x0, 0x0, 0xFFFFFFFF, 0x0, 0x0⟩
  , ⟨1048604, 256, 256, 4, 1, 0xFFFFFFFF, 0x0, 0x0, 0xFFFFFFFF, 0x0, 0x0⟩
  , ⟨1048608, 256, 256, 4, 1, 0xFFFF0003, 0x0, 0x0, 0xFFFF0003, 0x0, 0x0⟩
  , ⟨1048612, 256, 256, 4, 1, 0x0, 0x0, 0x0, 0xFFFF, 0x0, 0x0⟩
  , ⟨1048616, 256, 256, 4, 1, 0x0, 0x40, 0x0, 0x0, 0x0, 0x0⟩
  , ⟨1048620, 256, 256, 4, 1, 0x0, 0x0, 0x0, 0xFFFFFFFF, 0x0, 0x0⟩
  , ⟨1048624, 256, 256, 4, 1, 0x0, 0x0, 0x0, 0xFFFFFFFF, 0x0, 0x0⟩
  , ⟨1048628, 256, 256, 4, 1, 0x0, 0x0, 0x0, 0xFFFFFFFF, 0x0, 0x0⟩
  , ⟨1048632, 256, 256, 4, 1, 0x0, 0x0, 0x0, 0x0, 0x0, 0x0⟩
  , ⟨1048636, 256, 256, 4, 1, 0x0, 0x0, 0x0, 0x0, 0x0, 0x0⟩
  , ⟨1048640, 256, 256, 4, 1, 0xF3, 0x0, 0x0, 0xF3, 0x0, 0x0⟩
  , ⟨1048644, 256, 256, 4, 1, 0x0, 0x20000, 0x0, 0x0, 0x0, 0x0⟩ ]

/-- The rows of the block at 0x80000. -/
def Regs.rows8 : List RegRow :=
  [ ⟨524288, 16384, 18, 4, 1, 0x0, 0x0, 0x0, 0x11F1F, 0x0, 0x0⟩
  , ⟨524292, 16384, 18, 4, 1, 0x0, 0x1800000, 0x0, 0x0, 0x200000, 0x8000000⟩
  , ⟨524296, 16384, 16, 4, 1, 0x0, 0x0, 0x0, 0x0, 0x0, 0x0⟩
  , ⟨524300, 16384, 16, 4, 1, 0x0, 0x0, 0x3, 0x0, 0x0, 0x0⟩
  , ⟨524304, 16384, 16, 4, 1, 0x0, 0x0, 0x0, 0x0, 0x0, 0x0⟩
  , ⟨524320, 16384, 16, 4, 1, 0x1F013F, 0x0, 0x0, 0x0, 0x0, 0x0⟩
  , ⟨524324, 16384, 16, 4, 1, 0x0, 0x0, 0xFFFFFFF, 0x0, 0x0, 0x0⟩
  , ⟨524332, 16384, 16, 4, 1, 0x0, 0x0, 0x0, 0x0, 0x0, 0x0⟩
  , ⟨524328, 16384, 16, 4, 1, 0x0, 0x0, 0x1F0003, 0x0, 0x0, 0x0⟩
  , ⟨524544, 16384, 16, 4, 1, 0x7FF83FFF, 0x0, 0x0, 0x0, 0x1000, 0x0⟩
  , ⟨524548, 16384, 16, 4, 1, 0x1F0F, 0x0, 0x0, 0x0, 0x0, 0x0⟩
  , ⟨524552, 16384, 16, 4, 1, 0xFFFFFF, 0x0, 0x0, 0x0, 0x0, 0x0⟩
  , ⟨524556, 16384, 16, 4, 1, 0xFFFFFF, 0x0, 0x0, 0x0, 0x0, 0x0⟩
  , ⟨524560, 16384, 16, 4, 1, 0x0, 0x0, 0x7, 0x0, 0x0, 0x0⟩
  , ⟨524564, 16384, 16, 4, 1, 0x0, 0xC0, 0x0, 0x0, 0x0, 0x0⟩
  , ⟨524568, 16384, 16, 4, 1, 0x0, 0x0, 0x0, 0x0, 0x0, 0x0⟩
  , ⟨524576, 16384, 16, 4, 8, 0x1F3F, 0x0, 0x0, 0x0, 0x0, 0x0⟩
  , ⟨525312, 16384, 16, 64, 24, 0x0, 0x0, 0x0, 0x80FF02FF, 0x0, 0x0⟩
  , ⟨525316, 16384, 16, 64, 24, 0xFFFFFFFF, 0x0, 0x0, 0xFFFFFFFF, 0x0, 0x0⟩
  , ⟨525320, 16384, 16, 64, 24, 0xFFFFFFFF, 0x0, 0x0, 0xFFFFFFFF, 0x0, 0x0⟩
  , ⟨525324, 16384, 16, 64, 24, 0xFFFFFF01, 0x0, 0x0, 0xFFFFFF01, 0x0, 0x0⟩
  , ⟨525328, 16384, 16, 64, 24, 0x0, 0x30000, 0x0, 0x0, 0x0, 0x0⟩
  , ⟨525332, 16384, 16, 64, 24, 0x0, 0x0, 0x0, 0x0, 0x0, 0x0⟩
  , ⟨525336, 16384, 16, 64, 24, 0x0, 0x0, 0x0, 0x0, 0x0, 0x0⟩
  , ⟨525340, 16384, 16, 64, 24, 0x0, 0x0, 0x0, 0x0, 0x0, 0x0⟩
  , ⟨525344, 16384, 16, 64, 24, 0x0, 0x0, 0x0, 0x0, 0x0, 0x0⟩
  , ⟨528384, 16384, 16, 4, 1, 0x0, 0x0, 0x0, 0x0, 0x0, 0x0⟩
  , ⟨528388, 16384, 16, 4, 1, 0x0, 0x0, 0x0, 0x0, 0x0, 0x0⟩
  , ⟨528392, 16384, 16, 4, 1, 0x0, 0x7, 0x0, 0x0, 0x0, 0x0⟩
  , ⟨528396, 16384, 16, 4, 1, 0x0, 0x0, 0x1, 0x0, 0x0, 0x0⟩
  , ⟨528400, 16384, 16, 4, 1, 0x0, 0x0, 0x0, 0xFFFF0000, 0x33E1, 0x0⟩
  , ⟨528416, 16384, 16, 4, 1, 0x3FFFF, 0x0, 0x0, 0x0, 0x0, 0x0⟩
  , ⟨528420, 16384, 16, 4, 1, 0xFFFFFFFF, 0x0, 0x0, 0x0, 0x0, 0x0⟩
  , ⟨528640, 16384, 16, 8, 32, 0x0, 0x0, 0x0, 0xCC003FFF, 0x0, 0x0⟩
  , ⟨528644, 16384, 16, 8, 32, 0x0, 0x0, 0x0, 0xFFFFFF, 0x0, 0x0⟩ ]

/-- The rows of the block at 0x120000. -/
def Regs.rows18 : List RegRow :=
  [ ⟨1196032, 64, 256, 4, 1, 0x0, 0x0, 0x0, 0xFF00F03F, 0x0, 0x0⟩
  , ⟨1196036, 64, 256, 4, 1, 0x0, 0x0, 0x0, 0xFFFFFFFF, 0x0, 0x0⟩
  , ⟨1196040, 64, 256, 4, 1, 0x0, 0x0, 0x0, 0xFFFFFFFF, 0x0, 0x0⟩
  , ⟨1196044, 64, 256, 4, 1, 0x0, 0x0, 0x0, 0xFFFFFFFF, 0x0, 0x0⟩
  , ⟨1196048, 64, 256, 4, 1, 0x0, 0x0, 0x0, 0x0, 0x0, 0x0⟩
  , ⟨1196052, 64, 256, 4, 1, 0x0, 0x0, 0x0, 0x0, 0x0, 0x0⟩
  , ⟨1196056, 64, 256, 4, 1, 0x0, 0x0, 0x0, 0x0, 0x0, 0x0⟩
  , ⟨1196060, 64, 256, 4, 1, 0x0, 0x0, 0x0, 0x0, 0x0, 0x0⟩
  , ⟨1196064, 64, 256, 4, 1, 0x0, 0x0, 0x0, 0x0, 0x0, 0x0⟩
  , ⟨1196068, 64, 256, 4, 1, 0x0, 0x0, 0x0, 0x0, 0x0, 0x0⟩
  , ⟨1196080, 64, 256, 4, 1, 0xFFFFFFFF, 0x0, 0x0, 0x0, 0x0, 0x0⟩
  , ⟨1196084, 64, 256, 4, 1, 0xFFFFFFFF, 0x0, 0x0, 0x0, 0x0, 0x0⟩
  , ⟨1196072, 64, 256, 4, 1, 0x0, 0x0, 0x0, 0x0, 0x0, 0x0⟩
  , ⟨1196076, 64, 256, 4, 1, 0x0, 0x2, 0x0, 0x0, 0x0, 0x0⟩
  , ⟨1196088, 64, 256, 4, 1, 0x0, 0x0, 0x3, 0x0, 0x0, 0x0⟩
  , ⟨1179652, 64, 8, 4, 1, 0x0, 0x0, 0x0, 0xFFFFFFFF, 0x0, 0x0⟩
  , ⟨1179684, 64, 8, 4, 1, 0x0, 0x0, 0x0, 0xFF00FFFF, 0x0, 0x0⟩
  , ⟨1179672, 64, 8, 4, 1, 0x0, 0x0, 0x0, 0x0, 0x0, 0x0⟩
  , ⟨1179676, 64, 8, 4, 1, 0x0, 0x0, 0x0, 0x0, 0x0, 0x0⟩
  , ⟨1179680, 64, 8, 4, 1, 0x0, 0x0, 0x2, 0x0, 0x0, 0x0⟩
  , ⟨1179648, 64, 8, 4, 1, 0x0, 0x0, 0x0, 0xFFFFFFFF, 0x0, 0x0⟩
  , ⟨1179656, 64, 8, 4, 1, 0x0, 0x0, 0x0, 0x0, 0x0, 0x0⟩
  , ⟨1179660, 64, 8, 4, 1, 0x0, 0x0, 0x0, 0x0, 0x0, 0x0⟩
  , ⟨1179664, 64, 8, 4, 1, 0x0, 0x0, 0x0, 0x0, 0x0, 0x0⟩
  , ⟨1179668, 64, 8, 4, 1, 0x0, 0x0, 0x0, 0x0, 0x0, 0x0⟩
  , ⟨1183744, 64, 16, 4, 1, 0xFFFF0FFF, 0x0, 0x0, 0xFFFF0FFF, 0x0, 0x0⟩
  , ⟨1183748, 64, 16, 4, 1, 0xFFFFFFFF, 0x0, 0x0, 0x0, 0x0, 0x0⟩
  , ⟨1183752, 64, 16, 4, 1, 0xFFFFFFFF, 0x0, 0x0, 0x0, 0x0, 0x0⟩
  , ⟨1183756, 64, 16, 4, 1, 0xFFFFFFFF, 0x0, 0x0, 0x0, 0x0, 0x0⟩
  , ⟨1183760, 64, 16, 4, 1, 0xFFFFFFFF, 0x0, 0x0, 0x0, 0x0, 0x0⟩
  , ⟨1183764, 64, 16, 4, 1, 0xFFFF, 0x0, 0x0, 0x0, 0x0, 0x0⟩
  , ⟨1183768, 64, 16, 4, 1, 0x0, 0x0, 0x0, 0x0, 0x0, 0x0⟩
  , ⟨1183772, 64, 16, 4, 1, 0x0, 0x0, 0x0, 0x0, 0x0, 0x0⟩
  , ⟨1183776, 64, 16, 4, 1, 0x0, 0xFFFFFFFF, 0x0, 0x0, 0x0, 0x0⟩
  , ⟨1183780, 64, 16, 4, 1, 0x0, 0x0, 0x7, 0x0, 0x0, 0x0⟩
  , ⟨1187840, 64, 4, 4, 1, 0xFFFFFF0B, 0x0, 0x0, 0xFFFFFF0B, 0x0, 0x0⟩
  , ⟨1187844, 64, 4, 4, 1, 0xFFFFFFFF, 0x0, 0x0, 0xFFFFFFFF, 0x0, 0x0⟩
  , ⟨1187848, 64, 4, 4, 1, 0xFFFFFFFF, 0x0, 0x0, 0xFFFFFFFF, 0x0, 0x0⟩
  , ⟨1187852, 64, 4, 4, 1, 0xFFFFFFFF, 0x0, 0x0, 0xFFFFFFFF, 0x0, 0x0⟩
  , ⟨1187856, 64, 4, 4, 1, 0x0, 0x0, 0x0, 0x0, 0x0, 0x0⟩
  , ⟨1187860, 64, 4, 4, 1, 0x0, 0x8, 0x0, 0x0, 0x0, 0x0⟩
  , ⟨1187864, 64, 4, 4, 1, 0x0, 0x0, 0x1, 0x0, 0x0, 0x0⟩ ]

/-- The rows of the block at 0x140000. -/
def Regs.rows20 : List RegRow :=
  [ ⟨1310720, 4096, 16, 4, 1, 0x0, 0x0, 0x0, 0x1F07, 0x0, 0x0⟩
  , ⟨1310724, 4096, 16, 4, 1, 0x0, 0x200, 0x0, 0x0, 0x0, 0x0⟩
  , ⟨1310728, 4096, 16, 4, 1, 0x0, 0x0, 0x1F1F, 0x0, 0x0, 0x0⟩
  , ⟨1310732, 4096, 16, 4, 1, 0x0, 0x0, 0x0, 0x0, 0x0, 0x0⟩
  , ⟨1310736, 4096, 16, 4, 1, 0x0, 0x0, 0x0, 0x0, 0xFFFF, 0x0⟩
  , ⟨1310740, 4096, 16, 4, 1, 0x0, 0x0, 0x0, 0x0, 0xFFFF, 0x0⟩
  , ⟨1310752, 4096, 16, 4, 1, 0x0, 0x6, 0x0, 0x0, 0x0, 0x0⟩
  , ⟨1310976, 4096, 16, 4, 32, 0x0, 0x0, 0x0, 0xFFFFFFFF, 0x0, 0x0⟩
  , ⟨1311104, 4096, 16, 4, 32, 0xFFFFFFFF, 0x0, 0x0, 0xFFFFFFFF, 0x0, 0x0⟩
  , ⟨1312768, 4096, 16, 4, 1, 0xFFFFFFFF, 0x0, 0x0, 0x0, 0x0, 0x0⟩
  , ⟨1312772, 4096, 16, 4, 1, 0x0, 0x0, 0xFFFF1FFF, 0x0, 0x0, 0x0⟩
  , ⟨1312784, 4096, 16, 4, 8, 0xFFFFFFFF, 0x0, 0x0, 0x0, 0x0, 0x0⟩
  , ⟨1312816, 4096, 16, 4, 1, 0x0, 0x0, 0x0, 0x0, 0x0, 0x0⟩
  , ⟨1311744, 4096, 16, 32, 25, 0x0, 0x0, 0x0, 0x0, 0x0, 0x0⟩
  , ⟨1311748, 4096, 16, 32, 25, 0x0, 0x0, 0x0, 0x0, 0x0, 0x0⟩
  , ⟨1311752, 4096, 16, 32, 25, 0x0, 0x0, 0x0, 0x0, 0x0, 0x0⟩
  , ⟨1311756, 4096, 16, 32, 25, 0x0, 0x0, 0x0, 0x0, 0x0, 0x0⟩
  , ⟨1311760, 4096, 16, 32, 25, 0x0, 0x0, 0x0, 0x0, 0x0, 0x0⟩
  , ⟨1311764, 4096, 16, 32, 25, 0x0, 0x0, 0x0, 0x0, 0x0, 0x0⟩ ]

/-- The rows of the block at 0x160000. -/
def Regs.rows22 : List RegRow :=
  [ ⟨1441792, 4, 1, 4, 1, 0x0, 0x0, 0x0, 0x0, 0x0, 0x0⟩
  , ⟨1441796, 4, 1, 4, 1, 0xFFF, 0x0, 0x0, 0x0, 0x0, 0x0⟩
  , ⟨1442048, 4, 80, 4, 1, 0x0, 0x0, 0x0, 0x0, 0x0, 0x0⟩
  , ⟨1445888, 16, 256, 4, 1, 0x0, 0x0, 0x0, 0x80FFFFFF, 0x0, 0x0⟩
  , ⟨1445892, 16, 256, 4, 1, 0x0, 0x0, 0x0, 0x0, 0x0, 0x0⟩
  , ⟨1445896, 16, 256, 4, 1, 0x0, 0x0, 0x0, 0x0, 0x0, 0x0⟩
  , ⟨1445900, 16, 256, 4, 1, 0x0, 0x0, 0x0, 0x0, 0x0, 0x0⟩ ]

/-- The rows of the block at 0x180000. -/
def Regs.rows24 : List RegRow :=
  [ ⟨1572864, 4, 1, 4, 1, 0x0, 0x0, 0x0, 0xFFFFFF, 0x0, 0x0⟩
  , ⟨1572868, 4, 1, 4, 1, 0x0, 0x8000, 0x0, 0x0, 0x800040, 0x0⟩
  , ⟨1572872, 4, 1, 4, 1, 0x0, 0x0, 0x0, 0x0, 0x0, 0x0⟩
  , ⟨1572876, 4, 1, 4, 1, 0x0, 0x0, 0x0, 0xFFFFFFFF, 0x0, 0x0⟩
  , ⟨1572880, 4, 1, 4, 1, 0x0, 0x0, 0x0, 0x0, 0x0, 0x0⟩
  , ⟨1572884, 4, 1, 4, 1, 0x0, 0x0, 0x1, 0x0, 0x0, 0x0⟩
  , ⟨1572896, 4, 3, 4, 1, 0x0, 0x0, 0x0, 0x0, 0x0, 0x0⟩
  , ⟨1572928, 4, 1, 4, 1, 0x3FF, 0x0, 0x0, 0x0, 0x0, 0x0⟩
  , ⟨1572960, 4, 1, 4, 1, 0x0, 0x0, 0x0, 0x0, 0x0, 0x0⟩
  , ⟨1572964, 4, 7, 4, 1, 0x0, 0x0, 0x0, 0x0, 0x0, 0x0⟩
  , ⟨1576960, 64, 512, 4, 1, 0x0, 0x0, 0x0, 0x0, 0x0, 0x0⟩
  , ⟨1576964, 64, 512, 4, 1, 0x0, 0x0, 0x0, 0x0, 0x0, 0x0⟩
  , ⟨1576968, 64, 512, 4, 1, 0x0, 0x0, 0x0, 0x0, 0x7F800000, 0x0⟩
  , ⟨1576972, 64, 512, 4, 1, 0x0, 0x0, 0x0, 0x0, 0x7F800000, 0x0⟩
  , ⟨1576976, 64, 512, 4, 1, 0x0, 0x0, 0x0, 0x0, 0x7F800000, 0x0⟩
  , ⟨1576980, 64, 512, 4, 1, 0x0, 0x0, 0x0, 0x0, 0x0, 0x0⟩
  , ⟨1576984, 64, 512, 4, 1, 0x0, 0x0, 0x0, 0x0, 0x0, 0x0⟩
  , ⟨1576988, 64, 512, 4, 1, 0x0, 0x0, 0x0, 0x0, 0x0, 0x0⟩
  , ⟨1576992, 64, 512, 4, 1, 0x0, 0x0, 0x0, 0xFFFFFFFF, 0x0, 0x0⟩
  , ⟨1576996, 64, 512, 4, 1, 0x0, 0x0, 0x0, 0xFFFFFFFF, 0x0, 0x0⟩
  , ⟨1577000, 64, 512, 4, 1, 0x0, 0x0, 0x0, 0xFFFFFFFF, 0x0, 0x0⟩
  , ⟨1577004, 64, 512, 4, 1, 0x0, 0x0, 0x0, 0xFFFFFFFF, 0x0, 0x0⟩
  , ⟨1577008, 64, 512, 4, 1, 0x0, 0x0, 0x0, 0xFFFFFFFF, 0x0, 0x0⟩
  , ⟨1577012, 64, 512, 4, 1, 0x0, 0x0, 0x0, 0xFFFFFFFF, 0x0, 0x0⟩
  , ⟨1577016, 64, 512, 4, 1, 0x0, 0x0, 0x0, 0x3FF, 0x0, 0x0⟩
  , ⟨1609728, 128, 64, 4, 1, 0x0, 0x0, 0x0, 0x0, 0x0, 0x0⟩
  , ⟨1609792, 128, 64, 4, 16, 0x0, 0x0, 0x0, 0x0, 0x0, 0x0⟩
  , ⟨1617920, 64, 256, 4, 1, 0x1, 0x0, 0x0, 0x73, 0x0, 0x0⟩
  , ⟨1617924, 64, 256, 4, 3, 0x0, 0x0, 0x0, 0xFFFFFFFF, 0x0, 0x0⟩
  , ⟨1617936, 64, 256, 4, 3, 0x0, 0x0, 0x0, 0xFFFFFFFF, 0x0, 0x0⟩
  , ⟨1617948, 64, 256, 4, 4, 0x0, 0x0, 0x0, 0xFFFFFFFF, 0x0, 0x0⟩
  , ⟨1617964, 64, 256, 4, 1, 0x0, 0x0, 0x0, 0xFFFFFFFF, 0x0, 0x0⟩
  , ⟨1617968, 64, 256, 4, 1, 0x0, 0x0, 0x0, 0xFFFFFFFF, 0x0, 0x0⟩
  , ⟨1617972, 64, 256, 4, 3, 0x0, 0x0, 0x0, 0xFFFFFFFF, 0x0, 0x0⟩
  , ⟨1638400, 16, 1024, 4, 1, 0x0, 0x0, 0x0, 0x81FF01FF, 0x0, 0x0⟩
  , ⟨1638404, 16, 1024, 4, 1, 0x0, 0x0, 0x0, 0xFFFFFFFF, 0x0, 0x0⟩
  , ⟨1638408, 16, 1024, 4, 1, 0x0, 0x0, 0x0, 0xFFFFFFFF, 0x0, 0x0⟩
  , ⟨1638412, 16, 1024, 4, 1, 0x0, 0x0, 0x0, 0x0, 0x7F800000, 0x0⟩ ]

/-- The rows of the block at 0x1A0000. -/
def Regs.rows26 : List RegRow :=
  [ ⟨1703936, 256, 128, 4, 1, 0x0, 0x0, 0x0, 0xE7FFFFFF, 0x0, 0x0⟩
  , ⟨1703940, 256, 128, 4, 1, 0x0, 0x0, 0x0, 0x1FF007F, 0x0, 0x0⟩
  , ⟨1703944, 256, 128, 4, 1, 0x0, 0x0, 0x0, 0xFFFFFFFF, 0x0, 0x0⟩
  , ⟨1703948, 256, 128, 4, 1, 0x0, 0x0, 0x0, 0xFFFFFFFF, 0x0, 0x0⟩
  , ⟨1703952, 256, 128, 4, 1, 0x0, 0x0, 0x0, 0x0, 0x3, 0x0⟩
  , ⟨1703956, 256, 128, 4, 1, 0x0, 0x0, 0x0, 0x0, 0x0, 0x0⟩
  , ⟨1703960, 256, 128, 4, 1, 0x0, 0x0, 0x0, 0x0, 0x0, 0x0⟩
  , ⟨1703964, 256, 128, 4, 1, 0x0, 0x0, 0x0, 0x0, 0x0, 0x0⟩
  , ⟨1703968, 256, 128, 4, 1, 0x0, 0x0, 0x0, 0x0, 0x0, 0x0⟩
  , ⟨1703972, 256, 128, 4, 1, 0x0, 0x0, 0x0, 0x0, 0x7F800000, 0x0⟩
  , ⟨1703976, 256, 128, 4, 1, 0x0, 0x0, 0x0, 0x0, 0x0, 0x0⟩
  , ⟨1704000, 256, 128, 8, 16, 0x0, 0x0, 0x0, 0xC3FFFFFF, 0x0, 0x0⟩
  , ⟨1704004, 256, 128, 8, 16, 0x0, 0x0, 0x0, 0x0, 0x0, 0x0⟩
  , ⟨1736704, 64, 512, 4, 1, 0x0, 0x0, 0x0, 0x8000007F, 0x0, 0x0⟩
  , ⟨1736708, 64, 512, 4, 3, 0x0, 0x0, 0x0, 0xFFFFFFFF, 0x0, 0x0⟩
  , ⟨1736720, 64, 512, 4, 3, 0x0, 0x0, 0x0, 0xFFFFFFFF, 0x0, 0x0⟩
  , ⟨1736732, 64, 512, 4, 4, 0x0, 0x0, 0x0, 0xFFFFFFFF, 0x0, 0x0⟩
  , ⟨1769472, 4, 1, 4, 1, 0x0, 0x0, 0xFFFFFF7F, 0x0, 0x0, 0x0⟩
  , ⟨1769476, 4, 1, 4, 1, 0x0, 0x0, 0x0, 0x0, 0x0, 0x0⟩ ]

/-- The rows of the block at 0x1C0000. -/
def Regs.rows28 : List RegRow :=
  [ ⟨1835008, 4, 1, 4, 1, 0x0, 0x0, 0x0, 0x0, 0x0, 0x0⟩
  , ⟨1835016, 4, 1, 4, 1, 0x0, 0x0, 0x0, 0x0, 0x0, 0x0⟩
  , ⟨1835020, 4, 1, 4, 1, 0x0, 0x0, 0x0, 0x0, 0x0, 0x0⟩
  , ⟨1835024, 4, 1, 4, 1, 0x0, 0x0, 0x0, 0x0, 0x0, 0x0⟩
  , ⟨1835028, 4, 1, 4, 1, 0x0, 0x0, 0x0, 0x0, 0x0, 0x0⟩
  , ⟨1835040, 4, 1, 4, 1, 0x0, 0x0, 0x0, 0x0, 0xFFFF, 0x0⟩
  , ⟨1835044, 4, 1, 4, 1, 0x0, 0x0, 0x0, 0x0, 0xFFFF, 0x0⟩
  , ⟨1835056, 4, 1, 4, 1, 0x0, 0x0, 0x0, 0x0, 0x0, 0x0⟩
  , ⟨1835060, 4, 1, 4, 1, 0x0, 0x0, 0x0, 0x0, 0x0, 0x0⟩
  , ⟨1835072, 4, 1, 4, 1, 0x0, 0x0, 0x0, 0xFFFFFFFF, 0x0, 0x0⟩
  , ⟨1835076, 4, 1, 4, 1, 0x0, 0x0, 0x0, 0xFFFFFFFF, 0x0, 0x0⟩
  , ⟨1835264, 8, 16, 4, 1, 0x0, 0x0, 0x0, 0xFFFF0000, 0x0, 0x0⟩
  , ⟨1835268, 8, 16, 4, 1, 0x0, 0x0, 0x0, 0x0, 0x130000, 0x0⟩
  , ⟨1835520, 16, 8, 4, 1, 0x0, 0x0, 0x0, 0xFFFFF007, 0x0, 0x0⟩
  , ⟨1835524, 16, 8, 4, 1, 0x0, 0x0, 0x0, 0xFFFFFFFF, 0x0, 0x0⟩
  , ⟨1835528, 16, 8, 4, 1, 0x0, 0x0, 0x0, 0x0, 0x0, 0x0⟩
  , ⟨1839104, 32, 64, 4, 1, 0x0, 0x0, 0x0, 0xFFFFFFFF, 0x0, 0x0⟩
  , ⟨1839108, 32, 64, 4, 1, 0x0, 0x0, 0x0, 0xFFFFFFFF, 0x0, 0x0⟩
  , ⟨1839112, 32, 64, 4, 1, 0x0, 0x0, 0x0, 0xFFFFFFFF, 0x0, 0x0⟩
  , ⟨1839116, 32, 64, 4, 1, 0x0, 0x0, 0x0, 0x0, 0x0, 0x0⟩
  , ⟨1839120, 32, 64, 4, 1, 0x0, 0x0, 0x0, 0x0, 0x0, 0x0⟩
  , ⟨1839124, 32, 64, 4, 1, 0x0, 0x0, 0x0, 0x0, 0x0, 0x0⟩
  , ⟨1839128, 32, 64, 4, 1, 0x0, 0x0, 0x0, 0xFFFF, 0x0, 0x0⟩
  , ⟨1843200, 8, 256, 4, 1, 0x0, 0x0, 0x0, 0xFFFFFFFF, 0x0, 0x0⟩
  , ⟨1843204, 8, 256, 4, 1, 0x0, 0x0, 0x0, 0x0, 0x0, 0x0⟩
  , ⟨1851392, 32, 512, 4, 1, 0x0, 0x0, 0x0, 0x0, 0x0, 0x0⟩
  , ⟨1851396, 32, 512, 4, 1, 0x0, 0x0, 0x0, 0x0, 0x7F800000, 0x0⟩
  , ⟨1851400, 32, 512, 4, 1, 0x0, 0x0, 0x0, 0x0, 0x0, 0x0⟩
  , ⟨1851404, 32, 512, 4, 1, 0x0, 0x0, 0x0, 0xFFFFFFFF, 0x0, 0x0⟩
  , ⟨1851408, 32, 512, 4, 1, 0x0, 0x0, 0x0, 0xFFFFFFFF, 0x0, 0x0⟩
  , ⟨1851412, 32, 512, 4, 1, 0x0, 0x0, 0x0, 0xFFFFFFFF, 0x0, 0x0⟩
  , ⟨1851416, 32, 512, 4, 1, 0x0, 0x0, 0x0, 0xFFFFFFFF, 0x0, 0x0⟩
  , ⟨1851420, 32, 512, 4, 1, 0x0, 0x0, 0x0, 0xFFFFFFFF, 0x0, 0x0⟩ ]

/-- The rows of the block at 0x1E0000. -/
def Regs.rows30 : List RegRow :=
  [ ⟨1966080, 4, 1, 4, 1, 0x0, 0x0, 0x0, 0x1, 0x0, 0x0⟩
  , ⟨1966084, 4, 1, 4, 1, 0x0, 0x8000, 0x0, 0x0, 0x0, 0x0⟩
  , ⟨1966088, 4, 1, 4, 1, 0x0, 0x0, 0x3, 0x0, 0x0, 0x0⟩
  , ⟨1966092, 4, 1, 4, 1, 0x0, 0x0, 0x0, 0x0, 0x0, 0x0⟩
  , ⟨1966096, 4, 1, 4, 1, 0x0, 0x0, 0x0, 0x0, 0x0, 0x0⟩
  , ⟨1966100, 4, 1, 4, 1, 0x0, 0x0, 0x0, 0x0, 0x0, 0x0⟩
  , ⟨1966104, 4, 1, 4, 1, 0x0, 0x0, 0x0, 0x0, 0x0, 0x0⟩
  , ⟨1966112, 4, 8, 4, 1, 0x0, 0x0, 0x0, 0x0, 0x0, 0x0⟩
  , ⟨1966144, 4, 1, 4, 1, 0x0, 0x0, 0x0, 0x0, 0x0, 0x0⟩
  , ⟨1966148, 4, 1, 4, 1, 0x0, 0x0, 0x0, 0x0, 0x0, 0x0⟩
  , ⟨1966152, 4, 1, 4, 1, 0x0, 0x0, 0x0, 0x0, 0x0, 0x0⟩ ]

/-- The rows of the block at 0x200000. -/
def Regs.rows32 : List RegRow :=
  [ ⟨2097152, 4, 1, 4, 1, 0x0, 0x0, 0x0, 0x80070000, 0x0, 0x0⟩
  , ⟨2097156, 4, 1, 4, 1, 0x0, 0x2000, 0x0, 0x0, 0x0, 0x0⟩
  , ⟨2097160, 4, 1, 4, 1, 0x0, 0x0, 0x0, 0x0, 0x0, 0x0⟩
  , ⟨2097164, 4, 1, 4, 1, 0x0, 0x0, 0x0, 0x0, 0x0, 0x0⟩
  , ⟨2097168, 4, 1, 4, 1, 0x0, 0x0, 0x0, 0x0, 0x0, 0x0⟩
  , ⟨2097172, 4, 1, 4, 1, 0x0, 0x0, 0x0, 0x0, 0x0, 0x0⟩
  , ⟨2097176, 4, 1, 4, 1, 0x0, 0x0, 0x0, 0x0, 0x0, 0x0⟩
  , ⟨2097180, 4, 1, 4, 1, 0x0, 0x0, 0x0, 0x0, 0x0, 0x0⟩
  , ⟨2097184, 4, 1, 4, 1, 0x0, 0x0, 0x0, 0x0, 0x0, 0x0⟩
  , ⟨2097188, 4, 1, 4, 1, 0x0, 0x0, 0x0, 0x0, 0x0, 0x0⟩
  , ⟨2097192, 4, 1, 4, 1, 0x0, 0x0, 0x0, 0x0, 0x0, 0x0⟩
  , ⟨2097196, 4, 1, 4, 1, 0x0, 0x0, 0x0, 0x0, 0x0, 0x0⟩
  , ⟨2097200, 4, 1, 4, 1, 0x0, 0x0, 0x0, 0x0, 0x0, 0x0⟩
  , ⟨2097204, 4, 1, 4, 1, 0x0, 0x0, 0x1FF000F, 0x0, 0x0, 0x0⟩
  , ⟨2097208, 4, 1, 4, 1, 0x0, 0x0, 0x0, 0x0, 0x0, 0x0⟩
  , ⟨2097212, 4, 1, 4, 1, 0x0, 0x0, 0x0, 0x0, 0x0, 0x0⟩
  , ⟨2097216, 4, 8, 4, 1, 0x0, 0x0, 0x0, 0x800000FF, 0x0, 0x0⟩
  , ⟨2097408, 4, 16, 4, 1, 0x0, 0x0, 0x0, 0x0, 0x0, 0x0⟩
  , ⟨2097472, 4, 16, 4, 1, 0x0, 0x0, 0x0, 0x0, 0x0, 0x0⟩ ]

/-- The rows of the block at 0x220000. -/
def Regs.rows34 : List RegRow :=
  [ ⟨2228224, 256, 2, 4, 1, 0x0, 0x0, 0x0, 0x0, 0x0, 0x0⟩
  , ⟨2228228, 256, 2, 4, 1, 0x0, 0x0, 0x0, 0x0, 0x0, 0x0⟩
  , ⟨2228232, 256, 2, 4, 1, 0x0, 0x0, 0x0, 0x0, 0x0, 0x0⟩
  , ⟨2232320, 256, 4, 4, 1, 0x0, 0x0, 0x0, 0xFE00FFFF, 0x0, 0x0⟩
  , ⟨2232324, 256, 4, 4, 1, 0x0, 0x10, 0x0, 0x0, 0x0, 0x0⟩
  , ⟨2232328, 256, 4, 4, 1, 0x0, 0x0, 0x0, 0x0, 0x0, 0x0⟩
  , ⟨2232332, 256, 4, 4, 1, 0x0, 0x0, 0x3, 0x0, 0x0, 0x0⟩
  , ⟨2232336, 256, 4, 4, 1, 0x0, 0x0, 0x0, 0xFFFFFFFF, 0x0, 0x0⟩
  , ⟨2232340, 256, 4, 4, 1, 0xFFFFFFFF, 0x0, 0x0, 0xFFFFFFFF, 0x0, 0x0⟩
  , ⟨2232344, 256, 4, 4, 1, 0x0, 0x0, 0x0, 0x0, 0x0, 0x0⟩
  , ⟨2232348, 256, 4, 4, 1, 0x0, 0x0, 0x0, 0x0, 0x0, 0x0⟩
  , ⟨2232352, 256, 4, 4, 1, 0x0, 0x0, 0x0, 0x0, 0x0, 0x0⟩
  , ⟨2232356, 256, 4, 4, 1, 0x0, 0x0, 0x0, 0x0, 0x0, 0x0⟩
  , ⟨2232360, 256, 4, 4, 1, 0x0, 0x0, 0x0, 0xFFFFFFFF, 0x0, 0x0⟩
  , ⟨2232368, 256, 4, 4, 1, 0x0, 0x0, 0x0, 0x0, 0x0, 0x0⟩
  , ⟨2232372, 256, 4, 4, 1, 0x0, 0x0, 0x0, 0x0, 0x0, 0x0⟩
  , ⟨2232376, 256, 4, 4, 1, 0x0, 0x0, 0x0, 0x0, 0x0, 0x0⟩
  , ⟨2232384, 256, 4, 4, 1, 0x0, 0x0, 0x0, 0x0, 0x0, 0x0⟩
  , ⟨2232388, 256, 4, 4, 1, 0x0, 0x0, 0x0, 0x0, 0x0, 0x0⟩
  , ⟨2232392, 256, 4, 4, 1, 0x0, 0x0, 0x0, 0x0, 0x0, 0x0⟩
  , ⟨2232396, 256, 4, 4, 1, 0x0, 0x0, 0x0, 0x0, 0x0, 0x0⟩
  , ⟨2232400, 256, 4, 4, 1, 0x0, 0x0, 0x0, 0x0, 0x0, 0x0⟩ ]

/-- The rows of the block at 0x240000. -/
def Regs.rows36 : List RegRow :=
  [ ⟨2359296, 4, 1, 4, 1, 0x0, 0x0, 0x0, 0x0, 0xF0, 0x0⟩
  , ⟨2359360, 4, 8, 4, 1, 0xFFFFFFFF, 0x0, 0x0, 0x0, 0x0, 0x0⟩
  , ⟨2359392, 4, 1, 4, 1, 0x0, 0x0, 0xFFFFBF1F, 0x0, 0x0, 0x0⟩
  , ⟨2359396, 4, 1, 4, 1, 0x0, 0x0, 0x0, 0x0, 0x0, 0x0⟩
  , ⟨2363392, 32, 32, 4, 1, 0x1FF01FF, 0x0, 0x0, 0xC1FF01FF, 0x0, 0x0⟩
  , ⟨2363396, 32, 32, 4, 1, 0x0, 0x2000, 0x0, 0x0, 0x800, 0x0⟩
  , ⟨2363400, 32, 32, 4, 1, 0x0, 0x0, 0x0, 0x0, 0x0, 0x0⟩
  , ⟨2363404, 32, 32, 4, 1, 0x0, 0x0, 0x0, 0x0, 0x0, 0x0⟩
  , ⟨2363408, 32, 32, 4, 1, 0x0, 0x0, 0x1, 0x0, 0x0, 0x0⟩ ]

/-- The rows of the block at 0x260000. -/
def Regs.rows38 : List RegRow :=
  [ ⟨2490368, 4, 1, 4, 1, 0x0, 0x0, 0x0, 0x0, 0x0, 0x0⟩
  , ⟨2490372, 4, 1, 4, 1, 0x0, 0x0, 0x0, 0x0, 0x0, 0x0⟩
  , ⟨2490376, 4, 1, 4, 1, 0x0, 0x0, 0x0, 0x0, 0x0, 0x0⟩
  , ⟨2490380, 4, 1, 4, 1, 0x0, 0x0, 0x0, 0x0, 0x0, 0x0⟩
  , ⟨2490384, 4, 1, 4, 1, 0x0, 0x0, 0x0, 0x0, 0x0, 0x0⟩
  , ⟨2490388, 4, 1, 4, 1, 0x0, 0x0, 0x7, 0x0, 0x0, 0x0⟩
  , ⟨2490392, 4, 1, 4, 1, 0x0, 0x200, 0x0, 0x0, 0x0, 0x0⟩
  , ⟨2490396, 4, 1, 4, 1, 0xFFFFFFFF, 0x0, 0x0, 0x0, 0x0, 0x0⟩
  , ⟨2490400, 4, 1, 4, 1, 0x0, 0x0, 0xFFFFFFFF, 0x0, 0x0, 0x0⟩
  , ⟨2490432, 4, 1, 4, 1, 0x0, 0x0, 0x0, 0x0, 0x0, 0x0⟩
  , ⟨2490436, 4, 1, 4, 1, 0xFFFFFFFF, 0x0, 0x0, 0x0, 0x0, 0x0⟩
  , ⟨2490440, 4, 1, 4, 1, 0x0, 0x0, 0x0, 0x0, 0x0, 0x0⟩ ]

/-- The rows of the block at 0x280000. -/
def Regs.rows40 : List RegRow :=
  [ ⟨2621440, 4, 1, 4, 1, 0x0, 0x0, 0x0, 0x0, 0x0, 0x0⟩
  , ⟨2621444, 4, 1, 4, 1, 0x0, 0x0, 0xFFFF0007, 0x0, 0x0, 0x0⟩
  , ⟨2621448, 4, 1, 4, 1, 0x0, 0x0, 0x0, 0x0, 0x0, 0x0⟩
  , ⟨2621456, 4, 1, 4, 1, 0x0, 0x0, 0x0, 0x0, 0x0, 0x0⟩
  , ⟨2621460, 4, 1, 4, 1, 0x0, 0x0, 0x0, 0x0, 0x0, 0x0⟩
  , ⟨2621464, 4, 1, 4, 1, 0x0, 0x0, 0x0, 0x0, 0x0, 0x0⟩
  , ⟨2621472, 4, 1, 4, 1, 0xFF, 0x0, 0x0, 0x0, 0x0, 0x0⟩
  , ⟨2621476, 4, 1, 4, 1, 0x0, 0x0, 0x0, 0x0, 0xFF, 0x0⟩
  , ⟨2621488, 4, 1, 4, 1, 0xFFFF0001, 0x0, 0x0, 0x0, 0x2580001, 0x0⟩
  , ⟨2621492, 4, 1, 4, 1, 0x0, 0x0, 0x0, 0x0, 0x0, 0x0⟩
  , ⟨2621496, 4, 1, 4, 1, 0x0, 0x0, 0x0, 0x0, 0x0, 0x0⟩
  , ⟨2621504, 4, 1, 4, 1, 0x0, 0x0, 0xFFFF03FF, 0x0, 0x0, 0x0⟩
  , ⟨2621508, 4, 1, 4, 1, 0x0, 0x0, 0x0, 0x0, 0x0, 0x0⟩ ]

/-- The rows of the block at 0x20000. -/
def Regs.rows2 : List RegRow :=
  [ ⟨131072, 4, 1, 4, 1, 0x0, 0x0, 0x0, 0x0, 0x0, 0x0⟩
  , ⟨131076, 4, 1, 4, 1, 0xFFFFFFFF, 0x0, 0x0, 0x0, 0x0, 0x0⟩
  , ⟨131080, 4, 1, 4, 1, 0x0, 0x8000, 0x0, 0x0, 0x0, 0x0⟩
  , ⟨131084, 4, 1, 4, 1, 0x0, 0x0, 0x0, 0x0, 0x0, 0x0⟩
  , ⟨131088, 4, 1, 4, 1, 0xFFFFFFFF, 0x0, 0x0, 0x0, 0x1, 0x0⟩
  , ⟨131104, 4, 1, 4, 1, 0xFFFFFFFF, 0x0, 0x0, 0x0, 0x1E3352, 0x0⟩
  , ⟨131108, 4, 1, 4, 1, 0xFFFFFFFF, 0x0, 0x0, 0x0, 0x0, 0x0⟩
  , ⟨131112, 4, 1, 4, 1, 0x0, 0x40000000, 0x0, 0x0, 0x0, 0x0⟩
  , ⟨131116, 4, 1, 4, 1, 0x0, 0x0, 0x0, 0x0, 0x0, 0x0⟩
  , ⟨131120, 4, 1, 4, 1, 0x0, 0x0, 0x0, 0x0, 0x0, 0x0⟩
  , ⟨131136, 4, 1, 4, 1, 0x0, 0x0, 0x0, 0x0, 0x0, 0x0⟩
  , ⟨131140, 4, 1, 4, 1, 0x0, 0x0, 0x0, 0x0, 0x0, 0x0⟩
  , ⟨131144, 4, 1, 4, 1, 0x0, 0x0, 0x0, 0x0, 0x0, 0x0⟩
  , ⟨131148, 4, 1, 4, 1, 0x0, 0x0, 0x0, 0x0, 0x0, 0x0⟩ ]

/-- The rows of the block at 0x2A0000. -/
def Regs.rows42 : List RegRow :=
  [ ⟨2752512, 4, 1, 4, 1, 0x0, 0x800, 0x0, 0x0, 0x0, 0x0⟩
  , ⟨2752516, 4, 1, 4, 1, 0x0, 0x0, 0x0, 0x0, 0x0, 0x0⟩
  , ⟨2752520, 4, 1, 4, 1, 0x0, 0x0, 0x0, 0x0, 0x0, 0x0⟩
  , ⟨2752524, 4, 1, 4, 1, 0x0, 0x0, 0x0, 0x0, 0xEA60, 0x0⟩
  , ⟨2752528, 4, 1, 4, 1, 0x1, 0x0, 0x0, 0x0, 0x1, 0x0⟩
  , ⟨2752532, 4, 1, 4, 1, 0x0, 0x0, 0x1, 0x0, 0x0, 0x0⟩
  , ⟨2752544, 4, 1, 4, 1, 0x0, 0x0, 0x0, 0x0, 0x0, 0x0⟩
  , ⟨2752548, 4, 1, 4, 1, 0x0, 0x0, 0x0, 0x0, 0x0, 0x0⟩
  , ⟨2752552, 4, 1, 4, 1, 0x0, 0x0, 0x0, 0x0, 0x0, 0x0⟩
  , ⟨2752556, 4, 1, 4, 1, 0x0, 0x0, 0x0, 0x0, 0x0, 0x0⟩ ]

/-- The rows of the block that holds address `a` (the map of R411); the loop-engine block spans 0x0008_0000–0x000C_7FFF. -/
def Regs.rowsAt (a : Nat) : List RegRow :=
  let b := a / 65536
  if b = 0 then Regs.rows0 else
  if b = 1 then Regs.rows1 else
  if b / 2 = 2 then Regs.rows4 else
  if b / 2 = 8 then Regs.rows16 else
  if 8 ≤ b ∧ b < 16 then Regs.rows8 else
  if b / 2 = 9 then Regs.rows18 else
  if b / 2 = 10 then Regs.rows20 else
  if b / 2 = 11 then Regs.rows22 else
  if b / 2 = 12 then Regs.rows24 else
  if b / 2 = 13 then Regs.rows26 else
  if b / 2 = 14 then Regs.rows28 else
  if b / 2 = 15 then Regs.rows30 else
  if b / 2 = 16 then Regs.rows32 else
  if b / 2 = 17 then Regs.rows34 else
  if b / 2 = 18 then Regs.rows36 else
  if b / 2 = 19 then Regs.rows38 else
  if b / 2 = 20 then Regs.rows40 else
  if b = 2 then Regs.rows2 else
  if b / 2 = 21 then Regs.rows42 else
  []

/-- The indices `(i, j)` of the instance of row `r` at address `a`, if `a` is one. -/
def RegRow.index? (r : RegRow) (a : Nat) : Option (Nat × Nat) :=
  if a < r.addr then none else
    let d := a - r.addr
    let i := d / r.s1
    let e := d % r.s1
    let j := e / r.s2
    if i < r.n1 ∧ j < r.n2 ∧ e % r.s2 = 0 then some (i, j) else none

/-- The row that assigns address `a` (R4, R411), with the instance's indices. -/
def Regs.find (a : Nat) : Option (RegRow × Nat × Nat) :=
  (Regs.rowsAt a).findSome? fun r => (r.index? a).map fun ij => (r, ij)

/-- The word a register holds after power-on (R8); 0 at an unassigned address. -/
def Regs.resetWord (a : Nat) : BitVec 32 :=
  match Regs.find a with
  | some (r, i, _) => BitVec.ofNat 32 (r.reset + i * r.resetStep)
  | none => 0

/-- Is `a` the address of a register (R4, R411)? -/
def Regs.assigned (a : Nat) : Bool := (Regs.find a).isSome

end Sys2Proof.Machine
end

