-- ==== Sys2Proof/Machine/Tbl.lean ====
section
/-! DEFINITION. Sparse tables: lists of (key, value) pairs in one canonical form (keys strictly rising, no entry equal to what an
unlisted key reads as), so that equal tables are equal data. Byte memories are such tables of `Host.Cell`. -/

namespace Sys2Proof.Machine

/-- A sparse table with numeric keys. -/
abbrev Tbl (α : Type) := List (Nat × α)

/-- The entry at key `k`, if listed. -/
def tget? {α : Type} (k : Nat) : Tbl α → Option α
  | [] => none
  | (j, v) :: t => if j = k then some v else tget? k t

/-- The value at key `k`; an unlisted key reads as `d`. -/
def tget {α : Type} (d : α) (t : Tbl α) (k : Nat) : α := (tget? k t).getD d

/-- `t` without the entry at key `k`. -/
def tdel {α : Type} (k : Nat) : Tbl α → Tbl α
  | [] => []
  | (j, w) :: t => if j = k then tdel k t else (j, w) :: tdel k t

/-- `t` with the value `v` at key `k`, its place in the order kept. -/
def tins {α : Type} (k : Nat) (v : α) : Tbl α → Tbl α
  | [] => [(k, v)]
  | (j, w) :: t => if k < j then (k, v) :: (j, w) :: tdel k t else if k = j then (k, v) :: tdel k t else (j, w) :: tins k v t

/-- Write `v` at key `k` where an unlisted key reads as `d`: writing `d` removes the entry. -/
def tput {α : Type} [DecidableEq α] (d : α) (t : Tbl α) (k : Nat) (v : α) : Tbl α :=
  if v = d then tdel k t else tins k v t

/-- Every key listed is at least `lo`, and the keys rise strictly. -/
def tsorted {α : Type} : Nat → Tbl α → Bool
  | _, [] => true
  | lo, (j, _) :: t => decide (lo ≤ j) && tsorted (j + 1) t

/-- The canonical form: keys strictly rising, no entry equal to `d j`, what key `j` reads as when unlisted. -/
def twf {α : Type} [DecidableEq α] (d : Nat → α) (t : Tbl α) : Bool :=
  tsorted 0 t && t.all fun e => decide (e.2 ≠ d e.1)

/-- Read one byte of a byte memory; an unlisted address reads as `d`. -/
def mget (d : Byte) (m : List Host.Cell) (a : Nat) : Byte := tget d m a

/-- Write one byte. -/
def mput (d : Byte) (m : List Host.Cell) (a : Nat) (b : Byte) : List Host.Cell := tput d m a b

/-- The canonical form of a byte memory. -/
def Memory.wf (d : Byte) (m : List Host.Cell) : Bool := twf (fun _ => d) m

/-- Read `n` bytes from address `a`. -/
def mread (d : Byte) (m : List Host.Cell) (a n : Nat) : List Nat :=
  (List.range n).map fun i => (mget d m (a + i)).toNat

/-- Write the bytes of `l` from address `a`. -/
def mwrite (d : Byte) : List Host.Cell → Nat → List Nat → List Host.Cell
  | m, _, [] => m
  | m, a, b :: bs => mwrite d (mput d m a (BitVec.ofNat 8 b)) (a + 1) bs

end Sys2Proof.Machine
end

