-- ==== Sys2Proof/Machine/State.lean ====
section
/-! DEFINITION. The state of the KQ-256 as plain data: every register of the register space in one sparse table by address
(R4, R8, R411), and beside it the state the chapters give each block that no register holds, and the queue of commands that
wait. Also the reasons a command can stop and the state after power-on reset. -/

namespace Sys2Proof.Machine

/-- The reasons a step can stop with a fault. -/
inductive Fault where
  /-- Raised by no meaning of this model: every command has an effect on State (an error the spec describes is an effect).
  Safe: a fault stops the machine where the hardware goes on. -/
  | none
  deriving DecidableEq, Repr

/-- The reasons a command is refused. -/
inductive Refusal where
  /-- The command has no meaning yet; raised only by an arm of `exec` that rejects it by name. Safe. -/
  | notModelled (mnemonic : String)
  deriving DecidableEq, Repr

/-! ### 01: device states (R9–R23, R459) -/

/-- Why the device entered STOPPING (R19). -/
inductive StopCause where
  | reload
  | shdn
  deriving DecidableEq, Repr, Inhabited

/-- The device-state machine beyond DEV_STATE (R12, R19, R20, R23, R459). -/
structure Dev where
  /-- PGOOD is high: the controller die runs (R387, R440). -/
  powered : Bool
  /-- A RELOAD request waits for the next ring-cycle boundary (R20). -/
  reqReload : Bool
  /-- A REDUCED_REQ waits (R20). -/
  reqReduced : Bool
  /-- An AUTO_REQ waits (R20). -/
  reqAuto : Bool
  /-- BRING_UP is over: every ring runs and both channels are ready; and 1 s has passed since its entry (R19, R20). -/
  reqUp : Bool
  reqLate : Bool
  /-- Every axis is torque-free in STOPPING (R19, R20). -/
  reqStopped : Bool
  /-- An auto-start is pending (R459). -/
  autoStart : Bool
  /-- The cause of the present STOPPING (R19). -/
  stopCause : StopCause
  /-- The instant the present device state was entered (R19). -/
  enteredAt : Nat
  /-- The cycle timer runs (R12). -/
  timer : Bool
  /-- The first ring cycle of the timer has begun (R12). -/
  begun : Bool
  /-- The cycle number (R9, R12). -/
  cycle : BitVec 64
  /-- The TSC of the present ring cycle's master cycle-start instant (R25). -/
  cycleTsc : Nat
  /-- The instant of the next ring-cycle start (R12, R334); before the timer runs, of the next evaluation of device-state events (R20). -/
  nextCycle : Nat
  /-- POWER_UP waits for channel B to report itself ready (R384). -/
  waitB : Bool
  /-- The DRAM stacks whose training succeeded: bit 0 stack 0, bit 1 stack 1 (R387, R416). -/
  trained : Nat
  /-- The repair record in use shows a failure not covered: this POWER_UP ends in SAFE_HOLD (R19). -/
  bound : Bool
  /-- No LOAD has ended since POWER_UP (R388). -/
  firstLoad : Bool
  /-- The samples of ENC0-ENC7 of the ring cycles of this servo cycle, line position format, in a pair (R306). -/
  encLog : List (List Int)
  /-- The mirrored samples in use, one row for each ring cycle of the servo cycle (R306). -/
  encUse : List (List Int)
  deriving DecidableEq, Repr, Inhabited

/-! ### 02: line axes and line actions (R28–R43) -/

/-- The stage of a pending line action (R39–R40). -/
inductive ActStage where
  /-- armed, not yet compared with a sample -/
  | fresh
  /-- short of its trigger -/
  | waiting
  /-- late within tolerance: executes at the next servo boundary, with this lateness -/
  | late (lateness : Int)
  /-- scheduled at this TSC instant -/
  | at (tsc : Nat)
  deriving DecidableEq, Repr, Inhabited

/-- One pending line action (R37). -/
structure Act where
  trig : BitVec 64
  tol : BitVec 32
  line : Nat
  reverse : Bool
  kind : Nat
  target : Nat
  armedAt : Nat
  stage : ActStage
  deriving DecidableEq, Repr, Inhabited

/-- One line axis beyond its registers (R29–R35). -/
structure LineSt where
  /-- A sample has been taken since LOAD (R29). -/
  sampled : Bool
  /-- The source value at the last sample, after INVERT, modulo 2^64 (R33). -/
  src : BitVec 64
  /-- The offset of R35. -/
  offset : BitVec 64
  presetReq : Bool
  resumeReq : Bool
  /-- the source had given a value at the last sample (R29) -/
  valued : Bool
  /-- the source has raised a fault since the last sample (R34) -/
  fault : Bool
  deriving DecidableEq, Repr, Inhabited

/-! ### 03: flows, setpoints, profile generators (R45–R69) -/

/-- A segment descriptor (R53). -/
structure Desc where
  kind : Nat
  blend : Nat
  gate : Bool
  coverOwn : Bool
  replace : Bool
  evt : Bool
  island : Nat
  nrwEnter : Option Nat
  nrwExit : Option Nat
  seq : Nat
  payloadAddr : Nat
  payloadLen : Nat
  line : Nat
  tag : Nat
  v : Nat
  a : Nat
  j : Nat
  blendR : Nat
  duration : Nat
  lineRef : Nat
  ratio : Nat
  payloadCrc : Nat
  check : Nat
  deriving DecidableEq, Repr, Inhabited

/-- A phase of a profile: how long (seconds of profile time) and its jerk (R56, R456). -/
structure Phase where
  dur : Rat
  jerk : Rat
  deriving DecidableEq, Repr, Inhabited

/-- A point on a profile: position, speed, acceleration. -/
structure Pva where
  p : Rat
  v : Rat
  a : Rat
  deriving DecidableEq, Repr, Inhabited

/-- A released segment with what the planning core derived for it (R53's plan record, R55–R57). -/
structure Seg where
  desc : Desc
  /-- axis, target in axis units (JOINT) -/
  targets : List (Nat × Rat)
  /-- axis, c0 … c5 (SPLINE) -/
  coefs : List (Nat × List Rat)
  /-- the path length D in metres (tool-point kinds); 1 for JOINT -/
  len : Rat
  /-- the covered axes with their distances from the planned start state, in axis units (JOINT) -/
  dists : List (Nat × Rat)
  /-- the limits in force on the path parameter (R55) -/
  vlim : Rat
  alim : Rat
  jlim : Rat
  /-- the speed at the join with the predecessor, and at the join with the successor (R57) -/
  start : Rat
  join : Rat
  /-- the entry point of NRW_ENTER on the path (R251) -/
  entry : Rat
  /-- the end pose (x, y, z, quaternion w, x, y, z, redundancy), the via point, the line direction of the payload (tool-point kinds, R52) -/
  pose : List Rat
  via : List Rat
  dir : List Rat
  /-- DURATION, lengthened where an axis limit asks for it (SPLINE, DWELL, R52, R55) -/
  dur : Rat
  deriving DecidableEq, Repr, Inhabited

/-- The quintic of a fly-by (R57): its radius in the path parameter of the segment it leaves and of the one it joins, a quintic for each
axis over 0 to 1, and the start state of the successor's path. -/
structure Blend where
  r0 : Rat
  r1 : Rat
  curves : List (Nat × List Rat)
  next : List (Nat × Rat)
  deriving DecidableEq, Repr, Inhabited

/-- A stop of a TRACK segment in the cell frame (R59): path position and frame displacement at its beginning, and how far each goes for
a metre of the tool's way; the run's own position then counts that way. -/
structure CellStop where
  p0 : Rat
  pk : Rat
  d0 : Rat
  dk : Rat
  deriving DecidableEq, Repr, Inhabited

/-- What a path-hold stop ends in (R57, R59, R63–R65). -/
inductive StopEnd where
  /-- HOLDING with this cause; the segment is kept to be continued -/
  | hold (cause : Nat)
  /-- HOLDING with this cause; the segment has ended -/
  | ended (cause : Nat)
  /-- HOLDING with this cause; the segment is discarded, for a replacement where `replaced` (R63) -/
  | dropped (cause : Nat) (replaced : Bool)
  /-- IDLE with every segment discarded (FLUSH) -/
  | idle
  /-- the replacing segment starts -/
  | replace
  /-- RUNNING stays; the segment is continued once the aggregate is ENABLED again (a disable, R159) -/
  | stand
  /-- STOPPING stays (SS1) -/
  | ss1
  deriving DecidableEq, Repr, Inhabited

/-- A running segment (R56, R60–R61). -/
structure Run where
  seg : Seg
  /-- the covered axes with their start positions in axis units (R50, R51) -/
  start : List (Nat × Rat)
  /-- the fly-by from its predecessor, and the one to its successor (R57) -/
  into : Option Blend
  out : Option Blend
  /-- the pose at the start, in the line frame for TRACK (tool-point kinds, R52, R59) -/
  pose0 : List Rat
  /-- a LINE_SYNC that runs a timed profile to its target (R57) -/
  timed : Bool
  /-- TRACK: the stop in the cell frame, and the frame displacement added by one (R59) -/
  cell : Option CellStop
  ofs : Rat
  /-- the line's speed in m/s at the last servo boundary at which the segment followed it (R59) -/
  sync : Option Rat
  /-- path position, speed, acceleration in profile time; for a DWELL that stopped, the time left in place of the position -/
  at' : Pva
  /-- the phases still to run -/
  phases : List Phase
  /-- a path-hold stop runs and ends so -/
  stop : Option StopEnd
  /-- the time the gate's instant put the segment ahead of the boundary, in seconds (R58) -/
  lead : Rat
  deriving DecidableEq, Repr, Inhabited

/-- One flow beyond its registers (R54, R63, R65). -/
structure FlowSt where
  run : Option Run
  released : List Seg
  /-- a rejection waits: descriptors are discarded until RESUME (R54) -/
  rejecting : Bool
  /-- the SEQ expected next; none before the first accepted descriptor (R54) -/
  expect : Option Nat
  reqEnable : Bool
  reqDisable : Bool
  reqHold : Bool
  reqResume : Bool
  reqFlush : Bool
  reqSs1 : Bool
  /-- an ancestor relation demands a path-hold stop with cause ANCESTOR (R49) -/
  reqAnc : Bool
  /-- a soft limit stops the flow at this boundary (R64) -/
  reqSoft : Bool
  /-- the mover stops because an axis it drives takes a disable (R159) -/
  reqStand : Bool
  /-- a released REPLACE waits for the boundary (R63) -/
  reqReplace : Bool
  /-- the gate's execution instant (R58) -/
  gateAt : Option Nat
  /-- the NRW_EXIT carried over by a REPLACE (R63) -/
  carryExit : List Nat
  /-- SSl of channel A or of the host holds the flow in STOPPING since this instant (R49, R65) -/
  stopAt : Option Nat
  /-- the override in force: OVR as taken at the last servo boundary (R60) -/
  ovr : Nat
  /-- σ and its rate of change per second (R61) -/
  sig : Rat
  sigRate : Rat
  deriving DecidableEq, Repr, Inhabited

/-- The setpoint state of one axis: x* in axis units, v*, a*, τ* (R51, R94). -/
structure Setpoint where
  x : Rat
  v : Rat
  a : Rat
  tau : Rat
  deriving DecidableEq, Repr, Inhabited

/-- One profile generator (R67–R69). -/
structure PgSt where
  at' : Pva
  phases : List Phase
  target : Rat
  /-- a GO taken that waits for the servo boundary: target, speed cap, DIR -/
  go : Option (Rat × Rat × Nat)
  stopReq : Bool
  /-- the move under way ends short of its target: by a STOP or at a soft limit (R64, R67, R72) -/
  cut : Bool
  /-- the axis reverses first: the target to approach after rest -/
  after : Option (Rat × Rat)
  /-- the speed cap in force -/
  vlim : Rat
  deriving DecidableEq, Repr, Inhabited

/-- A flow in IDLE with nothing released; OVR 0xFFFF and σ 0, as ISL_OVR and ISL_FACTOR reset (R71). -/
def FlowSt.init : FlowSt := { (default : FlowSt) with ovr := 0xFFFF }

/-! ### 04: matching store, planning cores, fabric (R73–R92) -/

/-- Where an item stands (R76–R84). -/
inductive ItemStage where
  | waiting
  | ready
  | running (core : Nat)
  /-- pre-empted: ready again, its context saved by this logical core -/
  | saved (core : Nat)
  /-- the program waits, off its core, for room for the descriptor it submitted (R76) -/
  | suspended (core : Nat)
  | done
  deriving DecidableEq, Repr, Inhabited

/-- An operand slot of an entry: its source kind and the queue it names (R77), and the word delivered. -/
structure OpSlot where
  kind : Nat
  queue : Nat
  word : Option (List Nat)
  deriving DecidableEq, Repr, Inhabited

/-- An item in the matching store (R75–R84). -/
structure Item where
  flow : Nat
  cls : Nat
  /-- the order of admission -/
  serial : Nat
  /-- the order of readiness (R80) -/
  readyAt : Nat
  /-- slot 0–3, declared slots only -/
  slots : List (Nat × OpSlot)
  stage : ItemStage
  /-- the descriptor's bytes (island flows) and the payload as fetched at admission -/
  desc : List Nat
  payload : List Nat
  /-- the reasons found at admission (R76) -/
  noted : List Nat
  plan : PlanData
  /-- core time accumulated before the present dispatch, and the instant of the present dispatch -/
  ran : Nat
  since : Nat
  /-- it has timed out once, on this logical core -/
  timedOut : Option Nat
  /-- discarded by a second timeout (R83) -/
  abandoned : Bool
  deriving DecidableEq, Repr, Inhabited

/-- The last item admitted to a flow: its BLEND and whether its planning has completed (R77). -/
structure PrevItem where
  serial : Nat
  blend : Nat
  /-- its SEQ, by which check 5 is made at admission (R54, R76) -/
  seq : Nat
  done : Bool
  deriving DecidableEq, Repr, Inhabited

/-- A dependence counter beyond its registers (R79). -/
structure DcSt where
  /-- the bound item waits for dispatch -/
  ready : Bool
  /-- one further instance is held -/
  held : Bool
  /-- the logical core running it, and since when -/
  core : Option Nat
  since : Nat
  deriving DecidableEq, Repr, Inhabited

/-- A fabric target beyond its registers (R87–R90). -/
structure TgtSt where
  /-- beats declared by the owner and the instant its grant began -/
  declared : Nat
  since : Nat
  /-- the last requester granted in the high and in the normal class -/
  lastHigh : Option Nat
  lastNormal : Option Nat
  /-- grants to the high class in the window, and the window's number -/
  highs : Nat
  window : Nat
  /-- the hints of the last decision: requester, fabric cycles (R88) -/
  hints : List (Nat × Nat)
  deriving DecidableEq, Repr, Inhabited

/-! ### 05: coefficient queue, band unit, downlinks, trace (R93–R114) -/

/-- An entry of a coefficient queue (R102): a coefficient word or a forced switch (`force`: the bank). -/
structure CoefEntry where
  force : Option Nat
  slot : Nat
  bank : Nat
  index : Nat
  word : Nat
  deriving DecidableEq, Repr, Inhabited

/-- The histories of one biquad: the last two inputs and outputs (R94). -/
structure Biquad where
  x1 : Rat
  x2 : Rat
  y1 : Rat
  y2 : Rat
  deriving DecidableEq, Repr, Inhabited

/-- The law state of an axis under the reference law (R94, R95): integrators, filter histories, the references that the servo-rate part
leaves to the ring-rate part, and whether step 8 of R94 limited in the last sample. It is all 0 when the axis enters ENABLED (R97). -/
structure RefLaw where
  iv : Rat
  limited : Bool
  bq1 : Biquad
  bq2 : Biquad
  idRef : Rat
  iqRef : Rat
  id : Rat
  iq : Rat
  /-- the errors and currents of the last computation, as the trace shows them (R111): e_ω, current errors d and q, id and iq -/
  ew : Rat
  ed : Rat
  eq : Rat
  mid : Rat
  miq : Rat
  deriving DecidableEq, Repr, Inhabited

/-- The state of the stepper stage of an axis (R153, R155). -/
structure StepStage where
  /-- the grid of normal service as k of r = 256 / 2^k -/
  k : Nat
  /-- table mode has been entered, and the move after which it ends has begun -/
  table : Bool
  moving : Bool
  /-- v* was not 0 at the last servo sample, and the consecutive samples with v* = 0 -/
  going : Bool
  rest : Nat
  /-- the grid and the mode in force since the last servo boundary -/
  useK : Nat
  useTable : Bool
  deriving DecidableEq, Repr, Inhabited

/-- One axis slot of a logical engine beyond its registers (R94–R106). -/
structure SlotSt where
  /-- the forced switches taken from the queue since the last servo boundary, in order (R103) -/
  forced : List Nat
  /-- an automatic switch decided at the last servo sample, with FERR then (R100) -/
  auto : Option (Nat × Nat)
  /-- writes of band registers that wait for the servo boundary (R101): address, word -/
  bandWrites : List (Nat × Nat)
  /-- the send buffer: DL_U, DL_V, DL_W as committed in this ring cycle (R127) -/
  sent : Option (Nat × Nat × Nat)
  /-- the ring cycle of the last deadline that passed, and CONSEC before it (R105, R107, R311) -/
  due : Nat
  consecWas : Nat
  /-- NODE0–NODE13 as sampled at the last deadline (R137) -/
  nodes : List Nat
  /-- the law state of a slot under the reference law, and of the stepper stage (R94, R95, R153) -/
  ref : RefLaw
  stage : StepStage
  deriving DecidableEq, Repr, Inhabited

/-- The trace unit of a logical engine beyond its registers (R111–R114). -/
structure TraceSt where
  /-- a configuration that waits for index 0: address, word (R113) -/
  pending : List (Nat × Nat)
  /-- samples since the last record -/
  skipped : Nat
  /-- channel 0 of the last record -/
  prev : Option Int
  force : Bool
  /-- records still to write after the trigger -/
  post : Nat
  /-- the next record carries GAP -/
  gap : Bool
  /-- slots whose bank switch took effect, and an OVERRUN, since the last record -/
  switched : List Nat
  overran : Bool
  deriving DecidableEq, Repr, Inhabited

/-! ### 06: loop engines (R117–R142) -/

/-- A running loop (R128): its first and last instruction, the passes left, ROT. -/
structure LoopFr where
  first : Nat
  last : Nat
  left : Nat
  rot : Bool
  deriving DecidableEq, Repr, Inhabited

/-- What a recent instruction produced, for the interlocks of R135: the kind of producer and the resource. -/
structure Prod where
  kind : Nat
  res : Nat
  deriving DecidableEq, Repr, Inhabited

/-- One register set of an engine (R120). An unlisted register reads 0. -/
structure LeSet where
  /-- physical d registers, 24 bits -/
  d : Tbl Nat
  /-- accumulators, 56 bits -/
  a : Tbl Nat
  p : Tbl Nat
  m : Tbl Nat
  l : Tbl Nat
  b : Tbl Nat
  sr : Nat
  lc : Nat
  rrb : Nat
  /-- the loop stack, innermost first, and the call stack -/
  loops : List LoopFr
  calls : List Nat
  pc : Nat
  /-- the task that runs on the set, and the ring cycle whose uplinks it computes from -/
  task : Option Nat
  born : Nat
  /-- ts: the lowest slot of the task -/
  ts : Nat
  /-- the bank that the coefficient window presents to the task, and the slots in quiet mode: bit s (R118, R149) -/
  window : Nat
  quiet : Nat
  /-- what the last three instructions produced, the last one first -/
  prods : List (List Prod)
  deriving DecidableEq, Repr, Inhabited

/-- A logical engine beyond its registers (R105, R120, R126). -/
structure LeSt where
  main : LeSet
  ext : LeSet
  /-- the set in use: the extension set -/
  onExt : Bool
  /-- slots whose uplink is in the mailbox for a task that has not started, with their ring cycle, in the order of arrival -/
  arrived : List (Nat × Nat)
  /-- main tasks that have ended, with their ring cycle, until the last of that ring cycle has -/
  ended : List (Nat × Nat)
  /-- extension tasks that are ready -/
  extReady : List Nat
  /-- extension tasks are shed in this ring cycle (R106) -/
  shed : Bool
  reqRestore : Bool
  /-- engine cycles used in this ring cycle -/
  cycles : Nat
  deriving DecidableEq, Repr, Inhabited

/-! ### 07: axis channels (R143–R161) and the uplink that serves them (R194) -/

/-- The fields of an axis response (R194). -/
structure Uplink where
  pollBad : Bool
  /-- 18 status bits -/
  status : Nat
  ia : Int
  ib : Int
  ic : Int
  udc : Nat
  pos : Nat
  idx : Nat
  edgeT : Nat
  edgeIv : Nat
  idxNew : Bool
  temp : Int
  inp : Nat
  deriving DecidableEq, Repr, Inhabited

/-- A drive block (R143): the command word and three values. -/
structure DriveBlock where
  cmd : Nat
  w0 : Nat
  w1 : Nat
  w2 : Nat
  deriving DecidableEq, Repr, Inhabited

/-- One axis channel beyond its registers. -/
structure AxSt where
  /-- the enable requests that wait for the servo boundary: their paths, in order (R158, R162) -/
  reqEnable : List Nat
  reqDisable : Bool
  /-- an AX_CTRL.DISABLE waits for the servo boundary (R158) -/
  axDisable : Bool
  reqClear : Bool
  /-- a fault that takes effect at the next ring-cycle start: its cause (R159) -/
  faultDue : Option Nat
  /-- the ring cycle in which the present state or phase was entered (R159) -/
  timerAt : Nat
  /-- the thermal charge Q in A²·s (R151) -/
  charge : Rat
  /-- the axis has entered PRECHARGE since LOAD (R151) -/
  precharged : Bool
  /-- the last accepted uplink and its instant -/
  uplink : Option Uplink
  uplinkAt : Nat
  /-- the uplink of the present ring cycle was accepted (R151) -/
  fresh : Bool
  /-- the axis is in strong mode (R148) -/
  strong : Bool
  /-- the first ring cycle of the mode in force (R146, R148) -/
  modeFrom : Nat
  /-- the mode decided at the last servo sample, in effect at the next servo boundary (R148) -/
  nextStrong : Option Bool
  /-- words written to QS_UP, QS_DOWN, QS_CFG that wait for the servo boundary (R150): address, word -/
  qsWrites : List (Nat × Nat)
  /-- consecutive committed downlinks with |DL_W| above 90° (R157) -/
  stallRun : Nat
  /-- STALL has been logged and no committed downlink at or below 90° followed (R157) -/
  stalled : Bool
  /-- the drive block of the last poll (R146) -/
  block : DriveBlock
  /-- the drive block of the poll before it (R311) -/
  blockPrev : DriveBlock
  /-- the last committed duties, for held polls (R106) -/
  duties : DriveBlock
  /-- strong mode was in force for the computation of the last committed duties (R146) -/
  pwmSel : Bool
  /-- the unwrapped position last accounted (R222) -/
  lifePos : Option Int
  deriving DecidableEq, Repr, Inhabited

/-! ### 08: feedback, compare channels, emulation outputs (R164–R184) -/

/-- The speed estimate of one count (R169). -/
structure SpeedEst where
  /-- the count and the edge time of the last servo sample -/
  count : Int
  edge : Nat
  omega : Rat
  deriving DecidableEq, Repr, Inhabited

/-- The direction flag's evaluation (R170): the turning point and whether DIR changed in the present index interval. -/
structure DirSt where
  turn : Int
  changed : Bool
  deriving DecidableEq, Repr, Inhabited

/-- The feedback of one axis (R164–R171). -/
structure FbSt where
  /-- an uplink has been accepted since LOAD -/
  seen : Bool
  raw : Nat
  /-- the unwrapped whole count -/
  whole : Int
  frac : Nat
  /-- ring cycles without an accepted uplink since the last one -/
  missed : Nat
  /-- the count has changed since the first uplink -/
  moved : Bool
  /-- the last counted edge (R169) and the sample instant of the last uplink -/
  edge : Nat
  sample : Nat
  /-- the sign of the last change of count, and counts moved since the last reversal; before one, 2 or more (R30) -/
  sign : Int
  run : Nat
  est : SpeedEst
  dir : DirSt
  /-- the previous index latch (R171) -/
  index : Option Int
  /-- a preset waits for the servo boundary (R167) -/
  preset : Option Int
  /-- the change of the last uplink failed the check of cause 4, or the status carries ENC_ERR (R168) -/
  jump : Bool
  encErr : Bool
  deriving DecidableEq, Repr, Inhabited

/-- One local encoder (R172–R174). -/
structure EncSt where
  /-- filtered levels of A, B, Z -/
  a : Bool
  b : Bool
  z : Bool
  /-- the last two counted edges -/
  edge : Option Nat
  edge2 : Option Nat
  sign : Int
  run : Nat
  /-- an edge has been counted since LOAD -/
  moved : Bool
  loadAt : Nat
  est : SpeedEst
  dir : DirSt
  index : Option Int
  /-- illegal transitions of the window, and the window's number -/
  illegal : Nat
  window : Nat
  /-- the last window judged stayed within ILL_MAX -/
  windowOk : Bool
  /-- the differential pairs that stand at one level: lines 0 A, 1 B, 2 Z -/
  broken : List Nat
  deriving DecidableEq, Repr, Inhabited

/-- One compare channel (R175–R180). -/
structure CmpSt where
  /-- a pulse is active until this instant -/
  pulse : Option Nat
  /-- the end of the last pulse -/
  lastEnd : Option Nat
  /-- the instants of the points scheduled in this ring cycle -/
  points : List Nat
  /-- pulses since the window opened -/
  emitted : Nat
  /-- writes that wait for the next ring-cycle start: address, word -/
  writes : List (Nat × Nat)
  /-- a CMP_VAL has been taken that R177 has not judged yet -/
  newV : Bool
  /-- since the last evaluation the source has jumped, or another source or direction has been selected -/
  jumped : Bool
  /-- the point lies behind the source, which has not crossed it -/
  passed : Bool
  /-- the pin's level -/
  pin : Bool
  deriving DecidableEq, Repr, Inhabited

/-- One emulation output (R181–R184). -/
structure EmuSt where
  /-- the instants of the steps placed in this ring cycle, and their sign -/
  steps : List Nat
  up : Bool
  writes : List (Nat × Nat)
  align : Bool
  pinA : Bool
  pinB : Bool
  pinZ : Bool
  deriving DecidableEq, Repr, Inhabited

/-! ### 09 and 10: rings, nodes, cartridges (R188–R227) -/

/-- What an ENUM answer and the RING section give a node at bring-up (R195, R210): its address, serial, type, origin, hop, slot set, turnaround
F, and the ring cycle from which its ASSIGN takes effect. -/
structure Give where
  node : Nat
  serial : Nat
  typ : Nat
  origin : Nat
  hop : Nat
  slots : Nat
  turn : Nat
  cycle : Nat
  deriving DecidableEq, Repr, Inhabited

/-- Whose service transaction it is (R211): the host's, a write of QUIET_KHZ (0) or STRONG_KHZ (1) (R217), or an ASSIGN of a swap
(R201). -/
inductive TxnOwner where
  | host
  | pwm (which : Nat)
  | assign
  /-- ENUM of a hop on an origin (R210 phase 3) -/
  | enum (origin hop : Nat)
  /-- the ASSIGN of bring-up -/
  | give (g : Give)
  /-- PROBE of a node (R209) -/
  | probe (node : Nat)
  /-- part `part` of the identity and life records of a node (R219): 8 and 64 READs of 32 bytes -/
  | ident (part : Nat)
  /-- part `part` of a life record write (R220): three WRITEs, two READs -/
  | life (part : Nat)
  deriving DecidableEq, Repr, Inhabited

/-- A service transaction (R195, R211). -/
structure Txn where
  owner : TxnOwner
  op : Nat
  node : Nat
  addr : Nat
  len : Nat
  data : List Nat
  tag : Nat
  /-- HOPS and ORIGIN, of OP 3 and 5 -/
  hops : Nat
  origin : Nat
  /-- it is in the SERVICE slots that start from this instant on; none while it waits -/
  since : Option Nat
  /-- sendings without an accepted response, and STATUS 3 answers -/
  tries : Nat
  busy : Nat
  /-- the response that ends it: STATUS, DATA -/
  resp : Option (Nat × List Nat)
  deriving DecidableEq, Repr, Inhabited

/-- One ring cycle of a ring, from its cycle-start until the last window of its slots has closed (R198, R200, R201). -/
structure RingCyc where
  cycle : Nat
  /-- the master cycle-start instant -/
  start : Nat
  /-- the active table as the cycle runs it -/
  table : List Nat
  /-- the AXIS slots of addressed, unmuted nodes -/
  expect : List Nat
  both : Bool
  /-- EXTEND in its cycle-start -/
  extend : Bool
  /-- C_P in force on SPk_A and SPk_B, and whether a valid copy of this cycle-start gave it -/
  cA : Option Nat
  cB : Option Nat
  okA : Bool
  okB : Bool
  /-- a copy with RETURN 0 came back on SPk_B; one came back on some port -/
  ret0 : Bool
  thru : Bool
  accepted : List Nat
  closed : List Nat
  /-- nodes with a response outside its window -/
  edges : List Nat
  /-- slot, serial and type of the CLAIMs accepted, and the slots with a CONFIRM -/
  claims : List (Nat × Nat × Nat)
  confirms : List Nat
  judged : Bool
  deriving DecidableEq, Repr, Inhabited

/-- A ring port of the unit as a node (R188, R206, R208). -/
structure NodePort where
  /-- in loop-back: what would leave here leaves through the other port -/
  looped : Bool
  /-- it sends the remote-fault ordered set -/
  remoteFault : Bool
  /-- consecutive ring cycles with its link up -/
  upRun : Nat
  deriving DecidableEq, Repr, Inhabited

/-- One ring beyond its registers (R198–R211). -/
structure RingSt where
  cur : Option RingCyc
  prev : Option RingCyc
  /-- the master sends on both ports -/
  both : Bool
  /-- the last cycle-start sent on SPk_A only did not return on SPk_B (R207) -/
  unreturned : Bool
  /-- C_P of the last valid copy on each port, where the last cycle had one -/
  lastA : Option Nat
  lastB : Option Nat
  /-- the last closed loop delay (R209) -/
  loop : Option Nat
  /-- RING_HEALED has been logged since the fold; ring cycles with missing responses up to now -/
  healed : Bool
  holes : Nat
  reqReclose : Bool
  /-- the ring cycle whose cycle-start carries EXTEND in a re-close -/
  recloseAt : Option Nat
  /-- ring cycles within the delay budget, and a delay over it in this cycle -/
  within : Nat
  late : Bool
  reqMute : List Nat
  reqUnmute : List Nat
  /-- the offered serial and type of each CLAIMING slot -/
  offers : List (Nat × Nat × Nat)
  /-- a swap: the ring cycle of the request, the swap cycle, and the nodes whose ASSIGN is not acknowledged with their slots -/
  swapFrom : Nat
  swapAt : Option Nat
  assigns : List (Nat × Nat)
  assigned : Bool
  /-- the transaction in the SERVICE slots, the host's, and the controller's own that wait -/
  txn : Option Txn
  hostTxn : Option Txn
  ownTxns : List Txn
  hostTurn : Bool
  /-- bring-up (R210): the origins whose enumeration has begun, and has ended; the ASSIGNs acknowledged that wait for their ring cycle; the
  nodes whose PROBE has been sent, and the node that loops its onward port in a ring cycle -/
  enums : List Nat
  enumsEnded : List Nat
  gives : List Give
  probed : List Nat
  probing : Option (Nat × Nat)
  /-- the unit as a node (R195, R196, R206): its ports, ORIGIN of the stream it acts on, the ring cycle in which a PROBE has it loop its
  onward port, the frame forwarded last with the port it leaves by, and its last tap response with its ring cycle and port -/
  portA : NodePort
  portB : NodePort
  stream : Nat
  probeLoop : Option (Nat × Bool)
  forwarded : Option (Bool × List Nat)
  tapSent : Option (Nat × Bool × List Nat)
  deriving DecidableEq, Repr, Inhabited

/-- A life record (R220). -/
structure LifeRec where
  seq : Nat
  /-- the binary64 pattern of CONSUMED -/
  consumed : Nat
  onTime : Nat
  peaks : Nat
  tempPeak : Nat
  hist : List Nat
  writes : Nat
  deriving DecidableEq, Repr, Inhabited

/-- A life record write in progress (R220): the record, its slot, and whether it repeats a failed one. -/
structure LifeWrite where
  record : LifeRec
  slot : Nat
  again : Bool
  /-- what has been read back, whether its transactions have ended, and SVC_RESULT.STATUS of the last one -/
  back : List Nat
  ended : Bool
  status : Nat
  deriving DecidableEq, Repr, Inhabited

/-- A ring node beyond its registers (R199, R219–R222). -/
structure NodeSt where
  /-- its AXIS slot was accepted in the last ring cycle -/
  answers : Bool
  /-- the accepted identity record's bytes -/
  ident : List Nat
  /-- consecutive ring cycles with a response outside its window, and with every AXIS slot missing -/
  edgeRun : Nat
  missRun : Nat
  loopLink : Bool
  /-- it holds a claimed landing -/
  landing : Bool
  /-- the writes of QUIET_KHZ and STRONG_KHZ: 0 none, 1 under way, 2 done, 3 to be repeated -/
  pwmQ : Nat
  pwmS : Nat
  life : LifeRec
  /-- ring cycles not yet counted as a second: with an axis not OFF, and in each temperature band -/
  onPart : Nat
  bandPart : List Nat
  /-- the last ring cycle that they counted -/
  timed : Option Nat
  /-- ON_TIME at the last write -/
  onLast : Nat
  /-- the TSC of the last life record writes (R221) -/
  history : List Nat
  due : Bool
  writing : Option LifeWrite
  /-- F of its ENUM answer (R195) -/
  turn : Nat
  /-- the reading of its records (R219): begun, the bytes read, complete -/
  reading : Bool
  readBuf : List Nat
  readDone : Bool
  /-- its landing is released at the next cycle-start (R205) -/
  release : Bool
  deriving DecidableEq, Repr, Inhabited

/-- An entry of the cartridge mirror (R224). -/
structure MirrorEntry where
  serial : Nat
  ident : List Nat
  life : LifeRec
  /-- the order in which entries were last seen -/
  seen : Nat
  deriving DecidableEq, Repr, Inhabited


/-! ### 11: the separation engine (R228–R243) -/

/-- A point or direction in mm. -/
structure V3 where
  x : Rat
  y : Rat
  z : Rat
  deriving DecidableEq, Repr, Inhabited

/-- A capsule: two end points and a radius, in mm. -/
structure Capsule where
  a : V3
  b : V3
  r : Rat
  deriving DecidableEq, Repr, Inhabited

/-- A person slot beyond PER_STAT and PER_RAW (R232, R233). -/
structure PersonSt where
  /-- its capsules in the cell frame -/
  caps : List Capsule
  zd : Nat
  vh : Nat
  vhValid : Bool
  /-- the instant of the last commit; none before the first -/
  at' : Option Nat
  deriving DecidableEq, Repr, Inhabited

/-- An accepted person message that waits for its servo boundary (R16, R233, R308). -/
structure PersonMsg where
  conn : Nat
  data : List Nat
  /-- the servo cycle from which it is used -/
  use : Nat
  /-- it came over a Dorlu link (R339) -/
  remote : Bool
  deriving DecidableEq, Repr, Inhabited

/-- What an evaluation found for one island (R239–R241). -/
structure IslandEval where
  island : Nat
  factor : Nat
  cause : Nat
  partner : Nat
  /-- distance words: person, shoal, island -/
  dp : Nat
  ds : Nat
  di : Nat
  /-- it has a pair -/
  paired : Bool
  deriving DecidableEq, Repr, Inhabited

/-- The clearance evaluation of an orphaned narrows (R242, R257): its pairs at the 17 poses, and what they report. -/
structure ClearEval where
  narrows : Nat
  pairs : Nat
  clear : Bool
  deriving DecidableEq, Repr, Inhabited

/-- One evaluation of the separation engine, from its capture to its publication (R17, R18, R241–R243). -/
structure SepEval where
  /-- the cycle-start of its separation cycle -/
  start : Nat
  islands : List IslandEval
  /-- pair-table entries with their distance words -/
  entries : List (Nat × Nat)
  /-- the clearance evaluations of the orphaned narrows, in the order they are made -/
  clear : List ClearEval
  /-- pairs evaluated up to `since`, and pairs in all -/
  done : Nat
  since : Nat
  total : Nat
  /-- the factors are computed (the deadline has passed) -/
  computed : Bool
  deriving DecidableEq, Repr, Inhabited

/-- The separation engine beyond its registers (R238, R241). -/
structure SepSt where
  eval : Option SepEval
  /-- the least computed factor of the cycles counted by SEPI_RISE -/
  rise : Tbl Nat
  /-- physical pipelines in service, free spares, and spares that enter at the next separation boundary -/
  pipes : List Nat
  spares : List Nat
  entering : List Nat
  /-- writes of SH_CFG.ACTIVE that wait for the servo boundary -/
  shoalWrites : List (Nat × Bool)
  persons : List PersonMsg
  deriving DecidableEq, Repr, Inhabited

/-- The reset form: 64 pipelines in service and 8 spares (R238). -/
def SepSt.init : SepSt := { (default : SepSt) with pipes := List.range 64, spares := (List.range 8).map (64 + ·) }



/-! ### 12: narrows (R246–R264) -/

/-- A message about a narrows between devices (R262, R327): its operation, the narrows on the home, the node it goes to or comes from,
and the fields of its record. -/
structure NrwMsg where
  op : Nat
  narrows : Nat
  node : Nat
  island : Nat
  epoch : Nat
  est : Nat
  qpos : Nat
  next : Bool
  clear : Nat
  line : Nat
  seq : Nat
  deriving DecidableEq, Repr, Inhabited

/-- A narrows beyond its registers (R248–R259). -/
structure NrwSt where
  /-- the members whose requests are pending, with the servo cycle of their registration -/
  order : List (Nat × Nat)
  /-- the instant of the grant -/
  grantAt : Nat
  /-- the owner's exit segment: 0 not started, 1 started and the decision due, 2 decided -/
  exit : Nat
  /-- the items of a proxy for which a registration has gone to the home -/
  asked : List Nat
  /-- the zone watchdog has reached WD and bites at the next servo boundary -/
  bite : Bool
  deriving DecidableEq, Repr, Inhabited

/-! ### 13: the safety channels (R265–R295) -/

/-- A latched stop demand of channel B (R271): cause, STO or SS1, groups, and the input, connection or axis, 0xFFFF none. -/
structure Demand where
  cause : Nat
  sto : Bool
  groups : Nat
  who : Nat
  deriving DecidableEq, Repr, Inhabited

/-- One safety input pair beyond IN_STAT (R273, R275, R276, R288). -/
structure InputSt where
  /-- the instant at which both lanes were last accepted closed -/
  closedAt : Option Nat
  /-- the instant since which the lanes disagree -/
  splitAt : Option Nat
  /-- both lanes have been accepted low together since the fault -/
  lowSeen : Bool
  /-- consecutive failed test pulses of lane A and lane B -/
  failA : Nat
  failB : Nat
  deriving DecidableEq, Repr, Inhabited

/-- What channel B holds of an axis on the ring tap (R278). -/
structure TapSt where
  raw : Option Nat
  /-- movement in counts since the first tap value -/
  pos : Int
  missed : Nat
  /-- consecutive ring cycles with |Δ| ≤ SSTILL_CNT -/
  quiet : Nat
  /-- its position at the first report of its group as all OFF -/
  ref : Option Int
  /-- STANDSTILL_LOST has been logged for this reference -/
  lost : Bool
  deriving DecidableEq, Repr, Inhabited

/-- Channel A's report (R279): its count, the device state, and the axes that are not torque-free. -/
structure Report where
  count : Nat
  state : Nat
  sig : Nat
  /-- the accepted input states of the last capture: bit i of input pair i accepted closed -/
  inputs : Nat
  notFree : List Nat
  /-- the latched island stops: island and cause -/
  stops : List (Nat × Nat)
  deriving DecidableEq, Repr, Inhabited

/-- Channel B (R265–R280). -/
structure ChB where
  /-- VDD_SAFE is valid and channel B is ready (R384) -/
  ready : Bool
  /-- self-supervision has failed (cause 17) -/
  faulted : Bool
  demands : List Demand
  /-- the instant and cause of the running SS1 of each group -/
  ss1 : Tbl (Option (Nat × Nat))
  inputs : Tbl InputSt
  taps : Tbl TapSt
  /-- the last report accepted, whether the last one was valid, the instant of the last arrival, mismatches and failures in a row -/
  report : Option Report
  valid : Bool
  arrivedAt : Option Nat
  /-- the count of the last report that arrived whole; none before the first and after a missing one -/
  lastCount : Option Nat
  mismatches : Nat
  failures : Nat
  /-- the confirmed signature, in non-volatile memory (R288) -/
  confirmed : Nat
  /-- the signature agreed at the previous LOAD (R287) -/
  lastSig : Option Nat
  deriving DecidableEq, Repr, Inhabited

/-- Channel B holds a demand of cause 19 on every group (R271). -/
def ChB.init : ChB := { (default : ChB) with demands := [⟨19, true, 0xFFFF, 0xFFFF⟩] }

/-- A safety connection beyond its registers (R292–R294). -/
structure ConnSt where
  /-- the candidate's SEQ and its instant -/
  cand : Option (Nat × Nat)
  /-- the instant of the last acceptance, or of the last message sent -/
  at' : Nat
  seqErrs : Nat
  /-- the instant of the last SAFE_CONN_ERROR record -/
  loggedAt : Option Nat
  /-- STO_PERMIT, SS1_PERMIT of the last COMMAND accepted; none before the first -/
  permits : Option (Nat × Nat)
  reset : Bool
  /-- the last message sent -/
  sent : List Nat
  deriving DecidableEq, Repr, Inhabited

/-- Channel A's supervision of one island (R270, R271, R285). -/
structure IsaSt where
  v0 : Rat
  since : Nat
  /-- consecutive safety cycles above V_SSTILL and above the reduced-speed limit -/
  above : Nat
  fast : Nat
  deriving DecidableEq, Repr, Inhabited

/-- Channel A (R281–R286). -/
structure ChA where
  /-- the instant of the capture whose demands are not latched yet -/
  capturedAt : Option Nat
  /-- the violations of the last capture: island and cause; and the groups of cause 10 -/
  found : List (Nat × Nat)
  stoGroups : Nat
  /-- the evaluation has ended -/
  done : Bool
  /-- the instant of the last capture with its sphere centres; none before the first -/
  lastAt : Option Nat
  /-- sphere centres at the last capture: island, link, centre -/
  centres : List (Nat × Nat × V3)
  /-- the accepted input states of the last capture -/
  inputs : Nat
  /-- the report sent and not yet arrived, and its count -/
  report : Option Report
  count : Nat
  deriving DecidableEq, Repr, Inhabited


/-! ### 14: duplex (R301–R320) -/

/-- A mirrored input (R306): its kind, the servo cycle from whose beginning both units use it, and its body's bytes. -/
structure MirrorRec where
  kind : Nat
  use : Nat
  body : List Nat
  deriving DecidableEq, Repr, Inhabited

/-- A mirrored frame of the active until it is acknowledged (R306, R307): its SEQ and records. -/
structure MirrorFrame where
  seq : Nat
  records : List MirrorRec
  deriving DecidableEq, Repr, Inhabited

/-- One ring cycle of the recomputation record of an axis (R312): its cycle number, the mailbox words 0x00–0x1F of the slot, the words that the
LAWS section declares as its state, and the drive block that the unit made of it. -/
structure Recomp where
  cycle : Nat
  mbox : List Nat
  words : List Nat
  block : Option DriveBlock
  deriving DecidableEq, Repr, Inhabited

/-- The state of a unit of a duplex pair beyond its registers (R304–R318). -/
structure DpxSt where
  /-- the instant at which listening or synchronisation began -/
  since : Nat
  /-- what the partner last reported: role, device state, PROMO, STALE, SYNCED -/
  pRole : Option Nat
  /-- the partner's DPX_POS, from the lane training of a lane that is up (R452) -/
  pPos : Option Bool
  pPromo : Nat
  pStale : Bool
  pSynced : Bool
  /-- a heartbeat has arrived in the present servo cycle; the heartbeat is lost, by RELINQUISH or by time; the number sent -/
  hbSeen : Bool
  hbLost : Bool
  relinquished : Bool
  hbCount : Nat
  /-- the device state of the active, for the next servo boundary -/
  devNext : Option Nat
  /-- the instant of the loss of the partner link -/
  lostAt : Option Nat
  /-- SEQ of the next frame to send, and the frames sent since the last servo boundary, with header and CRC -/
  seq : Nat
  sent : List (List Nat)
  /-- SEQ of the latest frame received -/
  rxSeq : Option Nat
  /-- MIRROR frames kept for RETRANSMIT -/
  kept : List MirrorFrame
  /-- receiver: SEQ of the last MIRROR frame received complete, and whether one came in the present servo cycle -/
  mirSeq : Option Nat
  mirSeen : Bool
  /-- synchronisation: attempts, the instant of the checkpoint's first frame, the regions received -/
  attempts : Nat
  ckptFrom : Option Nat
  regions : List (Nat × List Nat)
  /-- one full valid ring cycle has been observed on every enabled ring -/
  observed : Bool
  /-- the checkpoint is installed -/
  installed : Bool
  /-- per ring: the cycle number and instant of the last cycle-start acted on, and the port it arrived on -/
  heard : Tbl (Option (Nat × Nat × Bool))
  /-- DELAY last received in the tap, by ring -/
  delays : Tbl Nat
  /-- bytes 4–13 of the axis polls forwarded in the ring cycle: key 32 * ring + slot -/
  polls : Tbl (List Nat)
  /-- consecutive mismatches of each axis; a mismatch in this ring cycle -/
  runs : Tbl Nat
  mism : Bool
  /-- the slots that mismatched in the ring cycle, by ring -/
  mismSlots : Tbl Nat
  /-- axes that realign at this cycle number -/
  realign : List (Nat × Nat)
  /-- the divergence being resolved: axis and ring cycle; both verdicts; the outcome that waits for the servo boundary -/
  diverged : Option (Nat × Nat)
  own : Option Nat
  partner : Option Nat
  outcome : Option Nat
  /-- a handover: requested, announced in the tap poll of the ring cycle; and the role after it -/
  hoReq : Bool
  hoSent : Bool
  hoRole : Nat
  /-- a foreign active with precedence was met: this unit falls silent at the next cycle-start -/
  fall : Bool
  /-- HANDOVER came in a tap poll: this unit sends the next cycle-start -/
  hoTake : Bool
  /-- ring cycles since an accepted tap response -/
  tapRun : Nat
  /-- a unit that has left role ACTIVE as FAULTED drives the remote-fault set on its ring ports (R314) -/
  silenced : Bool
  /-- the unit's own drive block of the ring cycle that diverged (R312) -/
  block : Option DriveBlock
  /-- the recomputation record of each axis, newest first (R312) -/
  recomp : Tbl (List Recomp)
  /-- the active's checkpoint (R318): the state regions as sent, the cycle number from which the next round goes, and when it ended -/
  ckptSent : List (Nat × List Nat)
  ckptNext : Nat
  ckptEnd : Option Nat
  deriving DecidableEq, Repr, Inhabited

/-! ### 15: shared lines (R340) -/

/-- A shared line as last published (R327, R340): the LINE record, and federation cycles without one. -/
structure SharedLine where
  /-- it has been published to this device -/
  got : Bool
  pos : Int
  vel : Int
  ft : Nat
  missed : Nat
  deriving DecidableEq, Repr, Inhabited

/-! ### 16: time domains (R346–R353) -/

/-- A time domain beyond its registers (R346–R352). -/
structure TdSt where
  /-- domain time in units of 2^-41 ns at the TSC `base` -/
  time : Int
  base : Nat
  /-- the integral term I of R347 -/
  int : Int
  /-- a measurement has been made since the entry to ACQUIRING; it was entered by R351 -/
  seen : Bool
  back : Bool
  /-- consecutive measurements with |θ| < LOCK_NS, and the last 16 path delays -/
  good : Nat
  delays : List Int
  /-- a host command for the next measurement: 1 ACCEPT_STEP, 2 CONFIRM_ASYM -/
  cmd : Option Nat
  /-- the Sync taken: sequence number, arrival, origin if known, corrections (2^-41 ns) -/
  sync : Option (Nat × Int × Option Int × Int)
  /-- the instant of the last Sync -/
  syncAt : Nat
  /-- departure of the Delay_Req or Pdelay_Req sent, and its sequence number -/
  req : Option (Nat × Int)
  /-- stable delays in HOLDOVER: since when, how many, their sum, least and greatest -/
  stable : Option (Nat × Nat × Int × Int × Int)
  /-- grandmaster identity -/
  gm : Nat
  /-- a step since the last snapshot -/
  stepped : Bool
  /-- the instant of the last Sync sent, and the next sequence number -/
  sentAt : Option Nat
  seq : Nat
  deriving DecidableEq, Repr, Inhabited

/-- What an Ethernet port sent last (R343, R345): a kind and its words. -/
structure EthOut where
  port : Nat
  /-- 0 ARP reply, 1 echo reply, 2 Sync, 3 Follow_Up, 4 Delay_Req, 5 Pdelay_Req, 6 Delay_Resp, 7 Pdelay_Resp, 8 Announce, 9 service response, 10 a UDP datagram with a safety message -/
  kind : Nat
  /-- the bytes of the fields that the spec gives it, in the order of its standard: domain, sequence, time; MAC and IPv4 address; data; UDP port, safety message -/
  bytes : List Nat
  deriving DecidableEq, Repr, Inhabited

/-! ### 17: queues and the point-stream port (R356–R366) -/

/-- A word of a queue with its tag (R358), and the servo cycle from which it may be popped in a duplex pair (R366). -/
structure QWord where
  bytes : List Nat
  valid : Nat
  last : Bool
  start : Nat
  /-- the instant of its push: it may be popped from the next queue cycle on (R360, R363) -/
  at' : Nat
  deriving DecidableEq, Repr, Inhabited

/-- One queue with its packer (R358–R361). -/
structure QueueSt where
  words : List QWord
  /-- the assembly buffer's bytes -/
  asm : List Nat
  /-- the closed word the assembly buffer holds -/
  closed : Option QWord
  staged : Option QWord
  /-- words of the unfinished record at the tail -/
  tail : Nat
  /-- words are discarded up to and including the next LAST (R361) -/
  discard : Bool
  /-- words of the head record whose event item has been admitted and that are not yet popped -/
  taken : Nat
  /-- the queue cycle in which a pop found the queue full (R363), and the one in which a flush empties it (R365) -/
  fullAt : Option Nat
  flushAt : Option Nat
  deriving DecidableEq, Repr, Inhabited

/-! ### 18: what an image loads beside registers (R375) -/

/-- A member of an island (kind 3): an axis or an island. -/
structure Member where
  isIsland : Bool
  number : Nat
  deriving DecidableEq, Repr, Inhabited

/-- ISLAND, kind 3. -/
structure IslandDecl where
  island : Nat
  toolPoint : Bool
  members : List Member
  deriving DecidableEq, Repr, Inhabited

/-- AXIS, kind 4. -/
structure AxisDecl where
  axis : Nat
  kind : Nat
  polePairs : Nat
  nbits : Nat
  absolute : Bool
  brake : Bool
  encLines : Nat
  encCpr : Nat
  commOfs : Nat
  perStep : Nat
  posOfs : Int
  zero : Int
  scale : Nat
  deriving DecidableEq, Repr, Inhabited

/-- NODEMAP, kind 5. -/
structure NodeMap where
  ring : Nat
  origin : Nat
  hop : Nat
  node : Nat
  slots : Nat
  deriving DecidableEq, Repr, Inhabited

/-- LAWDECL, kind 7. -/
structure LawDecl where
  engine : Nat
  slot : Nat
  iBase : Nat
  uBase : Nat
  pBase : Nat
  wBase : Nat
  rates : Nat
  words : List Nat
  deriving DecidableEq, Repr, Inhabited

/-- IMPORT, kind 8. -/
structure ImportDecl where
  engine : Nat
  words : List Nat
  deriving DecidableEq, Repr, Inhabited

/-- PROGRAM, kind 9. -/
structure ProgDecl where
  flow : Nat
  cls : Nat
  entry : Nat
  trigger : Nat
  source : Nat
  trigFlow : Nat
  slots : List Nat
  deriving DecidableEq, Repr, Inhabited

/-- LINK, kind 11. -/
structure LinkDecl where
  island : Nat
  link : Nat
  parent : Nat
  axis : Nat
  m : List Nat
  screw : List Nat
  zero : Int
  scale : Nat
  deriving DecidableEq, Repr, Inhabited

/-- ISLBASE, kind 12. -/
structure BaseDecl where
  island : Nat
  parent : Nat
  mount : Nat
  t : List Nat
  deriving DecidableEq, Repr, Inhabited

/-- CAPSULE, kind 13, and SPHERE, kind 15: a link and its binary32 numbers. -/
structure BodyDecl where
  island : Nat
  link : Nat
  nums : List Nat
  deriving DecidableEq, Repr, Inhabited

/-- MASK, kind 14. -/
structure MaskDecl where
  island : Nat
  persons : Nat
  shoals : Nat
  deriving DecidableEq, Repr, Inhabited

/-- SHOAL, kind 16: a safety-rated shoal. -/
structure ShoalDecl where
  shoal : Nat
  nums : List Nat
  deriving DecidableEq, Repr, Inhabited

/-- SAFEISL, kind 17. -/
structure SafeIsl where
  island : Nat
  ca : Nat
  zra : Nat
  vhMin : Nat
  shMargin : Nat
  persons : Nat
  shoals : Nat
  deriving DecidableEq, Repr, Inhabited

/-- PCONN, kind 19. -/
structure PConn where
  conn : Nat
  first : Nat
  count : Nat
  t : List Nat
  deriving DecidableEq, Repr, Inhabited

/-- NETADDR, kind 26. -/
structure NetAddr where
  port : Nat
  vlan : Bool
  vlanId : Nat
  mac : Nat
  ip : Nat
  mask : Nat
  deriving DecidableEq, Repr, Inhabited

/-- Every table an image loads that has no register. All empty until a LOAD selects a copy (R8). -/
structure Img where
  islands : List IslandDecl
  axes : List AxisDecl
  nodeMaps : List NodeMap
  laws : List LawDecl
  imports : List ImportDecl
  programs : List ProgDecl
  /-- counter, entry address (kind 10) -/
  counters : List (Nat × Nat)
  links : List LinkDecl
  bases : List BaseDecl
  capsules : List BodyDecl
  masks : List MaskDecl
  safeLinks : List LinkDecl
  safeBases : List BaseDecl
  spheres : List BodyDecl
  safeShoals : List ShoalDecl
  safeIsls : List SafeIsl
  sbits : List Nat
  pconns : List PConn
  autoStart : Bool
  /-- LINEMAP words (R36) -/
  lineMap : List Nat
  /-- stored signature of the SAFE section (R376) -/
  signature : Nat
  /-- shoals whose SH_CFG the image loads (R373) -/
  shoalsUsed : List Nat
  duplex : Bool
  regions : List (Nat × Nat)
  federation : Bool
  ranks : List Nat
  exports : List Nat
  net : List NetAddr
  /-- HDR_CRC and SEQ of the copy in use; none without one (R305, R379) -/
  hdrCrc : Nat
  seq : Option Nat
  deriving DecidableEq, Repr, Inhabited

/-! ### 20: event records, log, service transports (R402–R418) -/

/-- An event record (R413). -/
structure EventRec where
  tsc : BitVec 64
  source : BitVec 12
  code : BitVec 12
  remote : Bool
  archived : Bool
  early : Bool
  precycle : Bool
  line : BitVec 64
  cycle : BitVec 32
  d0 : BitVec 32
  d1 : BitVec 32
  deriving DecidableEq, Repr, Inhabited

/-! ### 15: the archipelago (R321–R340) -/

/-- A line's publication as captured at a separation boundary (R340): line axis, position, velocity, FT. -/
structure LinePub where
  line : Nat
  pos : Nat
  vel : Nat
  ft : Nat
  deriving DecidableEq, Repr, Inhabited

/-- A device of the archipelago beyond its registers (R324–R337). -/
structure FedSt where
  /-- the instant listening began -/
  since : Nat
  /-- the reference acted on, or sent, in the present federation cycle: its instant, its acting port, its FCYC; none while silent -/
  ref : Option (Nat × Nat × Nat)
  /-- the instant of the last reference acted on, and whether it was FOLDED -/
  lastRef : Nat
  refFolded : Bool
  /-- master: the instant at which the next reference is due; none where the next separation boundary sets it -/
  due : Option Nat
  /-- the own slot frame of this cycle has been sent -/
  slotSent : Bool
  /-- the master whose reference was last acted on, and how many of its references in a row -/
  run : Nat × Nat
  /-- the delay of the link on each port, units of 1/16 ns (R332) -/
  linkDelay0 : Nat
  linkDelay1 : Nat
  /-- a LINK_REQ sent: its instant and port -/
  req : Option (Nat × Nat)
  /-- FED_OFS of the last two federation cycles, the latest first (R333) -/
  ofs : List Int
  /-- nanoseconds by which the coming ring cycles are to be lengthened (R334) -/
  trim : Int
  /-- slot frames accepted: node, FCYC (R330) -/
  taken : List (Nat × Nat)
  /-- nodes heard in the present cycle and in the one before, with the port -/
  heard : List (Nat × Nat)
  heardPrev : List (Nat × Nat)
  /-- federation cycles in a row in which a node went unheard (R262) -/
  unheard : Tbl Nat
  /-- shared lines published in the present cycle (R34) -/
  gotLines : List Nat
  /-- nodes with a frame outside its window in this cycle, and in how many cycles in a row (R331) -/
  edges : List Nat
  edgeRuns : Tbl Nat
  /-- nodes that report LOOPED, and those of them that report LOOP_LINK (R337) -/
  looped : List Nat
  loopLinks : List Nat
  /-- master: relays for the next cycle: node, FCYC, the port to send on, the body received (R331) -/
  relays : List (Nat × Nat × Nat × List Nat)
  /-- master: nodes to mute and to unmute from the next reference -/
  mutes : List Nat
  unmutes : List Nat
  /-- master: C_P of each port in this cycle, and the return of the reference on DL0 with RETURN 0 -/
  c0 : Option Nat
  c1 : Option Nat
  back : Bool
  /-- master: the reference before: its instant, its FCYC, C_P of DL0 and DL1 -/
  prev : Option (Nat × Nat × Option Nat × Option Nat)
  /-- master: the last reference did not return; it sends on both ports; a foreign master with precedence was met -/
  unreturned : Bool
  both : Bool
  yield : Bool
  /-- master: a re-close requested; the FCYC whose reference carries EXTEND -/
  reqReclose : Bool
  recloseAt : Option Nat
  /-- nodes heard in the last closed cycle; RING_HEALED logged since the fold; cycles in which nodes went unheard -/
  closed : List Nat
  healed : Bool
  holes : Nat
  /-- the own looped link: federation cycles it has been up -/
  loopRun : Nat
  /-- queues of the slot frames (R328) -/
  pubs : List LinePub
  safety : List (List Nat)
  events : List EventRec
  /-- EVENT records dropped since the last FED_TX_DROP, and its instant -/
  dropped : Nat
  dropAt : Option Nat
  /-- frames sent last: port, bytes -/
  sent : List (Nat × List Nat)
  /-- the frame forwarded last: the port it left on, bytes (R329) -/
  forwarded : List (Nat × List Nat)
  /-- the port in loop-back (R337), and the ports on which the remote-fault sequence is sent (R321) -/
  loopPort : Option Nat
  remoteFault : List Nat
  deriving DecidableEq, Repr, Inhabited

/-! ### 18: the image write session (R379, R380) -/

/-- An image write session beyond IMG_STAT (R379, R380). -/
structure ImgSess where
  /-- the header buffer: bytes 0–255, an unlisted one as erased -/
  hdr : Tbl Nat
  /-- byte offsets of the flash words written in this session -/
  done : Tbl Bool
  /-- the last IMG_OFS write was refused -/
  ofsBad : Bool
  /-- data words that wait for other flash writes: offset, word -/
  waiting : List (Nat × Nat)
  deriving DecidableEq, Repr, Inhabited

/-! ### 20: the event archive (R418) -/

/-- The archive's page buffer and position (R418). -/
structure ArcSt where
  /-- records in the page buffer, oldest first -/
  buf : List EventRec
  /-- the instant the first record entered the buffer -/
  since : Nat
  /-- the device has entered STOPPING or SHUTDOWN_TEST with records in the buffer -/
  flush : Bool
  /-- flash address and PSEQ of the next page; none before the first valid page -/
  pos : Nat
  pseq : Nat
  deriving DecidableEq, Repr, Inhabited

/-! ### 19: self-test and repair (R385–R398) -/

/-- Which physical core, engine and pipeline stands at each logical position (R395). -/
structure RepMap where
  cores : List Nat
  engs : List Nat
  pipes : List Nat
  deriving DecidableEq, Repr, Inhabited

/-- A repair record (R395): ELEMENT bytes by element, an unlisted one 0; row entries as element, spare row, failed row. -/
structure RepRec where
  seq : Nat
  origin : Nat
  map : RepMap
  elems : Tbl Nat
  rows : List (Nat × Nat × Nat)
  deriving DecidableEq, Repr, Inhabited

/-- A self-test run (R389–R392, R398). -/
structure TestRun where
  /-- path of R399: 0 shutdown, 1 start, 3 direct -/
  path : Nat
  /-- groups still to finish, the one in progress first: group number, elements, steps -/
  groups : List (Nat × List Nat × Nat)
  /-- steps ended in the group in progress, and the instant the present step began -/
  step : Nat
  since : Nat
  /-- elements and groups of the whole run -/
  elements : Nat
  total : Nat
  /-- a full test at POWER_UP, with both record copies invalid (R388) -/
  full : Bool
  /-- SHDN_REQ_N was released: the run ends with the present step (R392) -/
  abandon : Bool
  deriving DecidableEq, Repr, Inhabited

/-- Self-test and repair beyond their registers. -/
structure RepSt where
  /-- the factory repair map, in fuses (R385): positions at shipping, failed elements, locked -/
  factory : RepMap
  factoryFailed : List Nat
  locked : Bool
  /-- the record in use, with what tests have changed since it was read or written -/
  rcd : RepRec
  /-- results kept in on-die memory across a warm start (R392) -/
  carried : Bool
  run : Option TestRun
  /-- ORIGINs of the records that wait to be written (R388) -/
  due : List Nat
  /-- consecutive passes of each element in direct tests (R398) -/
  passes : Tbl Nat
  /-- the rotation: next logical engine, the instant the period runs from, former physical engine, the instant of the test's start -/
  rotNext : Nat
  rotAt : Nat
  rotFrom : Nat
  rotTest : Nat
  /-- the copy has ended and the engine moves at the next servo boundary; the test waits for OUTCOME (R397) -/
  rotMove : Bool
  rotPaused : Bool
  deriving DecidableEq, Repr, Inhabited

/-- As shipped: nothing repaired, every position in its place (R395). -/
def RepMap.plain : RepMap := ⟨List.range 16, List.range 16, List.range 64⟩

/-- As shipped. -/
def RepSt.init : RepSt :=
  { (default : RepSt) with factory := RepMap.plain, locked := true, rcd := ⟨0, 0, RepMap.plain, [], []⟩ }

/-! ### 21: on-die non-volatile memory, governor (R385, R423–R430) -/

/-- On-die non-volatile memory of the controller die: life-cycle state, life sum in equivalent hours, AF of each second of the last
720 h (latest first), powered seconds (R385, R430). -/
structure Nvm where
  lifecycle : Nat
  sum : Rat
  afs : List Rat
  powered : Nat
  deriving DecidableEq, Repr, Inhabited

/-- As shipped, in COMMISSION (R385), with nothing aged. -/
def Nvm.init : Nvm := ⟨2, 0, [], 0⟩

/-- The governor beyond its registers (R423–R430). -/
structure GovSt where
  /-- the instants since which every sample was at or above 105 °C, and below 100 °C -/
  hot : Option Nat
  cool : Option Nat
  /-- a sample at or below 95 W that did not raise the credit came last -/
  half : Bool
  /-- SS1 of the root islands has been given for the present STOP -/
  stopped : Bool
  /-- samples of the present second and their sum of Tj -/
  count : Nat
  tsum : Int
  /-- life sum, AF of the last seconds and powered seconds up to now -/
  sum : Rat
  afs : List Rat
  powered : Nat
  /-- powered seconds at the last store -/
  stored : Nat
  deriving DecidableEq, Repr, Inhabited

/-! ### 20: the log ring and the service transports (R405–R418) -/

/-- The log ring beyond its registers (R415–R417). -/
structure LogSt where
  /-- the DRAM that holds the log area is usable; otherwise the on-die buffer is the ring (R416) -/
  dram : Bool
  /-- H: records held -/
  held : Nat
  /-- the on-die buffer as ring: record n at n mod 256 -/
  buf : Tbl (List Nat)
  /-- the instants at which the records held were written, by n mod 65536 -/
  written : Tbl Nat
  deriving DecidableEq, Repr, Inhabited

/-- A UDP client of the service interface (R410): address, port, the TAG of its last request and the response. -/
structure SvcClient where
  ip : Nat
  port : Nat
  tag : Nat
  resp : List Nat
  deriving DecidableEq, Repr, Inhabited

/-- The service interface beyond its registers (R405–R410). -/
structure SvcSt where
  /-- the SPI status word (R406), whether a READ or WRITE transaction is open, and words of it clocked so far -/
  spi : Nat
  spiOpen : Bool
  /-- clients, the one heard last first -/
  clients : List SvcClient
  deriving DecidableEq, Repr, Inhabited


/-! ### The state -/

/-- The whole state of the block. -/
structure State where
  /-- The commands that wait, first in first out (the model's queue; DESIGN CHOICE of the block form). -/
  pending : List Instr
  /-- TSC, 64 bits (R24; reset 0). -/
  tsc : BitVec 64
  /-- The register space: words that differ from their reset word, by byte address (R4, R8, R411). -/
  regs : Tbl (BitVec 32)
  /-- W1C fields the controller has raised: key 32 * address + lowest bit, 1 + the instant and how often at that instant (R7). -/
  raised : Tbl (Nat × Nat)
  /-- The device-state machine and the cycle timer (R9-R23, R459). -/
  dev : Dev
  /-- Upper halves latched by a read of a lower half, kept for each transport (R23, R25, R402): key 2^32 * transport + address of the upper half, value 1 + the word. -/
  latches : Tbl Nat
  /-- L0-L7 beyond their registers (R28-R35). -/
  lines : Tbl LineSt
  /-- The pool of line actions by index (R37; reset empty). -/
  acts : Tbl (Option Act)
  /-- The flow of each island (R45-R66; reset IDLE, nothing released). -/
  flows : Tbl FlowSt
  /-- The setpoint state of each axis (R51). -/
  setpts : Tbl Setpoint
  /-- The profile generators (R67-R69). -/
  pgs : Tbl PgSt
  /-- The image's tables (R375). -/
  img : Img
  /-- Records made and not yet written to the log ring (R417). -/
  toLog : List EventRec
  /-- For each source, 1 + the TSC of its last record (R26). -/
  lastTsc : Tbl Nat
  /-- The model's own counter of free values drawn (not of the spec). -/
  freeCount : Nat
  /-- The words the last host read returned. -/
  out : List Nat
  /-- Fabric memory, SRAM and DRAM, by fabric byte address; an unlisted byte reads 0 (R73, R387, R411). -/
  mem : List Host.Cell
  /-- The axis channels beyond their registers (R143-R161). -/
  axes : Tbl AxSt
  /-- Narrows exits of segments that ended: island, narrows, SEQ (R253), taken at the arbitration of the same boundary. -/
  nrwExits : List (Nat × Nat × Nat)
  /-- Narrows whose entry point a run passed before it left its flow: island, narrows (R251), taken at the same arbitration. -/
  nrwEntered : List (Nat × Nat)
  /-- Exit segments that a FLUSH discarded: island, narrows (R254, R255). -/
  nrwFlushed : List (Nat × Nat)
  /-- The narrows beyond their registers (R248-R259). -/
  nrws : Tbl NrwSt
  /-- Writes of NRW_REL that wait for the servo boundary: narrows, epoch, tag (R258). -/
  nrwRels : List (Nat × Nat × Nat)
  /-- The start evaluation of R260 has been made. -/
  nrwReady : Bool
  /-- Narrows messages received and not yet taken (R262). -/
  nrwIn : List NrwMsg
  /-- Narrows messages queued for the slot frames (R262, R328). -/
  nrwOut : List NrwMsg
  /-- Axes whose life record a disable has made due (R221). -/
  lifeDue : List Nat
  /-- The feedback of each axis (R164-R171). -/
  fbs : Tbl FbSt
  /-- The local encoders (R172-R174). -/
  encs : Tbl EncSt
  /-- The compare channels (R175-R180). -/
  cmps : Tbl CmpSt
  /-- The emulation outputs (R181-R184). -/
  emus : Tbl EmuSt
  /-- The ring nodes beyond their registers: key 32 * ring + node (R199, R219-R222). -/
  nodes : Tbl NodeSt
  /-- The matching store by entry 0-1023 (R76-R84; reset empty). -/
  items : Tbl (Option Item)
  /-- The number of admissions and readiness events so far, which orders items (R78, R80). -/
  serial : Nat
  /-- The last item admitted to each flow (R77). -/
  flowPrev : Tbl (Option PrevItem)
  /-- 1 + the physical core that last ran an item of each flow (R81). -/
  flowCore : Tbl Nat
  /-- Triggers of each event flow that wait for admission (R75, R76). -/
  trigs : Tbl Nat
  /-- submissions of planning cores that wait for room, oldest first: the entry whose program is suspended, where one is, and the
  descriptor's bytes (R76) -/
  submitted : List (Option Nat × List Nat)
  /-- logical cores that save (2) or restore (3) an item's context, and until when (R82, R92) -/
  coreSwap : Tbl (Nat × Nat)
  /-- The dependence counters (R79). -/
  dcs : Tbl DcSt
  /-- The fabric targets (R87-R90). -/
  tgts : Tbl TgtSt
  /-- Fabric ports whose transfer in progress was answered with an error by an isolation (R90). -/
  fabErr : List Nat
  /-- Q0-Q31 with their packers and staged words (R358-R361; emptied at the end of LOAD). -/
  queues : Tbl QueueSt
  /-- The instant of the last PS_SELECT_ERROR record (R356). -/
  psErrAt : Option Nat
  /-- Mirrored inputs that the motion side takes at their boundary of use (R306). -/
  mirrorHeld : List MirrorRec
  /-- Mirrored inputs not yet sent in a MIRROR frame (R306). -/
  mirrorOut : List MirrorRec
  /-- The shared lines of the archipelago as last received (R340). -/
  shared : Tbl SharedLine
  /-- The federation time of the federation instant of the last reference acted on (R333). -/
  fedFt : Nat
  /-- The change of FED_OFS over the last two federation cycles (R333). -/
  fedDrift : Int
  /-- The data space of the loop engines: X, Y, mailbox, engine words, import area (R117, R137, R138): key 2^18 * engine + word address (image, 0). -/
  lemem : Tbl (BitVec 32)
  /-- Program memory of the loop engines (R118): key 16384 * engine + address (image, 0). -/
  leprog : Tbl (BitVec 32)
  /-- The coefficient banks (R96): key 64 * (2 * (24 * engine + slot) + bank) + index (image, 0). -/
  coefs : Tbl (BitVec 32)
  /-- The coefficient queue of each logical engine (R102). -/
  coefQ : Tbl (List CoefEntry)
  /-- The axis slots of the engines: key 32 * engine + slot (R98-R106). -/
  slots : Tbl SlotSt
  /-- The law indices of the image that name laws of the reference library (R94, R116; which ones they are is image content). -/
  refLaws : List Nat
  /-- The trace units (R111-R114). -/
  traces : Tbl TraceSt
  /-- Trace memory (R111): key 16384 * engine + word. -/
  trmem : Tbl (BitVec 32)
  /-- The loop engines (R120, R126). -/
  engines : Tbl LeSt
  /-- The ring masters beyond their registers (R198-R211). -/
  rings : Tbl RingSt
  /-- The cartridge mirror in flash by entry 0-4095 (R224). -/
  cartMirror : Tbl (Option MirrorEntry)
  /-- The number of mirror entries seen so far, which orders them (R224). -/
  mirrorSeen : Nat
  /-- Mirror entries whose flash write is under way (R224, R381). -/
  mirrorBusy : List Nat
  /-- Serial and kind (0 WARN, 1 DERATED, 2 REFUSED) of the life events logged (R223). -/
  lifeLogged : List (Nat × Nat)
  /-- The separation engine beyond its registers (R233-R241). -/
  sep : SepSt
  /-- The person slots P0-P63 beyond their registers (R232, R233). -/
  persons : Tbl PersonSt
  /-- Channel B, the Prondaty die (R265-R280). -/
  chb : ChB
  /-- Channel A beyond its registers (R281-R286). -/
  cha : ChA
  /-- Channel A's supervision of each island (R270, R271, R285). -/
  isas : Tbl IsaSt
  /-- The safety connections beyond their registers (R292-R295). -/
  conns : Tbl ConnSt
  /-- The duplex state beyond its registers (R304-R318). -/
  dpx : DpxSt
  /-- The archipelago beyond its registers (R324-R337). -/
  fed : FedSt
  /-- The time domains TD0-TD3 beyond their registers (R346-R352). -/
  tds : Tbl TdSt
  /-- What the Ethernet ports sent at the last command that made them send (R343-R345, R409). -/
  ethOut : List EthOut
  /-- The attached flash by byte address; an unlisted byte is erased and reads 0xFF (R369, R370). -/
  flash : List Host.Cell
  /-- The image write session (R379, R380). -/
  imgSess : ImgSess
  /-- The event archive's page buffer (R418). -/
  arc : ArcSt
  /-- Self-test and repair beyond their registers (R385-R398). -/
  rep : RepSt
  /-- On-die non-volatile memory of the controller die (R385, R430; as shipped: COMMISSION, by R385). -/
  nvm : Nvm
  /-- The governor beyond its registers (R423-R430). -/
  gov : GovSt
  /-- The log ring beyond its registers and the log area (R415-R417). -/
  logst : LogSt
  /-- The service interface beyond its registers (R405-R410). -/
  svc : SvcSt
  deriving DecidableEq, Repr

/-- The state right after power-on reset: PGOOD low, every register at its reset word (R8), nothing in progress, no command
waiting. Values the spec does not state are named in notes/assumptions/3.md. -/
def State.reset : State :=
  { pending := []
    tsc := 0
    regs := []
    raised := []
    dev := default
    latches := []
    lines := []
    acts := []
    flows := []
    setpts := []
    pgs := []
    img := default
    toLog := []
    lastTsc := []
    freeCount := 0
    out := []
    mem := []
    axes := []
    nrwExits := []
    nrwEntered := []
    nrwFlushed := []
    nrws := []
    nrwRels := []
    nrwReady := false
    nrwIn := []
    nrwOut := []
    lifeDue := []
    fbs := []
    encs := []
    cmps := []
    emus := []
    nodes := []
    items := []
    serial := 0
    flowPrev := []
    flowCore := []
    trigs := []
    submitted := []
    coreSwap := []
    dcs := []
    tgts := []
    fabErr := []
    queues := []
    psErrAt := none
    mirrorHeld := []
    mirrorOut := []
    shared := []
    fedFt := 0
    fedDrift := 0
    lemem := []
    leprog := []
    coefs := []
    coefQ := []
    slots := []
    refLaws := []
    traces := []
    trmem := []
    engines := []
    rings := []
    cartMirror := []
    mirrorSeen := 0
    mirrorBusy := []
    lifeLogged := []
    sep := SepSt.init
    persons := []
    chb := ChB.init
    cha := default
    isas := []
    conns := []
    dpx := default
    fed := default
    tds := []
    ethOut := []
    flash := []
    imgSess := default
    arc := default
    rep := RepSt.init
    nvm := Nvm.init
    gov := default
    logst := default
    svc := default }

end Sys2Proof.Machine
end

