-- ==== Sys2Proof/Machine/Ops.lean ====
section
/-! DEFINITION. The named operations every meaning is built from: reading and writing registers and their fields, the passing of
time, event records, iteration over instances, and the two ways a command reaches its effect (with the controller die powered,
or with channel B's own supply alone). -/

namespace Sys2Proof.Machine

/-- The outcome of a command. -/
abbrev Out := Host.Outcome State Fault Refusal

/-! ### Registers -/

/-- The word at register address `a`. -/
def State.word (s : State) (a : Nat) : Nat := (tget (Regs.resetWord a) s.regs a).toNat

/-- `s` with the word at register address `a` set to `w` (modulo 2^32). -/
def State.setWord (s : State) (a w : Nat) : State :=
  { s with regs := tput (Regs.resetWord a) s.regs a (BitVec.ofNat 32 w) }

/-- The value of a register field. -/
def State.get (s : State) (f : Fld) : Nat := bits (s.word f.addr) f.lo f.width

/-- Is a register field non-zero? -/
def State.on (s : State) (f : Fld) : Bool := s.get f ≠ 0

/-- `s` with a register field set to `v` (modulo its width); every other bit of the word unchanged. -/
def State.set (s : State) (f : Fld) (v : Nat) : State :=
  s.setWord f.addr (setBits (s.word f.addr) f.lo f.width v)

/-- `s` with a one-bit field set or cleared. -/
def State.setB (s : State) (f : Fld) (b : Bool) : State := s.set f (b2n b)

/-- `s` with a field counted up by `n`, saturating at its width. -/
def State.addSat (s : State) (f : Fld) (n : Nat) : State := s.set f (satU f.width (s.get f + n))

/-- `s` with a field counted up by `n`, modulo its width. -/
def State.addMod (s : State) (f : Fld) (n : Nat) : State := s.set f ((s.get f + n) % 2 ^ f.width)

/-- The 64-bit value of two consecutive words, the lower half at `lo`. -/
def State.word64 (s : State) (lo : Nat) : Nat := s.word lo + 2 ^ 32 * s.word (lo + 4)

/-- `s` with a 64-bit value in two consecutive words. -/
def State.setWord64 (s : State) (lo v : Nat) : State :=
  (s.setWord lo (v % 2 ^ 32)).setWord (lo + 4) (v / 2 ^ 32 % 2 ^ 32)

/-- The signed 64-bit value of two consecutive words. -/
def State.int64 (s : State) (lo : Nat) : Int := sx 64 (s.word64 lo)

/-- The bits of a word that a host write may set at register address `a` (R5, R6). -/
def rwMask (a : Nat) : Nat :=
  match Regs.find a with
  | some (r, _) => r.rw
  | none => 0

/-- `w` with its writable bits taken from `v` (R5, R6). -/
def State.mergeRw (s : State) (a v : Nat) : Nat :=
  let m := rwMask a
  (s.word a) - Nat.land (s.word a) m + Nat.land v m

/-! ### Time -/

/-- The TSC as a number. -/
def State.now (s : State) : Nat := s.tsc.toNat

/-- The TSC moves to instant `t`; it never runs backwards (R24). -/
def State.at (s : State) (t : Time) : State := { s with tsc := if s.tsc.toNat ≤ t.toNat then t else s.tsc }

/-- A command of the controller die at instant `t`: its effect, where the die is powered; nothing where PGOOD is low (R440). -/
def live (t : Time) (s : State) (f : State → State) : Out :=
  .next (if s.dev.powered then f (s.at t) else s)

/-- A command of the controller die that carries no instant. -/
def liveNow (s : State) (f : State → State) : Out :=
  .next (if s.dev.powered then f s else s)

/-- A command of channel B, which has a supply and a clock of its own (R10). -/
def liveB (t : Time) (s : State) (f : State → State) : Out := .next (f (s.at t))

/-! ### Fields a host clears by writing 1 (R5, R7) -/

/-- The place of a field among those that have been raised. -/
def Fld.place (f : Fld) : Nat := 32 * f.addr + f.lo

/-- How often a W1C field has been raised at the present instant: what a clear at that instant leaves of it (R7). -/
def State.kept (s : State) (f : Fld) : Nat :=
  let r := tget (0, 0) s.raised f.place
  if r.1 = 1 + s.now then r.2 else 0

/-- A W1C field is raised `n` times at the present instant. -/
def State.note (s : State) (f : Fld) (n : Nat) : State :=
  { s with raised := tput (0, 0) s.raised f.place (1 + s.now, s.kept f + n) }

/-- The controller sets a W1C bit (R7). -/
def State.flag (s : State) (f : Fld) : State := (s.set f 1).note f 1

/-- The controller counts up a W1C count, saturating at its width (R7). -/
def State.tally (s : State) (f : Fld) (n : Nat) : State := (s.addSat f n).note f n

/-- The host clears a W1C field: what was raised at this instant stays (R7). -/
def State.clearFld (s : State) (f : Fld) : State := s.set f (satU f.width (s.kept f))

/-- The bits of the mask `m` at address `a` that a write of 1 clears now (R7). -/
def State.clearable (s : State) (a m : Nat) : Nat :=
  (List.range 32).foldl (fun x i => if bitAt m i && s.kept ⟨a, i, 1⟩ == 0 then x + 2 ^ i else x) 0

/-! ### The duplex role (R301, R306) -/

/-- The servo cycle number (R9). -/
def State.servoNo (s : State) : Nat := s.dev.cycle.toNat / 4

/-- The unit is one of a duplex pair (R301, DPX_STAT.ROLE other than SOLO). -/
def State.inPair (s : State) : Bool := s.get Reg.DPX_STAT.ROLE ≠ 0
/-- The unit takes inputs from outside: SOLO or ACTIVE (R306, R366). -/
def State.takesInputs (s : State) : Bool := s.get Reg.DPX_STAT.ROLE = 0 || s.get Reg.DPX_STAT.ROLE = 1

/-- A mirrored input of a pair's active: a record for the MIRROR frame, used from the boundary that ends the next servo cycle (R306). -/
def State.mirror (s : State) (kind : Nat) (body : List Nat) : State :=
  if s.inPair then { s with mirrorOut := s.mirrorOut ++ [⟨kind, s.servoNo + 2, body⟩] } else s

/-! ### Host writes (R306, R314, R401–R403) -/

/-- A unit that follows the active of its pair (STANDBY or SYNCING) ignores service writes outside the duplex block (R306, R314). -/
def State.ignoresWrite (s : State) (a : Nat) : Bool :=
  (s.get Reg.DPX_STAT.ROLE = 2 || s.get Reg.DPX_STAT.ROLE = 3) && !(decide (0x1E0000 ≤ a) && decide (a < 0x200000))

/-- A counted service write (R403): its source address and the word of SVC_LAST_SRC; 0 and 0 for SPI. -/
def State.countWrite (s : State) (ip src : Nat) : State :=
  ((s.addMod Reg.SVC_WRITES.COUNT 1).setWord Reg.SVC_LAST_IP ip).setWord Reg.SVC_LAST_SRC src

/-- A service write of `v` to `a` that the unit takes, with effect `f` (R306). The active of a pair mirrors a write outside the duplex
block, and uses it with its partner one servo cycle later; the data and the command of a host push enter the queue at once (R366). -/
def State.takeWrite (s : State) (a v : Nat) (f : State → State) : State :=
  if s.get Reg.DPX_STAT.ROLE = 1 ∧ !(decide (0x1E0000 ≤ a) && decide (a < 0x200000)) then
    let body := leBytes 4 a ++ leBytes 4 v
    let s1 := s.mirror 2 body
    if 0x240040 ≤ a ∧ a ≤ 0x240060 then f s1 else { s1 with mirrorHeld := s1.mirrorHeld ++ [⟨2, s.servoNo + 2, body⟩] }
  else f s

/-- A command that is a host write of `v` to register `a` (R401): taken as a word over SPI (DESIGN CHOICE 20). -/
def byHost (t : Time) (s : State) (a v : Nat) (f : State → State) : Out :=
  live t s fun s => if s.ignoresWrite a then s else (s.countWrite 0 0).takeWrite a v f

/-! ### Iteration -/

/-- Apply `f` for every element of a list, first to last. -/
def forEach {α : Type} (l : List α) (f : State → α → State) (s : State) : State := l.foldl f s

/-- Apply `f` for every index below `n`, lowest first. -/
def forN (n : Nat) (f : State → Nat → State) (s : State) : State := (List.range n).foldl f s

/-- The indices below `n` whose bit is set in `w`, lowest first. -/
def onesBelow (n w : Nat) : List Nat := (List.range n).filter (bitAt w ·)

/-- `w` with bit `i` set or cleared. -/
def withBit (w i : Nat) (b : Bool) : Nat := setBits w i 1 (b2n b)

/-! ### Free values -/

/-- Draw a free natural number below `n` (0 where `n` is 0): the value, and the state with the counter advanced. -/
def State.freeBelow (s : State) (tag n : Nat) : Nat × State :=
  (Config.free tag s.freeCount % n, { s with freeCount := s.freeCount + 1 })

/-! ### Device-wide facts -/

/-- DEV_STATE.STATE codes. -/
def devPowerUp : Nat := 0
def devLoad : Nat := 1
def devUnconfigured : Nat := 2
def devBringUp : Nat := 3
def devReduced : Nat := 4
def devAutomatic : Nat := 5
def devStopping : Nat := 6
def devShutdownTest : Nat := 7
def devSafeHold : Nat := 8

/-- The device state (R19). -/
def State.devState (s : State) : Nat := s.get Reg.DEV_STATE.STATE

/-- The ring cycle begins a servo cycle (R9). -/
def State.servo (s : State) : Bool := s.dev.cycle.toNat % 4 = 0

/-- The ring cycle begins a separation cycle (R9). -/
def State.sepCycle (s : State) : Bool := s.dev.cycle.toNat % 16 = 0

/-- The length of a ring cycle in TSC ticks (R12). -/
def ringNs : Nat := 15625

/-! ### Event records (R413, R36, R26) -/

/-- The line axis whose sample a record of this source carries: a line axis its own, any other source the one LINEMAP gives (R36). -/
def State.lineOf (s : State) (src : Nat) : Option Nat :=
  if 0x170 ≤ src ∧ src ≤ 0x177 then some (src - 0x170)
  else (s.img.lineMap.find? fun w => bitAt w 15 && bits w 0 12 == src).map fun w => bits w 12 3

/-- The line snapshot of a record (R36). -/
def State.lineSnap (s : State) (src : Nat) : BitVec 64 :=
  match s.lineOf src with
  | some k => if s.dev.begun && (tget default s.lines k).sampled then BitVec.ofNat 64 (s.word64 (Reg.LINE_POS_LO k))
              else 0x8000000000000000
  | none => 0x8000000000000000

/-- The TSC a record of this source made at `t` carries: later by 1 ns than the source's last one where they would coincide (R26). -/
def State.recTsc (s : State) (src t : Nat) : Nat :=
  let l := tget 0 s.lastTsc src
  if l ≤ t then t else l

/-- Is the record's family archived (R418)? Code bits [11:6] select the bit of ARC_MASK. -/
def State.archives (s : State) (code : Nat) : Bool :=
  let f := code / 64
  if f < 32 then bitAt (s.word Reg.ARC_MASK_LO) f else bitAt (s.word Reg.ARC_MASK_HI) (f - 32)

/-- An event the FEDN section marks for export joins the queue of EVENT records (R328): of 256 at most, the oldest gives way. -/
def State.exportEvent (s : State) (r : EventRec) : State :=
  if !(s.img.federation && s.img.exports.contains r.source.toNat) then s
  else
    let full := decide (256 ≤ s.fed.events.length)
    let f := s.fed
    let q := (if full then f.events.drop 1 else f.events) ++ [r]
    let s1 := { s with fed := { f with events := q, dropped := if full then f.dropped + 1 else f.dropped } }
    if full then s1.addSat Reg.FED_TX.EVT_DROP 1 else s1

/-- A record joins those that wait for the log ring; before the DRAM is ready the on-die buffer takes 256, and one that finds it full
counts in LOST (R416). -/
def State.keepRecord (s : State) (r : EventRec) : State :=
  if !s.logst.dram && s.devState == devPowerUp && decide (256 ≤ s.toLog.length) then s.addSat Reg.LOG_STAT.LOST 1
  else { s with toLog := s.toLog ++ [r] }

/-- Make a local event record of instant `t` (R413); it is written to the ring by LOG_RECORD_WRITE (R417). A device without power
makes none. -/
def State.logAt (s : State) (t src code d0 d1 : Nat) : State :=
  if !s.dev.powered then s
  else
    let t' := s.recTsc src t
    let r : EventRec :=
      { tsc := BitVec.ofNat 64 t', source := BitVec.ofNat 12 src, code := BitVec.ofNat 12 code, remote := false
        archived := s.archives code, early := !s.logst.dram, precycle := !s.dev.begun
        line := s.lineSnap src, cycle := if s.dev.begun then s.dev.cycle.setWidth 32 else 0
        d0 := BitVec.ofNat 32 d0, d1 := BitVec.ofNat 32 d1 }
    ({ s with lastTsc := tput 0 s.lastTsc src (t' + 1) }.keepRecord r).exportEvent r

/-- Make a local event record now. -/
def State.log (s : State) (src code d0 d1 : Nat) : State := s.logAt s.now src code d0 d1

/-! ### Fabric memory (R73, R412) -/

/-- A fabric address that a fabric master may write: the SRAM, and the DRAM below the log area (R73, R412). -/
def fabWritable (a : Nat) : Bool :=
  (decide (0x20000000 ≤ a) && decide (a < 0x21800000)) || (decide (0x40000000 ≤ a) && decide (a < 0xBFE00000))

/-- A fabric write of the bytes of `l` from address `a`; bytes at addresses that may not be written are ignored (R412). -/
def State.fabWrite (s : State) (a : Nat) (l : List Nat) : State :=
  { s with mem := (l.foldl (fun (m : List Host.Cell × Nat) b =>
      (if fabWritable m.2 then mput 0 m.1 m.2 (BitVec.ofNat 8 b) else m.1, m.2 + 1)) (s.mem, a)).1 }

/-! ### Tables of blocks -/

/-- The state of line axis `k`. -/
def State.line (s : State) (k : Nat) : LineSt := tget default s.lines k
/-- Change line axis `k`. -/
def State.modLine (s : State) (k : Nat) (f : LineSt → LineSt) : State :=
  { s with lines := tput default s.lines k (f (s.line k)) }

/-- The state of the flow of island `i`. -/
def State.flow (s : State) (i : Nat) : FlowSt := tget FlowSt.init s.flows i
/-- Change the flow of island `i`. -/
def State.modFlow (s : State) (i : Nat) (f : FlowSt → FlowSt) : State :=
  { s with flows := tput FlowSt.init s.flows i (f (s.flow i)) }

/-- The setpoint state of axis `a`. -/
def State.setpt (s : State) (a : Nat) : Setpoint := tget default s.setpts a
/-- Set the setpoint state of axis `a`. -/
def State.putSetpt (s : State) (a : Nat) (p : Setpoint) : State := { s with setpts := tput default s.setpts a p }

/-- Logical engine `e`. -/
def State.eng (s : State) (e : Nat) : LeSt := tget default s.engines e
/-- Change logical engine `e`. -/
def State.modEng (s : State) (e : Nat) (f : LeSt → LeSt) : State := { s with engines := tput default s.engines e (f (s.eng e)) }
/-- The key of a loop-engine slot's data in the mailbox and coefficient tables: engine, slot. -/
def slotKey (e sl : Nat) : Nat := 32 * e + sl
/-- Axis slot `sl` of engine `e`. -/
def State.slot (s : State) (e sl : Nat) : SlotSt := tget default s.slots (slotKey e sl)
/-- Change axis slot `sl` of engine `e`. -/
def State.modSlot (s : State) (e sl : Nat) (f : SlotSt → SlotSt) : State :=
  { s with slots := tput default s.slots (slotKey e sl) (f (s.slot e sl)) }

/-- The profile generator of axis `a`. -/
def State.pg (s : State) (a : Nat) : PgSt := tget default s.pgs a
/-- Change the profile generator of axis `a`. -/
def State.modPg (s : State) (a : Nat) (f : PgSt → PgSt) : State :=
  { s with pgs := tput default s.pgs a (f (s.pg a)) }

end Sys2Proof.Machine
end

