-- ==== Sys2Proof/Machine/Profile.lean ====
section
/-! DEFINITION. Jerk-limited profiles: changes of speed and moves as lists of phases (R56, R456), and the exact evaluation of a
profile within a step. -/

namespace Sys2Proof.Machine

/-- The sign of a rational number as -1, 0 or 1. -/
def rsgn (v : Rat) : Rat := if 0 < v then 1 else if v < 0 then -1 else 0

/-- The square root used in profiles: exact on squares of rationals, Config.sqrt elsewhere. -/
def psqrt (v : Rat) : Rat :=
  if v ≤ 0 then 0
  else
    let n := v.num.natAbs.sqrt
    let d := v.den.sqrt
    if n * n = v.num.natAbs ∧ d * d = v.den then (n : Rat) / (d : Rat) else Config.sqrt v

/-- The point reached after time `t` under constant jerk `j`. -/
def Pva.after (x : Pva) (j t : Rat) : Pva :=
  { p := x.p + x.v * t + x.a * t * t / 2 + j * t * t * t / 6
    v := x.v + x.a * t + j * t * t / 2
    a := x.a + j * t }

/-- Run a list of phases for time `t`: the point reached and the phases still to run. -/
def runPhases : List Phase → Rat → Pva → Pva × List Phase
  | [], _, x => (x, [])
  | ph :: rest, t, x =>
    if ph.dur ≤ t then runPhases rest (t - ph.dur) (x.after ph.jerk ph.dur)
    else (x.after ph.jerk t, { ph with dur := ph.dur - t } :: rest)

/-- The duration of a list of phases. -/
def phaseTime (l : List Phase) : Rat := l.foldl (fun t ph => t + ph.dur) 0

/-- The point at the end of a list of phases. -/
def endOf : List Phase → Pva → Pva
  | [], x => x
  | ph :: rest, x => endOf rest (x.after ph.jerk ph.dur)

/-- The three phases of a change from speed `v0` and acceleration `a0` with |a0| ≤ A to speed `v1` under limits `A`, `J` (R56, R456). -/
def changeWithin (v0 a0 v1 A J : Rat) : List Phase :=
  let vs := v0 + a0 * rabs a0 / (2 * J)
  if vs = v1 then [⟨rabs a0 / J, -(rsgn a0) * J⟩, ⟨0, 0⟩, ⟨0, 0⟩]
  else
    let g := rsgn (v1 - vs)
    let b := g * a0
    let d := g * (v1 - v0)
    if (2 * A * A - b * b) / (2 * J) ≤ d then
      [⟨(A - b) / J, g * J⟩, ⟨(d - (2 * A * A - b * b) / (2 * J)) / A, 0⟩, ⟨A / J, -g * J⟩]
    else
      let ap := psqrt ((2 * J * d + b * b) / 2)
      [⟨(ap - b) / J, g * J⟩, ⟨0, 0⟩, ⟨ap / J, -g * J⟩]

/-- The change from an acceleration above its limit, |a0| > A (R456): the first phase carries it to g·A, and a_p is A. Where that alone
overshoots `v1`, a second change returns the speed to it. -/
def changeFromAbove (v0 a0 v1 A J : Rat) : List Phase :=
  let g := rsgn (v1 - (v0 + a0 * rabs a0 / (2 * J)))
  let b := g * a0
  let first : Phase := ⟨rabs (g * A - a0) / J, if b < A then g * J else -g * J⟩
  let spent := (if b < A then A * A - b * b else b * b - A * A) / (2 * J) + A * A / (2 * J)
  let d := g * (v1 - v0)
  if spent ≤ d then [first, ⟨(d - spent) / A, 0⟩, ⟨A / J, -g * J⟩]
  else [first, ⟨0, 0⟩, ⟨A / J, -g * J⟩] ++ changeWithin (v0 + g * spent) 0 v1 A J

/-- The phases of a change from speed `v0` and acceleration `a0` to speed `v1` under limits `A`, `J` (R56, R456). -/
def speedChange (v0 a0 v1 A J : Rat) : List Phase :=
  if A < rabs a0 ∧ v0 + a0 * rabs a0 / (2 * J) ≠ v1 then changeFromAbove v0 a0 v1 A J else changeWithin v0 a0 v1 A J

/-- How far a stop from speed `v` and acceleration `a` carries, under limits `A`, `J`. -/
def stopDist (v a A J : Rat) : Rat := (endOf (speedChange v a 0 A J) ⟨0, v, a⟩).p

/-- The time the cruise phase lasts, times the cruise speed, in a move of length `D` (R56). -/
def cruiseLeft (v0 a0 D v1 V A J : Rat) : Rat :=
  D - (endOf (speedChange v0 a0 V A J) ⟨0, v0, a0⟩).p - (endOf (speedChange V 0 v1 A J) ⟨0, V, 0⟩).p

/-- Halve the interval of cruise speeds `n` times, keeping the largest for which the cruise phase is at least 0 (R56). -/
def bisectCruise (v0 a0 D v1 A J : Rat) : Nat → Rat → Rat → Rat
  | 0, lo, _ => lo
  | n + 1, lo, hi =>
    let m := (lo + hi) / 2
    if 0 ≤ cruiseLeft v0 a0 D v1 m A J then bisectCruise v0 a0 D v1 A J n m hi
    else bisectCruise v0 a0 D v1 A J n lo m

/-- The cruise speed of a move (R56): the limit, or the lowered speed: a free value within the 1 ns that the rule allows. -/
def cruiseSpeed (v0 a0 D v1 V A J : Rat) : Rat :=
  if 0 ≤ cruiseLeft v0 a0 D v1 V A J then V
  else
    let c := Config.cruise [v0, a0, D, v1, V, A, J]
    let l := cruiseLeft v0 a0 D v1 c A J
    if 0 < c ∧ 0 ≤ l ∧ l / c ≤ 1 / 1000000000 then c else bisectCruise v0 a0 D v1 A J 48 v1 V

/-- The seven phases of a move of length `D` ≥ 0 from `v0`, `a0` to end speed `v1` (R56, R456). -/
def moveProfile (v0 a0 D v1 V A J : Rat) : List Phase :=
  let c := cruiseSpeed v0 a0 D v1 V A J
  let l := cruiseLeft v0 a0 D v1 c A J
  speedChange v0 a0 c A J ++ [⟨if c = 0 then 0 else if l < 0 then 0 else l / c, 0⟩] ++ speedChange c 0 v1 A J

end Sys2Proof.Machine
end

