-- ==== Sys2Proof/Machine/Common.lean ====
section
/-! DEFINITION. What several blocks share: the island hierarchy (R45–R47), axis units (R458), SS1 of an island (R49, R268), an
axis taking a fault (R159), and when an axis counts as torque-free (R457). -/

namespace Sys2Proof.Machine

/-- The state of axis channel `a`. -/
def State.axis (s : State) (a : Nat) : AxSt := tget default s.axes a
/-- Change axis channel `a`. -/
def State.modAxis (s : State) (a : Nat) (f : AxSt → AxSt) : State :=
  { s with axes := tput default s.axes a (f (s.axis a)) }

/-! ### Hierarchy -/

/-- The AXIS entry of axis `a` (R375). -/
def Img.axis? (g : Img) (a : Nat) : Option AxisDecl := g.axes.find? fun d => d.axis == a
/-- The ISLAND entry of island `i`. -/
def Img.island? (g : Img) (i : Nat) : Option IslandDecl := g.islands.find? fun d => d.island == i
/-- The declared islands. -/
def Img.islandIds (g : Img) : List Nat := g.islands.map (·.island)
/-- The declared axis channels. -/
def Img.axisIds (g : Img) : List Nat := g.axes.map (·.axis)

/-- The direct member axes of island `i`, in the image's order. -/
def Img.ownAxes (g : Img) (i : Nat) : List Nat :=
  match g.island? i with
  | some d => (d.members.filter fun m => !m.isIsland).map (·.number)
  | none => []

/-- The axis order of island `i` (R46), down to a depth `n` (the number of islands bounds it, R45). -/
def Img.axesIn (g : Img) : Nat → Nat → List Nat
  | 0, _ => []
  | n + 1, i =>
    match g.island? i with
    | some d => d.members.flatMap fun m => if m.isIsland then g.axesIn n m.number else [m.number]
    | none => []

/-- The axes of the subtree of island `i`, in the axis order of R46. -/
def Img.axesOf (g : Img) (i : Nat) : List Nat := g.axesIn (g.islands.length + 1) i

/-- The islands of the subtree of `i`, itself first, down to a depth `n`. -/
def Img.subIn (g : Img) : Nat → Nat → List Nat
  | 0, _ => []
  | n + 1, i =>
    match g.island? i with
    | some d => i :: d.members.flatMap fun m => if m.isIsland then g.subIn n m.number else []
    | none => []

/-- The islands of the subtree of `i`, itself included (R45). -/
def Img.subtree (g : Img) (i : Nat) : List Nat := g.subIn (g.islands.length + 1) i

/-- The parent of island `i`. -/
def Img.parent? (g : Img) (i : Nat) : Option Nat :=
  (g.islands.find? fun d => d.members.any fun m => m.isIsland && m.number == i).map (·.island)

/-- The ancestors of island `i`, nearest first, up to a height `n`. -/
def Img.ancIn (g : Img) : Nat → Nat → List Nat
  | 0, _ => []
  | n + 1, i =>
    match g.parent? i with
    | some p => p :: g.ancIn n p
    | none => []

/-- The ancestors of island `i`. -/
def Img.ancestors (g : Img) (i : Nat) : List Nat := g.ancIn (g.islands.length + 1) i

/-- The island that has axis `a` as a direct member. -/
def Img.islandOf? (g : Img) (a : Nat) : Option Nat :=
  (g.islands.find? fun d => d.members.any fun m => !m.isIsland && m.number == a).map (·.island)

/-! ### Axis states -/

/-- AX_STATE.STATE codes (R163). -/
def axOff : Nat := 0
def axPrecharge : Nat := 1
def axBrakeRelease : Nat := 2
def axEnabled : Nat := 3
def axDisabling : Nat := 4
def axFault : Nat := 5

/-- AX_STATE.PHASE codes (R163). -/
def phDecel : Nat := 1
def phHold : Nat := 2
def phBrakeSet : Nat := 3
def phTorqueOff : Nat := 4

/-- The state of axis `a` (R159). -/
def State.axState (s : State) (a : Nat) : Nat := s.get (Reg.AX_STATE.STATE a)

/-- The rank of an axis state from worst to best (R47). -/
def axRank (st : Nat) : Nat :=
  if st = axFault then 0 else if st = axDisabling then 1 else if st = axOff then 2
  else if st = axPrecharge then 3 else if st = axBrakeRelease then 4 else 5

/-- The worse of two axis states (R47). -/
def axWorse (x y : Nat) : Nat := if axRank y < axRank x then y else x

/-- The aggregate state of island `i` (R47). -/
def State.aggregate (s : State) (i : Nat) : Nat :=
  match s.img.axesOf i with
  | [] => axOff
  | a :: rest => rest.foldl (fun w b => axWorse w (s.axState b)) (s.axState a)

/-- UL_STATUS bit [6 + n] is cartridge status bit n; bit `stBridgeOff` reports the bridge off (10, R215). -/
def stBridgeOff : Nat := 0

/-- The latest accepted uplink of axis `a` reports the bridge off. -/
def State.bridgeOff (s : State) (a : Nat) : Bool :=
  match (s.axis a).uplink with
  | some u => bitAt u.status stBridgeOff
  | none => false

/-- Channel B applies STO to the group of ring `k` (R267). -/
def State.stoOn (s : State) (k : Nat) : Bool := bitAt (s.get Reg.STO_STAT.STO) k

/-- Axis `a` is torque-free (R457). -/
def State.torqueFree (s : State) (a : Nat) : Bool :=
  s.axState a == axOff ||
  (s.axState a == axFault &&
    (s.bridgeOff a || s.stoOn (s.get (Reg.AX_CFG.RING a)) ||
     decide ((s.axis a).uplinkAt + 5 * ringNs + 100000000 ≤ s.now)))

/-- Every declared axis counts as OFF (R457). -/
def State.allOff (s : State) : Bool := s.img.axisIds.all s.torqueFree

/-! ### Axis units (R458) -/

/-- The position `p` (axis position format) of axis `a` in axis units. -/
def State.unitsOf (s : State) (a : Nat) (p : Int) : Rat :=
  match s.img.axis? a with
  | some d => ((p : Rat) / 16777216 - (d.zero : Rat)) * f32 d.scale
  | none => (p : Rat) / 16777216

/-- The axis position (axis position format) of `u` axis units of axis `a`, rounded down to the fraction's last bit. -/
def State.countsOf (s : State) (a : Nat) (u : Rat) : Int :=
  match s.img.axis? a with
  | some d => ((u / f32 d.scale + (d.zero : Rat)) * 16777216).floor
  | none => (u * 16777216).floor

/-- The axis-unit size of one count of axis `a`. -/
def State.scaleOf (s : State) (a : Nat) : Rat :=
  match s.img.axis? a with
  | some d => f32 d.scale
  | none => 1

/-! ### SS1 of an island (R49, R268) -/

/-- An SS1 of island `i`: every flow of its subtree takes SS1 at the next servo boundary, every ancestor a path-hold stop (R49). -/
def State.ss1 (s : State) (i : Nat) : State :=
  let s1 := forEach (s.img.subtree i) (fun s j => s.modFlow j fun f => { f with reqSs1 := true }) s
  forEach (s.img.ancestors i) (fun s j => s.modFlow j fun f => { f with reqAnc := true }) s1

/-- An SS1 of every root island (R19, R427). -/
def State.ss1All (s : State) : State :=
  forEach (s.img.islandIds.filter fun i => (s.img.parent? i).isNone) State.ss1 s

/-- A disable request to axis `a` at the next servo boundary (R158, R160). -/
def State.askDisable (s : State) (a : Nat) : State := s.modAxis a fun x => { x with reqDisable := true }

/-- An enable request of axis `a` by a path (0 island, 1 AX_CTRL) waits for the next servo boundary (R158). -/
def State.askEnable (s : State) (a path : Nat) : State := s.modAxis a fun x =>
  if x.reqEnable.contains path then x else { x with reqEnable := x.reqEnable ++ [path] }

/-- An SS1 of ring group `k` (R268): every island with an axis on ring `k`, and a disable of every axis on it that is in no island. -/
def State.ss1Group (s : State) (k : Nat) : State :=
  forEach (s.img.axisIds.filter fun a => s.get (Reg.AX_CFG.RING a) == k)
    (fun s a => match s.img.islandOf? a with
      | some i => s.ss1 i
      | none => s.askDisable a) s

/-! ### Line axes in use (R35) -/

/-- The lowest island whose running segment is line-synchronised or tracking on line `k` (R34, R35). -/
def State.lineUser (s : State) (k : Nat) : Option Nat :=
  s.img.islandIds.find? fun i =>
    match (s.flow i).run with
    | some r => (r.seg.desc.kind == 5 || r.seg.desc.kind == 6) && r.seg.desc.line == k
    | none => false

/-- Every pending action of line `k` is evaluated anew, as if it had just been armed (R35). A scheduled execution stays (R40). -/
def State.refreshActs (s : State) (k : Nat) : State :=
  { s with acts := s.acts.map fun e => (e.1, e.2.map fun x =>
      if x.line = k then match x.stage with
        | .at _ => x
        | _ => { x with stage := .fresh }
      else x) }

/-- The source of kind `src` with index `i` raises a fault: every line it feeds is lost at its next sample (R34). -/
def State.sourceFault (s : State) (src i : Nat) : State :=
  forN 8 (fun s k =>
    if s.get (Reg.LINE_CFG.SOURCE k) = src ∧ s.get (Reg.LINE_CFG.SRC_INDEX k) = i then s.modLine k fun l => { l with fault := true } else s) s

/-! ### An axis takes a fault (R159) -/

/-- A fault of axis `a` is found: it takes effect at the next ring-cycle start (R159), the first one found of several. -/
def State.axisFault (s : State) (a cause : Nat) : State :=
  if s.axState a = axFault ∨ (s.axis a).faultDue.isSome then s else s.modAxis a fun x => { x with faultDue := some cause }

/-- Axis `a` enters FAULT with a cause: torque-off commands follow, the latch is cleared, AXIS_FAULT is logged with the state
before the fault, and the island that has the axis as a direct member performs SS1 (R49, R65). Nothing where it is in FAULT. -/
def State.takeFault (s : State) (a cause : Nat) : State :=
  if s.axState a = axFault then s
  else
    let d1 := s.axState a + 16 * s.get (Reg.AX_STATE.PHASE a)
    let moved := s.axState a = axEnabled
    let s1 := ((s.set (Reg.AX_STATE.STATE a) axFault).set (Reg.AX_STATE.PHASE a) 0).set (Reg.AX_STATE.LATCHED a) 0
    let s2 := (s1.set (Reg.AX_FAULT.CAUSE a) cause).addSat (Reg.AX_FAULT.COUNT a) 1
    let s3 := (s2.modAxis a fun x => { x with timerAt := s.dev.cycle.toNat, faultDue := none }).sourceFault 2 a
    let s4 := s3.log (Src.axis a) Ev.AXIS_FAULT cause d1
    if moved then
      match s.img.islandOf? a with
      | some i => s4.ss1 i
      | none => s4
    else s4

/-- The faults found since the last ring-cycle start take effect (R159). -/
def State.takeFaults (s : State) : State :=
  forEach s.axes (fun s e => match e.2.faultDue with
    | some c => s.takeFault e.1 c
    | none => s) s

end Sys2Proof.Machine
end

