-- ==== Sys2Proof/Machine/Feedback.lean ====
section
/-! DEFINITION. Position feedback of axes and local encoders: unfolding, wrap, fraction, speed, standstill, direction, index check,
encoder faults, presets (R164–R174). -/

namespace Sys2Proof.Machine

/-- The feedback of axis `a`. -/
def State.fb (s : State) (a : Nat) : FbSt := tget default s.fbs a
/-- Change the feedback of axis `a`. -/
def State.modFb (s : State) (a : Nat) (f : FbSt → FbSt) : State := { s with fbs := tput default s.fbs a (f (s.fb a)) }
/-- Local encoder `k`. -/
def State.enc (s : State) (k : Nat) : EncSt := tget default s.encs k
/-- Change local encoder `k`. -/
def State.modEnc (s : State) (k : Nat) (f : EncSt → EncSt) : State := { s with encs := tput default s.encs k (f (s.enc k)) }

/-- Compare channel `c`. -/
def State.cmp (s : State) (c : Nat) : CmpSt := tget default s.cmps c
/-- Change compare channel `c`. -/
def State.modCmp (s : State) (c : Nat) (f : CmpSt → CmpSt) : State := { s with cmps := tput default s.cmps c (f (s.cmp c)) }

/-- The compare and emulation outputs follow their rules in this device state (R185). -/
def State.pinsLive (s : State) : Bool :=
  (s.devState == devBringUp || s.devState == devReduced || s.devState == devAutomatic || s.devState == devStopping) &&
    decide (s.get Reg.DPX_STAT.ROLE ≤ 1)

/-- Channel `c` evaluates the source of kind `src` with index `i` (R175). -/
def State.cmpOn (s : State) (src i c : Nat) : Bool :=
  s.get (Reg.CMP_CFG.SRC c) == src && s.get (Reg.CMP_CFG.SRC_INDEX c) % (if src = 3 then 256 else 8) == i

/-- A source jumps: what the jump passes has not been crossed (R35, R176). -/
def State.cmpJump (s : State) (src i : Nat) : State :=
  forN 16 (fun s c => if s.cmpOn src i c then s.modCmp c fun y => { y with jumped := true } else s) s

/-- The unwrapped position of axis `a` in axis position format (R166). -/
def State.upos (s : State) (a : Nat) : Int := (s.fb a).whole * 16777216 + ((s.fb a).frac : Int)

/-- The whole part reduced by FB_CPR, where it is not 0 (R166). -/
def State.wrapWhole (s : State) (a : Nat) (w : Int) : Int :=
  let cpr := s.get (Reg.FB_CPR.CPR a)
  if cpr = 0 then w else w % (cpr : Int)

/-- FB_POS in axis position format: the wrapped whole part, the fraction unchanged (R166). -/
def State.pos (s : State) (a : Nat) : Int := s.wrapWhole a (s.fb a).whole * 16777216 + ((s.fb a).frac : Int)

/-- FB_POS and FB_UPOS show the position (R166). -/
def State.showPos (s : State) (a : Nat) : State :=
  (s.setWord64 (Reg.FB_POS_LO a) (ux 64 (s.pos a))).setWord64 (Reg.FB_UPOS_LO a) (ux 64 (s.upos a))

/-- An encoder fault of axis `a` (R168): FAULT and the cause, ENCODER_FAULT, the axis into FAULT with cause 6. -/
def State.encoderFault (s : State) (a cause : Nat) : State :=
  if s.on (Reg.FB_STAT.FAULT a) then s
  else
    let s1 := (s.set (Reg.FB_STAT.FAULT a) 1).set (Reg.FB_STAT.CAUSE a) cause
    (s1.log (Src.axis a) Ev.ENCODER_FAULT cause 0).axisFault a 6

/-- Local encoder `k` is lost to the compare channels on it, from its fault on (R168, R180). -/
def State.cmpLose (s : State) (k : Nat) : State :=
  forN 16 (fun s c => if s.cmpOn 1 k c && s.pinsLive then s.set (Reg.CMP_STAT.SRC_LOST c) 1 else s) s

/-- A fault of local encoder `k` (R168, R174); `line` names the pair of cause 2. -/
def State.localFault (s : State) (k cause line : Nat) : State :=
  if s.on (Reg.ENC_STAT.FAULT k) then s
  else
    let s1 := (s.set (Reg.ENC_STAT.FAULT k) 1).set (Reg.ENC_STAT.CAUSE k) cause
    (s1.log (Src.encoder k) Ev.ENCODER_FAULT cause (if cause = 2 then line else 0)).sourceFault 1 k |>.cmpLose k

/-- A pair of local encoder `k`, in use, still stands at one level when no other fault holds the place: cause 2 is raised (R174). -/
def State.stillBroken (s : State) (k : Nat) : State :=
  match (s.enc k).broken with
  | l :: _ => if s.on (Reg.ENC_CFG.EN k) then s.localFault k 2 l else s
  | [] => s

/-! ### Direction (R170) -/

/-- One evaluation of DIR at count `c`: the new turning point and whether DIR flips. `down` is DIR, `hyst` DIR_HYST. -/
def dirStep (down : Bool) (turn c : Int) (hyst : Nat) : Int × Bool :=
  let h : Int := max hyst 1
  if down then
    if c ≤ turn then (c, false) else if h ≤ c - turn then (c, true) else (turn, false)
  else
    if turn ≤ c then (c, false) else if h ≤ turn - c then (c, true) else (turn, false)

/-- Axis `a` evaluates DIR at its present count. -/
def State.fbDir (s : State) (a : Nat) : State :=
  let c := (s.fb a).whole
  let r := dirStep (s.on (Reg.FB_STAT.DIR a)) (s.fb a).dir.turn c (s.get (Reg.FB_CFG.DIR_HYST a))
  let s1 := s.modFb a fun x => { x with dir := { turn := r.1, changed := x.dir.changed || r.2 } }
  if r.2 then
    let d := 1 - s.get (Reg.FB_STAT.DIR a)
    let s2 := s1.set (Reg.FB_STAT.DIR a) d
    if s.on (Reg.FB_CFG.DIR_EVT a) then s2.log (Src.axis a) Ev.DIR_CHANGE d (ux 32 c) else s2
  else s1

/-- Local encoder `k` evaluates DIR at its present count; DIR_HYST is ENC_LIMITS[31:24] (R187). -/
def State.encDir (s : State) (k : Nat) : State :=
  let c := s.int64 (Reg.ENC_CNT_LO k)
  let r := dirStep (s.on (Reg.ENC_STAT.DIR k)) (s.enc k).dir.turn c (s.get (Reg.ENC_LIMITS.DIR_HYST k))
  let s1 := s.modEnc k fun x => { x with dir := { turn := r.1, changed := x.dir.changed || r.2 } }
  if r.2 then
    let d := 1 - s.get (Reg.ENC_STAT.DIR k)
    let s2 := s1.set (Reg.ENC_STAT.DIR k) d
    if s.on (Reg.ENC_CFG.DIR_EVT k) then s2.log (Src.encoder k) Ev.DIR_CHANGE d (ux 32 c) else s2
  else s1

/-! ### Index (R171) -/

/-- An index latch of axis `a` at unwrapped whole count `u` (R166, R171). -/
def State.fbIndex (s : State) (a : Nat) (u : Int) : State :=
  let x := s.fb a
  let s1 := (s.set (Reg.FB_STAT.IDX_SEEN a) 1).setWord64 (Reg.FB_IDX_LO a) (ux 64 (s.wrapWhole a u * 16777216))
  let s2 := s1.modFb a fun x => { x with index := some u, dir := { x.dir with changed := false } }
  match x.index with
  | some p =>
    let d := (u - p).natAbs
    let lines := s.get (Reg.FB_IDX_NOM.LINES a)
    let tol := s.get (Reg.FB_IDX_NOM.TOL a)
    if s.on (Reg.FB_CFG.IDX_CHK a) && !x.dir.changed && (decide (d + tol < lines) || decide (lines + tol < d)) then
      let s3 := (s2.log (Src.axis a) Ev.FB_INDEX_COUNT d lines).addMod (Reg.FB_STAT.ERRS a) 1
      if s.on (Reg.FB_CFG.IDX_FAULT a) then s3.encoderFault a 3 else s3
    else s2
  | none => s2

/-- An index latch of local encoder `k` at its present count (R171, R173). -/
def State.encIndex (s : State) (k : Nat) : State :=
  let x := s.enc k
  let u := s.int64 (Reg.ENC_CNT_LO k)
  let s1 := (s.set (Reg.ENC_STAT.IDX_SEEN k) 1).setWord64 (Reg.ENC_IDX_LO k) (ux 64 u)
  let s2 := s1.modEnc k fun x => { x with index := some u, dir := { x.dir with changed := false } }
  match x.index with
  | some p =>
    let d := (u - p).natAbs
    let lines := s.get (Reg.ENC_IDX_NOM.LINES k)
    let tol := s.get (Reg.ENC_IDX_NOM.TOL k)
    if s.on (Reg.ENC_CFG.IDX_CHK k) && !x.dir.changed && (decide (d + tol < lines) || decide (lines + tol < d)) then
      let s3 := s2.log (Src.encoder k) Ev.FB_INDEX_COUNT d lines
      if s.on (Reg.ENC_CFG.IDX_FAULT k) then s3.localFault k 3 0 else s3
    else s2
  | none => s2

/-! ### An accepted uplink (R164–R165, R168, R170, R171) -/

/-- B of R164: BITS for an absolute cartridge, 32 for an incremental one. -/
def State.posBits (s : State) (a : Nat) : Nat := if s.on (Reg.FB_CFG.ABS a) then s.get (Reg.FB_CFG.BITS a) else 32

/-- The 24-bit fraction from the edge times (R30, R165): 0 without them, and after a reversal until two edges were counted. -/
def edgeFrac (run edgeT edgeIv : Nat) : Nat :=
  if edgeT = 0xFFFFFFFF ∨ edgeIv = 0xFFFFFFFF ∨ edgeIv = 0 ∨ run < 2 then 0
  else min (edgeT * 16777216 / edgeIv) 0xFFFFFF

/-- The position takes an accepted uplink sampled at instant `t`. -/
def State.fbAccept (s : State) (a : Nat) (u : Uplink) (t : Nat) : State :=
  let x := s.fb a
  let n := s.posBits a
  let ofs := match s.img.axis? a with
    | some d => d.posOfs / 16777216
    | none => 0
  let raw := u.pos % 2 ^ n
  let d : Int := if x.seen then sx n (ux n ((raw : Int) - x.raw)) else 0
  let whole : Int := if x.seen then x.whole + d else (raw : Int) + ofs
  let jmax := s.get (Reg.FB_LIMITS.JUMP_MAX a)
  let jump := x.seen && decide (jmax ≠ 0) && decide (jmax * (x.missed + 1) < d.natAbs)
  let sign : Int := if d = 0 then x.sign else if 0 < d then 1 else -1
  let run := if !x.seen then 2 else if d = 0 then x.run else if sign = x.sign ∨ x.sign = 0 then x.run + d.natAbs else d.natAbs
  let moved := x.moved || decide (d ≠ 0)
  let edge := if !x.seen then t
    else if moved && decide (u.edgeT ≠ 0xFFFFFFFF) then t - u.edgeT
    else if d ≠ 0 then t else x.edge
  let frac := edgeFrac run u.edgeT u.edgeIv
  let s1 := s.modFb a fun y => { y with
    seen := true, raw := raw, whole := whole, frac := frac, missed := 0, moved := moved, edge := edge, sample := t
    sign := sign, run := run, jump := jump, encErr := bitAt u.status 4
    est := if x.seen then y.est else { y.est with count := whole, edge := t }
    dir := if x.seen then y.dir else { turn := whole, changed := false } }
  let s2 := if d ≠ 0 then s1.set (Reg.FB_STAT.STANDSTILL a) 0 else s1
  let s3 := (s2.fbDir a).showPos a
  let s4 := if u.idxNew then s3.fbIndex a (whole - sx 32 (ux 32 ((u.pos : Int) - u.idx))) else s3
  let s5 := if jump then s4.encoderFault a 4 else s4
  if bitAt u.status 4 then s5.encoderFault a 5 else s5

/-- A ring cycle without an accepted uplink: position and edge data hold (R164). -/
def State.fbMiss (s : State) (a : Nat) : State := s.modFb a fun x => { x with missed := x.missed + 1 }

/-! ### Speed and standstill (R169) -/

/-- STANDSTILL_T in ns; 0 acts as 50 ms (R169). -/
def standstillNs (ms : Nat) : Nat := (if ms = 0 then 50 else ms) * 1000000

/-- One estimate in counts per second: of the last estimate, the count, its edge time and the sample instant. -/
def speedStep (e : SpeedEst) (c : Int) (t T : Nat) : Rat :=
  if c ≠ e.count then
    if t ≤ e.edge then e.omega else (((c - e.count : Int) : Rat) * 1000000000) / ((t - e.edge : Nat) : Rat)
  else if T ≤ t then e.omega
  else rsgn e.omega * min (rabs e.omega) (1000000000 / ((T - t : Nat) : Rat))

/-- The servo sample of axis `a` at sample instant `T` (R169): FB_SPEED and STANDSTILL. -/
def State.fbSpeed (s : State) (a T : Nat) : State :=
  let x := s.fb a
  if !x.seen then s
  else
    let still := decide (x.edge + standstillNs (s.get (Reg.FB_LIMITS.STANDSTILL_T a)) ≤ T)
    let w := if still || !x.moved then 0 else speedStep x.est x.whole x.edge T
    let s1 := s.modFb a fun y => { y with est := ⟨x.whole, x.edge, w⟩ }
    let s2 := s1.setWord (Reg.FB_SPEED a) (toF32 w)
    if still then s2.set (Reg.FB_STAT.STANDSTILL a) 1 else s2

/-- The servo sample of local encoder `k` (R169). -/
def State.encSpeed (s : State) (k : Nat) : State :=
  let x := s.enc k
  let c := s.int64 (Reg.ENC_CNT_LO k)
  let t := if x.moved then x.edge.getD x.loadAt else x.loadAt
  let still := decide (t + standstillNs (s.get (Reg.ENC_LIMITS.STANDSTILL_T k)) ≤ s.now)
  let w := if still || !x.moved then 0 else speedStep x.est c t s.now
  let s1 := s.modEnc k fun y => { y with est := ⟨c, t, w⟩ }
  let s2 := s1.setWord (Reg.ENC_SPEED k) (toF32 w)
  if still then s2.set (Reg.ENC_STAT.STANDSTILL k) 1 else s2

/-- The unwrapped position of axis `a` extrapolated to instant `T` with its speed estimate (R28, R175), axis position format. -/
def State.uposAt (s : State) (a T : Nat) : Int :=
  s.upos a + ((s.fb a).est.omega * ((T : Rat) - (s.fb a).sample) / 1000000000 * 16777216).floor

/-- The change of position of axis `a` per ring cycle, axis position format. -/
def State.velPerCycle (s : State) (a : Nat) : Int := ((s.fb a).est.omega * 15625 / 1000000000 * 16777216).floor

/-! ### Presets (R167) -/

/-- A running segment or the profile generator drives axis `a` (R50). -/
def State.driven (s : State) (a : Nat) : Bool :=
  s.on (Reg.PG_STAT.ACTIVE a) ||
  s.img.islandIds.any fun i =>
    match (s.flow i).run with
    | some r => r.start.any fun e => e.1 == a
    | none => false

/-- Load a preset into the position of axis `a`: position, unwrapped position, setpoint and references shift alike (R167). A line
axis that the axis sources takes the shift as a discontinuity of R35, refused where a synchronised segment uses the line: then the
line's offset takes the shift back. -/
def State.applyPreset (s : State) (a : Nat) (p : Int) : State :=
  let target := s.wrapWhole a (p / 16777216) * 16777216 + p % 16777216
  let shift := target - s.pos a
  let new := s.upos a + shift
  let dw := new / 16777216 - (s.fb a).whole
  let s1 := s.modFb a fun x => { x with
    whole := new / 16777216, frac := (new % 16777216).toNat, preset := none
    est := { x.est with count := x.est.count + dw }, dir := { x.dir with turn := x.dir.turn + dw }
    index := x.index.map (· + dw) }
  let sp := s1.setpt a
  let s2 := (s1.putSetpt a { sp with x := sp.x + ((shift : Rat) / 16777216) * s.scaleOf a }).modAxis a fun x =>
    { x with lifePos := x.lifePos.map (· + shift) }
  let s3 := (s2.showPos a).cmpJump 3 a
  forN 8 (fun s k =>
    if s.get (Reg.LINE_CFG.SOURCE k) = 2 ∧ s.get (Reg.LINE_CFG.SRC_INDEX k) = a ∧ (s.line k).sampled then
      let d := ux 64 ((if s.on (Reg.LINE_CFG.INVERT k) then -shift else shift) / 256)
      let s1 := s.modLine k fun l => { l with src := l.src + BitVec.ofNat 64 d }
      match s.lineUser k with
      | some i => (s1.modLine k fun l => { l with offset := l.offset - BitVec.ofNat 64 d }).log (Src.line k) Ev.LINE_PRESET_REFUSED i 0
      | none => ((s1.flag (Reg.LINE_STAT.DISCONT k)).refreshActs k).cmpJump 2 k
    else s) s3

/-- The preset of axis `a` at a servo boundary: held before the first uplink, refused while a mover drives the axis (R167). -/
def State.takePreset (s : State) (a : Nat) : State :=
  match (s.fb a).preset with
  | none => s
  | some p =>
    if !(s.fb a).seen then s
    else if s.driven a then (s.modFb a fun x => { x with preset := none }).flag (Reg.FB_STAT.PRESET_REFUSED a)
    else s.applyPreset a p

/-- The window of R174 that instant `t` lies in. -/
def illWindow (ms t : Nat) : Nat := if ms = 0 then 0 else t / (ms * 1000000)

/-- Local encoder `k` at the end of a LOAD (R185): speed, DIR, STANDSTILL, the index check and the count of illegal transitions restart;
count and latch stay. -/
def State.encLoad (s : State) (k : Nat) : State :=
  let c := s.int64 (Reg.ENC_CNT_LO k)
  let s1 := s.modEnc k fun x => { x with
    moved := false, loadAt := s.now, est := ⟨c, s.now, 0⟩, dir := ⟨c, false⟩, index := none, illegal := 0
    window := illWindow (s.get (Reg.ENC_CFG.ILL_WIN k)) s.now }
  let s2 := (s1.setWord (Reg.ENC_SPEED k) 0).set (Reg.ENC_STAT.DIR k) 0
  (((s2.set (Reg.ENC_STAT.STANDSTILL k) 0).set (Reg.ENC_STAT.IN_WIN k) 0).set (Reg.ENC_STAT.ERRS k) 0).stillBroken k

/-! ### Meanings -/

/-- FB_PRESET (R167): the preset is taken at the next servo boundary; refused at once while a mover drives the axis. -/
def State.wFbPreset (s : State) (a : Fin 256) : State :=
  if s.driven a.val then s.flag (Reg.FB_STAT.PRESET_REFUSED a.val)
  else s.modFb a.val fun x => { x with preset := some (s.int64 (Reg.FB_PRESET_LO a.val)) }
/-- FB_PRESET. -/
def execFbPreset (t : Time) (a : Fin 256) (s : State) : Out :=
  byHost t s (Reg.FB_CTRL a.val) 1 (fun s => s.wFbPreset a)

/-- The cause of an axis encoder fault is no longer present (R168). -/
def State.fbCauseGone (s : State) (a : Nat) : Bool :=
  let c := s.get (Reg.FB_STAT.CAUSE a)
  if c = 4 then !(s.fb a).jump else if c = 5 then !(s.fb a).encErr else true

/-- FB_CLR_FAULT (R168): the fault clears once its cause is gone. -/
def State.wFbClrFault (s : State) (a : Fin 256) : State :=
  if s.on (Reg.FB_STAT.FAULT a.val) && s.fbCauseGone a.val then
    (s.set (Reg.FB_STAT.FAULT a.val) 0).set (Reg.FB_STAT.CAUSE a.val) 0
  else s
/-- FB_CLR_FAULT. -/
def execFbClrFault (t : Time) (a : Fin 256) (s : State) : Out :=
  byHost t s (Reg.FB_CTRL a.val) 2 (fun s => s.wFbClrFault a)

/-- The window of local encoder `k` in force at `now`: a window that has ended is judged and the count restarts (R174). -/
def State.rollWindow (s : State) (k : Nat) : State :=
  let w := illWindow (s.get (Reg.ENC_CFG.ILL_WIN k)) s.now
  if w = (s.enc k).window then s
  else (s.modEnc k fun x => { x with
      windowOk := decide (x.illegal ≤ s.get (Reg.ENC_CFG.ILL_MAX k)) || decide (x.window + 1 < w), illegal := 0, window := w }).set
    (Reg.ENC_STAT.IN_WIN k) 0

/-- The cause of a local encoder fault is no longer present (R168). -/
def State.encCauseGone (s : State) (k : Nat) : Bool :=
  let c := s.get (Reg.ENC_STAT.CAUSE k)
  if c = 1 then (s.enc k).windowOk else if c = 2 then (s.enc k).broken.isEmpty else true

/-- ENC_CLR_FAULT (R168): a pair still broken, behind the cause that held the place, is raised in its turn. -/
def State.wEncClrFault (s : State) (k : Fin 8) : State :=
  let s := s.rollWindow k.val
  if s.on (Reg.ENC_STAT.FAULT k.val) && s.encCauseGone k.val then
    ((s.set (Reg.ENC_STAT.FAULT k.val) 0).set (Reg.ENC_STAT.CAUSE k.val) 0).stillBroken k.val
  else s
/-- ENC_CLR_FAULT. -/
def execEncClrFault (t : Time) (k : Fin 8) (s : State) : Out :=
  byHost t s (Reg.ENC_CTRL k.val) 2 (fun s => s.wEncClrFault k)

/-- STANDSTILL_DETECT (R169): STANDSTILL_T has passed since the last counted edge of an axis (`enc` false) or of a local encoder:
the speed becomes 0 and STANDSTILL is set; nothing where the time has not passed. -/
def execStandstillDetect (t : Time) (enc : Bool) (k : Fin 256) (s : State) : Out :=
  live t s fun s =>
    let i := k.val
    if enc then
      let x := s.enc i
      let e := if x.moved then x.edge.getD x.loadAt else x.loadAt
      if i < 8 ∧ e + standstillNs (s.get (Reg.ENC_LIMITS.STANDSTILL_T i)) ≤ s.now then
        ((s.modEnc i fun y => { y with est := { y.est with omega := 0 } }).setWord (Reg.ENC_SPEED i) 0).set
          (Reg.ENC_STAT.STANDSTILL i) 1
      else s
    else if (s.fb i).seen ∧ (s.fb i).edge + standstillNs (s.get (Reg.FB_LIMITS.STANDSTILL_T i)) ≤ s.now then
      ((s.modFb i fun y => { y with est := { y.est with omega := 0 } }).setWord (Reg.FB_SPEED i) 0).set
        (Reg.FB_STAT.STANDSTILL i) 1
    else s

/-- The place of filtered (A, B) in the forward sequence 00, 10, 11, 01 (R173). -/
def quadPlace (a b : Bool) : Nat := if a then (if b then 2 else 1) else (if b then 3 else 0)

/-- An illegal transition from (a0, b0) to (a1, b1) (R173, R174). -/
def State.illegalStep (s : State) (k : Nat) (a0 b0 a1 b1 : Bool) : State :=
  let n := (s.enc k).illegal + 1
  let s1 := ((s.modEnc k fun x => { x with illegal := n }).addMod (Reg.ENC_STAT.ERRS k) 1).set (Reg.ENC_STAT.IN_WIN k) (min n 255)
  let s2 := if n = 1 then
      s1.log (Src.encoder k) Ev.QUAD_ILLEGAL n (2 * b2n a0 + b2n b0 + 8 * b2n a1 + 4 * b2n b1)
    else s1
  if s.get (Reg.ENC_CFG.ILL_MAX k) < n then (s2.modEnc k fun x => { x with windowOk := false }).localFault k 1 0 else s2

/-- One count of local encoder `k` by `d` (+1 or -1), its time recorded to 5 ns (R172, R173; the samples fall on multiples of 5 ns of
TSC, DESIGN CHOICE 21). -/
def State.encCount (s : State) (k : Nat) (d : Int) : State :=
  let c := wrapS 48 (s.int64 (Reg.ENC_CNT_LO k) + d)
  let s1 := (s.setWord64 (Reg.ENC_CNT_LO k) (ux 64 c)).modEnc k fun x => { x with
    edge := some (s.now / 5 * 5), edge2 := x.edge, sign := d, run := if x.sign = d ∨ x.sign = 0 then x.run + 1 else 1, moved := true }
  (s1.set (Reg.ENC_STAT.STANDSTILL k) 0).encDir k

/-- The filtered level of a line at present `x`, sampled at level `v` on `n` consecutive samples (R172). -/
def State.filtered (s : State) (k : Nat) (x v : Bool) (n : Nat) : Bool := if s.get (Reg.ENC_CFG.FILT k) < n then v else x

/-- One sample of A and B of local encoder `k` at levels `a` and `b`, seen on `na` and `nb` consecutive samples (R172, R173). The levels
are followed also while the input is not in use; they count while it is (R185). -/
def encTransition (k : Nat) (a b : Bool) (na nb : Nat) (s : State) : State :=
  let x := s.enc k
  let a1 := s.filtered k x.a a na
  let b1 := s.filtered k x.b b nb
  let p := quadPlace x.a x.b
  let q := quadPlace a1 b1
  if q = p then s
  else if !s.on (Reg.ENC_CFG.EN k) then s.modEnc k fun y => { y with a := a1, b := b1 }
  else
    let s1 := (s.rollWindow k).modEnc k fun y => { y with a := a1, b := b1 }
    if q = (p + 1) % 4 then s1.encCount k 1
    else if p = (q + 1) % 4 then s1.encCount k (-1)
    else s1.illegalStep k x.a x.b a1 b1

/-- One sample of Z of local encoder `k`, after A and B of the same sample: a rising filtered Z of an input in use latches (R173). -/
def State.encZ (s : State) (k : Nat) (z : Bool) (n : Nat) : State :=
  let was := (s.enc k).z
  let z1 := s.filtered k was z n
  let s1 := s.modEnc k fun x => { x with z := z1 }
  if z1 && !was && s.on (Reg.ENC_CFG.EN k) then s1.encIndex k else s1

/-- ENCODER_WIRE_BREAK (R174): the inputs of pair `line` (0 A, 1 B, 2 Z) have stood at one level for more than 1 µs (`broken`),
which raises cause 2, or at different levels for 1 µs again, from which on the cause is no longer present (R168). -/
def execEncoderWireBreak (t : Time) (k : Fin 8) (line : Fin 3) (broken : Bool) (s : State) : Out :=
  live t s fun s =>
    let rest := (s.enc k.val).broken.filter (· != line.val)
    if broken then
      let s1 := s.modEnc k.val fun x => { x with broken := line.val :: rest }
      if s.on (Reg.ENC_CFG.EN k.val) then s1.localFault k.val 2 line.val else s1
    else s.modEnc k.val fun x => { x with broken := rest }

/-- ILLEGAL_WINDOW_END (R174): a window of ILL_WIN ms ends; its count is judged and restarts. -/
def execIllegalWindowEnd (t : Time) (k : Fin 8) (s : State) : Out := live t s fun s => s.rollWindow k.val

end Sys2Proof.Machine
end

