-- ==== Sys2Proof/Machine/Svc.lean ====
section
/-! DEFINITION. Ring masters and nodes as tables, the place of an axis in the ring schedule, and the queue of service transactions
of a ring (R195, R211, R217). -/

namespace Sys2Proof.Machine

/-- Ring `k`. -/
def State.ring (s : State) (k : Nat) : RingSt := tget default s.rings k
/-- Change ring `k`. -/
def State.modRing (s : State) (k : Nat) (f : RingSt → RingSt) : State := { s with rings := tput default s.rings k (f (s.ring k)) }

/-- The key of node `n` of ring `k` in the node table. -/
def nodeKey (k n : Nat) : Nat := 32 * k + n
/-- Node `n` of ring `k`. -/
def State.node (s : State) (k n : Nat) : NodeSt := tget default s.nodes (nodeKey k n)
/-- Change node `n` of ring `k`. -/
def State.modNode (s : State) (k n : Nat) (f : NodeSt → NodeSt) : State :=
  { s with nodes := tput default s.nodes (nodeKey k n) (f (s.node k n)) }

/-- The ring of axis `a`. -/
def State.ringOf (s : State) (a : Nat) : Nat := s.get (Reg.AX_CFG.RING a)
/-- The ring slot of axis `a`. -/
def State.slotOf (s : State) (a : Nat) : Nat := s.get (Reg.AX_CFG.SLOT a)
/-- The node that answers the slot of axis `a` in the active schedule (R200). -/
def State.nodeOf (s : State) (a : Nat) : Nat := s.get (Reg.SCHED_ACT.NODE (s.ringOf a) (s.slotOf a))

/-- A binary32 field of the identity record of the cartridge of axis `a` (R218). -/
def State.identF32 (s : State) (a ofs : Nat) : Rat := f32 (leAt (s.node (s.ringOf a) (s.nodeOf a)).ident ofs 4)

/-- Fields of a schedule entry (R200). -/
def entKind (w : Nat) : Nat := bits w 0 3
def entNode (w : Nat) : Nat := bits w 3 5
def entAxis (w : Nat) : Nat := bits w 8 8
def entType (w : Nat) : Nat := bits w 16 16

/-- The active table of ring `k`. -/
def State.activeTable (s : State) (k : Nat) : List Nat := (List.range 32).map fun i => s.word (Reg.SCHED_ACT k i)
/-- The shadow table of ring `k`. -/
def State.shadowTable (s : State) (k : Nat) : List Nat := (List.range 32).map fun i => s.word (Reg.SCHED_SHD k i)

/-- The AXIS slots of node `n` in a table. -/
def nodeSlots (table : List Nat) (n : Nat) : List Nat :=
  (List.range 32).filter fun i => entKind (table.getD i 0) == 1 && entNode (table.getD i 0) == n

/-- The axes of node `n` of ring `k` by the active table, lowest channel first. -/
def State.nodeAxes (s : State) (k n : Nat) : List Nat :=
  let t := s.activeTable k
  (List.range 256).filter fun a => (nodeSlots t n).any fun i => entAxis (t.getD i 0) == a

/-- Node `n` of ring `k` holds its address. -/
def State.addressed (s : State) (k n : Nat) : Bool := n < 25 && s.on (Reg.NODE_INFO.ADDRESSED k n)
/-- Node `n` of ring `k` is muted. -/
def State.nodeMuted (s : State) (k n : Nat) : Bool := bitAt (s.get (Reg.RING_MUTE.MUTE k)) n

/-- A transaction of the controller's own waits (R211). -/
def State.queueOwn (s : State) (k : Nat) (x : Txn) : State := s.modRing k fun r => { r with ownTxns := r.ownTxns ++ [x] }

/-! ### The records of a cartridge over the ring (R217–R220) -/

/-- The 64 bytes of a life record. -/
def LifeRec.bytes (r : LifeRec) : List Nat :=
  let b := leBytes 4 r.seq ++ leBytes 8 r.consumed ++ leBytes 4 r.onTime ++ leBytes 4 r.peaks ++ leBytes 2 r.tempPeak ++ [0, 0] ++
    ((List.range 8).flatMap fun i => leBytes 4 (r.hist.getD i 0)) ++ leBytes 4 r.writes
  b ++ leBytes 4 (crc32c b)

/-- Part `p` of a life record write to node `n` (R220): WRITEs of 24, 24 and 16 bytes of the slot, then its READs. -/
def lifeTxn (n p : Nat) (w : LifeWrite) : Txn :=
  let base := 0x1000 + 0x40 * w.slot
  let x := { (default : Txn) with owner := .life p, node := n }
  match p with
  | 0 => { x with op := 2, addr := base, len := 24, data := w.record.bytes.take 24 }
  | 1 => { x with op := 2, addr := base + 24, len := 24, data := (w.record.bytes.drop 24).take 24 }
  | 2 => { x with op := 2, addr := base + 48, len := 16, data := w.record.bytes.drop 48 }
  | 3 => { x with op := 1, addr := base, len := 32 }
  | _ => { x with op := 1, addr := base + 32, len := 32 }

/-- Part `p` of the reading of a node's records (R219): the 256 bytes of the identity record, then the 2 048 of the life record slots. -/
def identTxn (n p : Nat) : Txn :=
  { (default : Txn) with owner := .ident p, op := 1, node := n, addr := if p < 8 then 32 * p else 0x1000 + 32 * (p - 8), len := 32 }

/-- The reading of the records of node `n` begins (R210 phase 5, R219). -/
def State.startRead (s : State) (k n : Nat) : State :=
  (s.modNode k n fun x => { x with reading := true, readBuf := [], readDone := false }).queueOwn k (identTxn n 0)

/-- A WRITE of one PWM frequency of DRV_PWM to the node of axis `a` (R217): QUIET_KHZ (0) or STRONG_KHZ (1). -/
def State.queuePwm (s : State) (a which : Nat) : State :=
  let k := s.ringOf a
  let n := s.nodeOf a
  let khz := if which = 0 then s.get (Reg.DRV_PWM.QUIET_KHZ a) else s.get (Reg.DRV_PWM.STRONG_KHZ a)
  let s1 := s.queueOwn k
    { (default : Txn) with owner := .pwm which, op := 2, node := n, addr := 0x2000 + which, len := 1, data := [khz % 256] }
  s1.modNode k n fun x => if which = 0 then { x with pwmQ := 1 } else { x with pwmS := 1 }

/-- A PWM frequency write that ended in TIMEOUT or with STATUS 1 is sent again at a later enable request (R217). -/
def State.retryPwm (s : State) (a : Nat) : State :=
  let x := s.node (s.ringOf a) (s.nodeOf a)
  let s1 := if x.pwmQ = 3 then s.queuePwm a 0 else s
  if x.pwmS = 3 then s1.queuePwm a 1 else s1

/-- The derating factor of the cartridge of axis `a` (R223): DERATE / 256 once its life fraction has reached 1. -/
def State.derate (s : State) (a : Nat) : Rat :=
  if 2 ≤ s.get (Reg.LIFE_STAT.STATE a) then (s.get (Reg.LIFE_CFG.DERATE a) : Rat) / 256 else 1

/-- I_C, I_P and T_P of axis `a` from the identity record of its cartridge, I_C and I_P times `d` (R151, R219, R223). -/
def State.takeRatings (s : State) (a : Nat) (d : Rat) : State :=
  ((s.setWord (Reg.I2T_ICONT a) (toF32 (s.identF32 a 0x1C * d))).setWord
    (Reg.I2T_IPEAK a) (toF32 (s.identF32 a 0x20 * d))).setWord (Reg.I2T_TPEAK a) (toF32 (s.identF32 a 0x24))

end Sys2Proof.Machine
end

