-- ==== Sys2Proof/Machine/Drive.lean ====
section
/-! DEFINITION. Drive output: the drive block (R143–R146), quiet and strong modes (R148–R150), the i²t limit (R151–R152), stall
(R157), and the enable sequence of an axis (R158–R161). -/

namespace Sys2Proof.Machine

/-! ### Enable requests (R158) -/

/-- The first reason for which an enable request of axis `a` by `path` (0 island, 1 AX_CTRL, 2 latch) is refused; 0 grants it. -/
def State.enableReason (s : State) (a path : Nat) : Nat :=
  let n := s.node (s.ringOf a) (s.nodeOf a)
  if (s.img.axis? a).isNone then 8
  else if !(s.devState == devReduced || s.devState == devAutomatic) then 1
  else if s.stoOn (s.ringOf a) then 2
  else if s.axState a = axFault then 3
  else if !n.answers || !s.on (Reg.LIFE_STAT.ACCEPTED a) || leAt n.ident 0x12 1 != s.get (Reg.AX_CFG.KIND a) then 4
  else if s.get (Reg.LIFE_STAT.STATE a) = 3 ∧ !s.on (Reg.LIFE_CFG.CONT_USE a) then 5
  else if path = 1 ∧ s.on (Reg.AX_CFG.IN_ISLAND a) then 6
  else if !s.on (Reg.DRV_STAT.PWM_SET a) then 7
  else 0

/-- A refused request: ENABLE_REFUSED with the reason and the path, AX_STATE.REFUSED and REASON (R158, R162). -/
def State.refuse (s : State) (a reason path : Nat) : State :=
  ((s.flag (Reg.AX_STATE.REFUSED a)).set (Reg.AX_STATE.REASON a) reason).log (Src.axis a) Ev.ENABLE_REFUSED reason path

/-- Axis `a` enters a state and DISABLING phase now (R159). -/
def State.enter (s : State) (a st ph : Nat) : State :=
  ((s.set (Reg.AX_STATE.STATE a) st).set (Reg.AX_STATE.PHASE a) ph).modAxis a fun x => { x with timerAt := s.dev.cycle.toNat }

/-- A time in ms as whole servo cycles of 62.5 µs, in ring cycles (R9, R159). -/
def servoCycles (ms : Nat) : Nat := 64 * ms

/-! ### The phases, in the order they end (R159) -/

/-- DISABLING enters TORQUE_OFF: the torque-off command follows and a life record write falls due (R159, R221). -/
def State.toTorqueOff (s : State) (a : Nat) : State :=
  let s1 := s.enter a axDisabling phTorqueOff
  { s1 with lifeDue := s1.lifeDue ++ [a] }

/-- DISABLING enters BRAKE_SET: BRAKE_REL = 0, torque kept; a BRAKE_SET_T of 0 passes at once. -/
def State.toBrakeSet (s : State) (a : Nat) : State :=
  let s1 := s.enter a axDisabling phBrakeSet
  if s1.get (Reg.DRV_SEQ1.BRAKE_SET_T a) = 0 then s1.toTorqueOff a else s1

/-- DISABLING enters HOLD; a HOLD_T of 0 passes at once. -/
def State.toHold (s : State) (a : Nat) : State :=
  let s1 := s.enter a axDisabling phHold
  if s1.get (Reg.DRV_SEQ1.HOLD_T a) = 0 then s1.toBrakeSet a else s1

/-- The loop-engine slot that serves axis `a`: the engine of its ring and the slot whose LAW_AXIS names it (R93, R116). -/
def State.lawSlot (s : State) (a : Nat) : Option (Nat × Nat) :=
  ((List.range 16).flatMap fun e => (List.range 24).map fun sl => (e, sl)).find? fun p =>
    s.on (Reg.LAW_AXIS.VALID p.1 p.2) && s.get (Reg.LAW_AXIS.AXIS p.1 p.2) == a &&
      s.get (Reg.LE_CFG.RING p.1) == s.ringOf a

/-- The following error is within BAND_OUTER (R159): |FERR| ≤ BAND_OUTER of the axis's slot. -/
def State.ferrOk (s : State) (a : Nat) : Bool :=
  match s.lawSlot a with
  | some (e, sl) => decide ((sx 32 (s.word (Reg.FERR e sl))).natAbs ≤ s.word (Reg.BAND_OUTER e sl))
  | none => true

/-- The stepper stage when its axis enters ENABLED: cleared, and in table mode until the next complete move has ended (R97, R155). -/
def StepStage.enabled : StepStage := { (default : StepStage) with table := true, useTable := true }

/-- The law state of a slot cleared and bank A put in use (R97): the X and Y words its LAWDECL declares read 0, the reference law's state
is 0, and the band state machine restarts in TRACK_A. -/
def State.clearLaw (s : State) (e sl : Nat) : State :=
  let ws := match s.img.laws.find? fun d => d.engine == e && d.slot == sl with
    | some d => d.words
    | none => []
  let s1 := { s with lemem := ws.foldl (fun m w => tput 0 m (e * 262144 + w % 65536) 0) s.lemem }
  let s2 := (s1.set (Reg.LAW_STAT.BANK e sl) 0).set (Reg.LAW_STAT.BAND e sl) 0
  let s3 := (s2.set (Reg.BAND_COUNT.DWELL_CNT e sl) 0).set (Reg.BAND_COUNT.OUT_CNT e sl) 0
  let s4 := s3.modSlot e sl fun x => { x with auto := none, ref := default, stage := StepStage.enabled }
  s4.setB (Reg.LAW_STAT.SWITCH_PENDING e sl) (!(s4.slot e sl).forced.isEmpty)

/-- The mode of axis `a` becomes `m` from the present ring cycle on: a change counts in MODE_SWITCHES (R148). -/
def State.setMode (s : State) (a : Nat) (m : Bool) : State :=
  if m = (s.axis a).strong then s.modAxis a fun y => { y with nextStrong := none }
  else (s.modAxis a fun y => { y with strong := m, modeFrom := s.dev.cycle.toNat, nextStrong := none }).addMod
    (Reg.DRV_STAT.MODE_SWITCHES a) 1

/-- BRAKE_REL_T has elapsed: ENABLED with the law state cleared and quiet mode unless MODE is 2, or cause 9 (R97, R148, R159). -/
def State.brakeReleased (s : State) (a : Nat) : State :=
  if s.ferrOk a then
    let s1 := match s.lawSlot a with
      | some (e, sl) => s.clearLaw e sl
      | none => s
    (s1.enter a axEnabled 0).setMode a (decide (s.get (Reg.QS_CFG.MODE a) = 2))
  else s.takeFault a 9

/-- The bus voltage of axis `a` has reached UDC_MIN of its voltage base (R163): UDC / 65 536 × U_FS ≥ UDC_MIN / 65 536 × base. -/
def State.udcOk (s : State) (a : Nat) : Bool :=
  match (s.axis a).uplink with
  | none => false
  | some u =>
    let ufs := s.identF32 a 0x18
    let base := match s.lawSlot a with
      | some (e, sl) => match s.img.laws.find? fun d => d.engine == e && d.slot == sl with
        | some d => f32 d.uBase
        | none => ufs
      | none => ufs
    decide ((s.get (Reg.DRV_SEQ0.UDC_MIN a) : Rat) * base ≤ (u.udc : Rat) * ufs)

/-- UDC ≥ UDC_MIN in PRECHARGE: BRAKE_RELEASE, setpoints hold the present position, τ* its last value (R159). -/
def State.precharged (s : State) (a : Nat) : State :=
  let s1 := s.putSetpt a { x := s.unitsOf a (s.pos a), v := 0, a := 0, tau := (s.setpt a).tau }
  let s2 := s1.enter a axBrakeRelease 0
  if s2.get (Reg.DRV_SEQ1.BRAKE_REL_T a) = 0 then s2.brakeReleased a else s2

/-- An enable request of axis `a` taken at a servo boundary (R158, R159, R161); PWM frequency writes that failed are sent again
(R217). -/
def State.takeEnable (s : State) (a path : Nat) : State :=
  let s := if (s.img.axis? a).isSome then s.retryPwm a else s
  let st := s.axState a
  if st = axDisabling then
    if path = 1 ∧ s.on (Reg.AX_CFG.IN_ISLAND a) then s.refuse a (s.enableReason a path) path else s.set (Reg.AX_STATE.LATCHED a) 1
  else if st = axOff ∨ st = axFault then
    let r := s.enableReason a path
    let s0 := s.set (Reg.AX_STATE.LATCHED a) 0
    if r ≠ 0 then s0.refuse a r path
    else
      ((s0.enter a axPrecharge 0).takeRatings a (s0.derate a)).modAxis a fun x =>
        { x with charge := if x.precharged then x.charge else 0, precharged := true }
  else
    let r := s.enableReason a path
    if r ≠ 0 then s.refuse a r path else s

/-- The profile generator of axis `a` is stopped (R67): it comes to rest at the next servo boundary. -/
def State.stopPg (s : State) (a : Nat) : State := s.modPg a fun p => { p with stopReq := true, go := none, after := none }

/-- The mover of axis `a` stops (R159): the flow that drives it makes a path-hold stop, or its profile generator stops. -/
def State.stopMover (s : State) (a : Nat) : State :=
  let s1 := if s.on (Reg.PG_STAT.ACTIVE a) || (s.pg a).go.isSome then s.stopPg a else s
  forEach (s1.img.islandIds.filter fun i => match (s1.flow i).run with
    | some r => r.stop.isNone && r.start.any fun e => e.1 == a
    | none => false) (fun s i => s.modFlow i fun f => { f with reqStand := true }) s1

/-- A disable request of axis `a` taken at a servo boundary (R159). -/
def State.takeDisable (s : State) (a : Nat) : State :=
  let st := s.axState a
  if st = axPrecharge then s.toTorqueOff a
  else if st = axBrakeRelease then s.toBrakeSet a
  else if st = axEnabled then (s.stopMover a).enter a axDisabling phDecel
  else s.set (Reg.AX_STATE.LATCHED a) 0

/-- The cause of the axis's fault is no longer present (R159, AX_CTRL.CLEAR): by cause. -/
def State.faultGone (s : State) (a : Nat) : Bool :=
  let c := s.get (Reg.AX_FAULT.CAUSE a)
  if c = 2 then match (s.axis a).uplink with
    | some u => !bitAt u.status 3
    | none => true
  else if c = 3 then !bitAt (s.get (Reg.RING_MUTE.MUTE (s.ringOf a))) (s.nodeOf a)
  else if c = 6 then !s.on (Reg.FB_STAT.FAULT a)
  else if c = 7 then !s.stoOn (s.ringOf a)
  else if c = 8 then leAt (s.node (s.ringOf a) (s.nodeOf a)).ident 0x12 1 == s.get (Reg.AX_CFG.KIND a)
  else if c = 11 then s.get (Reg.RING_STAT.MODE (s.ringOf a)) ≥ 2
  else true

/-- AX_CTRL.CLEAR taken at a servo boundary (R159): OFF once the cause is gone and the uplink reports the bridge off. -/
def State.takeClear (s : State) (a : Nat) : State :=
  if s.axState a = axFault ∧ s.faultGone a ∧ s.bridgeOff a then s.enter a axOff 0 else s

/-- The reason for which an AX_CTRL.DISABLE of axis channel `a` is refused (R158); 0 where it is taken. -/
def State.disableReason (s : State) (a : Nat) : Nat :=
  if (s.img.axis? a).isNone then 8 else if s.on (Reg.AX_CFG.IN_ISLAND a) then 6 else 0

/-- The requests of axis `a` at a servo boundary, in the order of R160: a CLEAR is taken before an enable, a disable wins over every
enable, a refused AX_CTRL.DISABLE has no other effect, and a latched enable is taken after OFF was entered (R158, R161). -/
def State.axisRequests (s : State) (a : Nat) : State :=
  let x := s.axis a
  let s0 := s.modAxis a fun y => { y with reqEnable := [], reqDisable := false, axDisable := false, reqClear := false }
  let r := s.disableReason a
  let s1 := if x.axDisable ∧ r ≠ 0 then s0.refuse a r 1 else s0
  let s2 := if x.reqClear then s1.takeClear a else s1
  if (s.img.axis? a).isSome ∧ (x.reqDisable ∨ (x.axDisable ∧ r = 0)) then s2.takeDisable a
  else
    let l := if x.reqEnable.isEmpty ∧ s2.axState a = axOff ∧ s2.on (Reg.AX_STATE.LATCHED a) then [2] else x.reqEnable
    forEach l (fun s p => s.takeEnable a p) s2

/-! ### Quiet and strong mode (R148, R150) -/

/-- The change of mode decided at the last servo sample takes effect at a servo boundary (R148). -/
def State.qsSwitch (s : State) (a : Nat) : State :=
  let x := s.axis a
  match x.nextStrong with
  | some m => s.setMode a m
  | none => s

/-- A servo boundary of the modes: a change takes effect (R148); the writes of QS_UP, QS_DOWN, QS_CFG that wait take effect, and one that
would leave QS_DOWN ≥ QS_UP is ignored and sets QS_REFUSED (R150). -/
def State.qsTake (s : State) (a : Nat) : State :=
  forEach (s.axis a).qsWrites (fun s w =>
    let s1 := s.setWord w.1 w.2
    if f32 (s1.word (Reg.QS_UP a)) ≤ f32 (s1.word (Reg.QS_DOWN a)) then s.flag (Reg.DRV_STAT.QS_REFUSED a) else s1)
    ((s.qsSwitch a).modAxis a fun x => { x with qsWrites := [] })

/-- The servo sample of the mode (R148): the mode from the next servo boundary on is decided. -/
def State.qsSample (s : State) (a : Nat) : State :=
  let cur := (s.axis a).strong
  let w := rabs (s.fb a).est.omega * rabs (s.scaleOf a)
  let m := s.get (Reg.QS_CFG.MODE a)
  let want := if m = 1 then false else if m = 2 then true
    else if cur then !decide (w < f32 (s.word (Reg.QS_DOWN a))) else decide (f32 (s.word (Reg.QS_UP a)) < w)
  s.modAxis a fun y => { y with nextStrong := some want }

/-! ### The i²t limit (R151, R152) -/

/-- i² of the uplink in A² by the channel kind: id² + iq² for a servo channel as iα² + iβ², iA² + iB², or ia² (R151). -/
def State.iSquared (s : State) (a : Nat) (u : Uplink) : Rat :=
  let fs := s.identF32 a 0x14
  let ia := (u.ia : Rat) / 32768 * fs
  let ib := (u.ib : Rat) / 32768 * fs
  match s.get (Reg.AX_CFG.KIND a) with
  | 0 => ia * ia + (ia + 2 * ib) * (ia + 2 * ib) / 3
  | 1 => ia * ia + ib * ib
  | _ => ia * ia

/-- I2T_UPDATE (R151, R152): the charge, i_lim, I2T_STAT and I2T_LIMIT of axis `a` for one ring cycle. -/
def State.i2t (s : State) (a : Nat) : State :=
  let x := s.axis a
  let ic := f32 (s.word (Reg.I2T_ICONT a))
  let ip := f32 (s.word (Reg.I2T_IPEAK a))
  let tp := f32 (s.word (Reg.I2T_TPEAK a))
  let qmax := (ip * ip - ic * ic) * tp
  let i2 := match x.uplink with
    | some u => s.iSquared a u
    | none => 0
  let i2' := if s.axState a = axOff then 0 else i2
  let q := max 0 (min (5 / 4 * qmax) (x.charge + (i2' - ic * ic) * (1 / 64000)))
  let lim := if q ≤ qmax then ip else ip - (ip - ic) * ((q - qmax) / (qmax / 4))
  let load := if qmax ≤ 0 then 0 else min 0xA000 (q / qmax * 32768).floor.toNat
  let s1 := s.modAxis a fun y => { y with charge := q }
  let s2 := (s1.set (Reg.I2T_STAT.LOAD a) load).setWord (Reg.I_LIM a) (toF32 lim)
  if qmax < q ∧ !s2.on (Reg.I2T_STAT.LIMITING a) then
    (s2.set (Reg.I2T_STAT.LIMITING a) 1).log (Src.axis a) Ev.I2T_LIMIT (toF32 lim) load
  else if q ≤ 9 / 10 * qmax then s2.set (Reg.I2T_STAT.LIMITING a) 0
  else s2

/-! ### The drive block (R143–R146, R157) -/

/-- The 16-bit value of a 24-bit duty word (R144): clamped and unsigned for a servo channel, the upper bits otherwise. -/
def dutyWord (kind w : Nat) : Nat :=
  if kind = 0 then (if bitAt w 23 then 0 else bits w 7 16) else bits w 8 16

/-- The values W0–W2 of committed mailbox words by the channel kind (R144). -/
def dutyBlock (k : Nat) (d : Nat × Nat × Nat) : DriveBlock :=
  ⟨0, dutyWord k d.1, if k = 2 then 0 else dutyWord k d.2.1, if k = 0 then dutyWord k d.2.2 else 0⟩

/-- The torque-off command of axis `a` (R145). -/
def State.torqueOffBlock (s : State) (a : Nat) : DriveBlock :=
  ⟨8 * b2n (!(s.axis a).strong) + 32 * s.get (Reg.AX_CFG.KIND a), 0, 0, 0⟩

/-- OP and BRAKE_REL by the axis state (R143, R159). -/
def State.opOf (s : State) (a : Nat) : Nat × Nat :=
  let st := s.axState a
  let ph := s.get (Reg.AX_STATE.PHASE a)
  if st = axPrecharge then (1, 0)
  else if st = axBrakeRelease ∨ st = axEnabled then (2, 1)
  else if st = axDisabling ∧ ph ≠ phTorqueOff then (2, if ph = phBrakeSet then 0 else 1)
  else (0, 0)

/-- The drive block of a poll of axis `a` from committed duty words, or from the last ones where `held` (R143–R146). -/
def State.driveBlock (s : State) (a : Nat) (duty : Nat × Nat × Nat) (held : Bool) : DriveBlock :=
  let k := s.get (Reg.AX_CFG.KIND a)
  let o := s.opOf a
  if o.1 = 0 then s.torqueOffBlock a
  else
    let x := s.axis a
    let quiet := b2n (!x.pwmSel)
    let w := if held then x.duties else dutyBlock k duty
    ⟨o.1 + 4 * o.2 + 8 * quiet + 16 * b2n held + 32 * k, w.w0, w.w1, w.w2⟩

/-- A poll of axis `a` carries the block: DRV_STAT shows its OP, BRAKE_REL, PWM_SEL and HELD (R146). -/
def State.sendBlock (s : State) (a : Nat) (d : DriveBlock) : State :=
  let s1 := (s.set (Reg.DRV_STAT.OP a) (bits d.cmd 0 2)).set (Reg.DRV_STAT.BRAKE_REL a) (bits d.cmd 2 1)
  let s2 := (s1.set (Reg.DRV_STAT.PWM_SEL a) (bits d.cmd 3 1)).set (Reg.DRV_STAT.HELD a) (bits d.cmd 4 1)
  s2.modAxis a fun x => { x with block := d, blockPrev := x.block }

/-- The load angle of a committed downlink of a stepper (R157): STEP_STAT, the stall count, and the action of STALL_ACT. -/
def State.stallCheck (s : State) (a dlw : Nat) : State :=
  let s0 := s.set (Reg.STEP_STAT.LOAD_ANGLE a) (bits dlw 8 16)
  let n0 := s.get (Reg.STEP_CFG.STALL_N a)
  let n := if n0 = 0 then 1 else n0
  if (sx 24 dlw).natAbs ≤ 0x400000 then s0.modAxis a fun x => { x with stallRun := 0, stalled := false }
  else
    let r := (s.axis a).stallRun + 1
    let s1 := s0.modAxis a fun x => { x with stallRun := r }
    if n ≤ r ∧ !(s.axis a).stalled then
      let act := s.get (Reg.STEP_CFG.STALL_ACT a)
      let s2 := ((s1.modAxis a fun x => { x with stalled := true }).flag (Reg.STEP_STAT.STALL a)).log (Src.axis a) Ev.STALL dlw act
      if act = 0 then s2
      else if act = 1 then match s.img.islandOf? a with
        | some i => s2.ss1 i
        | none => s2.askDisable a
      else s2.axisFault a 5
    else s1

/-! ### Meanings -/

/-- AX_ENABLE (R158): an enable request by AX_CTRL, taken at the next servo boundary. -/
def State.wAxEnable (s : State) (a : Fin 256) : State := s.askEnable a.val 1
/-- AX_ENABLE. -/
def execAxEnable (t : Time) (a : Fin 256) (s : State) : Out :=
  byHost t s (Reg.AX_CTRL a.val) 1 (fun s => s.wAxEnable a)

/-- AX_DISABLE (R158, R159): a disable request by AX_CTRL, taken or refused at the next servo boundary. -/
def State.wAxDisable (s : State) (a : Fin 256) : State := s.modAxis a.val fun x => { x with axDisable := true }
/-- AX_DISABLE. -/
def execAxDisable (t : Time) (a : Fin 256) (s : State) : Out :=
  byHost t s (Reg.AX_CTRL a.val) 2 (fun s => s.wAxDisable a)

/-- AX_CLEAR (R159, R160): a clear of FAULT, taken at the next servo boundary before an enable. -/
def State.wAxClear (s : State) (a : Fin 256) : State := s.modAxis a.val fun x => { x with reqClear := true }
/-- AX_CLEAR. -/
def execAxClear (t : Time) (a : Fin 256) (s : State) : Out :=
  byHost t s (Reg.AX_CTRL a.val) 4 (fun s => s.wAxClear a)

/-- A servo boundary passes now: requests, timers and conditions of the enable sequence are taken at it (R159). -/
def State.atServo (s : State) : Bool := s.dev.begun && s.servo && s.dev.cycleTsc == s.now

/-- A command that takes a timer or a condition of the enable sequence at a servo boundary (R159). -/
def onServo (t : Time) (s : State) (p : State → Bool) (f : State → State) : Out :=
  live t s fun s => if s.atServo && p s then f s else s

/-- PRECHARGE_COMPLETE (R159): the bus voltage has reached UDC_MIN in PRECHARGE. -/
def execPrechargeComplete (t : Time) (a : Fin 256) (s : State) : Out :=
  onServo t s (fun s => s.axState a.val == axPrecharge && s.udcOk a.val) (·.precharged a.val)

/-- The time `ms` since the axis entered its state or phase has elapsed, in whole servo cycles rounded up (R159). -/
def State.elapsed (s : State) (a ms : Nat) : Bool := decide ((s.axis a).timerAt + servoCycles ms ≤ s.dev.cycle.toNat)

/-- PRECHARGE_TIMEOUT (R159): PRECHG_T has elapsed with the bus below UDC_MIN: cause 1. -/
def execPrechargeTimeout (t : Time) (a : Fin 256) (s : State) : Out :=
  onServo t s (fun s => s.axState a.val == axPrecharge && s.elapsed a.val (s.get (Reg.DRV_SEQ0.PRECHG_T a.val)) && !s.udcOk a.val)
    (·.takeFault a.val 1)

/-- BRAKE_RELEASE_TIMEOUT (R159): BRAKE_REL_T has elapsed. -/
def execBrakeReleaseTimeout (t : Time) (a : Fin 256) (s : State) : Out :=
  onServo t s (fun s => s.axState a.val == axBrakeRelease && s.elapsed a.val (s.get (Reg.DRV_SEQ1.BRAKE_REL_T a.val)))
    (·.brakeReleased a.val)

/-- Axis `a` is in this phase of DISABLING. -/
def State.inPhase (s : State) (a ph : Nat) : Bool := s.axState a == axDisabling && s.get (Reg.AX_STATE.PHASE a) == ph

/-- The setpoint of axis `a` is at rest. -/
def State.atRest (s : State) (a : Nat) : Bool := (s.setpt a).v == 0 && (s.setpt a).a == 0

/-- DECEL_COMPLETE (R159): the setpoint is at rest in DECEL; the axis enters HOLD. -/
def execDecelComplete (t : Time) (a : Fin 256) (s : State) : Out :=
  onServo t s (fun s => s.inPhase a.val phDecel && s.atRest a.val) (·.toHold a.val)

/-- HOLD_TIMEOUT (R159): HOLD_T has elapsed; the brake is set. -/
def execHoldTimeout (t : Time) (a : Fin 256) (s : State) : Out :=
  onServo t s (fun s => s.inPhase a.val phHold && s.elapsed a.val (s.get (Reg.DRV_SEQ1.HOLD_T a.val))) (·.toBrakeSet a.val)

/-- BRAKE_SET_TIMEOUT (R159): BRAKE_SET_T has elapsed; the torque-off command follows. -/
def execBrakeSetTimeout (t : Time) (a : Fin 256) (s : State) : Out :=
  onServo t s (fun s => s.inPhase a.val phBrakeSet && s.elapsed a.val (s.get (Reg.DRV_SEQ1.BRAKE_SET_T a.val))) (·.toTorqueOff a.val)

/-- BRIDGE_OFF_REPORTED (R159): the latest uplink reports the bridge off in TORQUE_OFF; the axis enters OFF, its latch kept. -/
def execBridgeOffReported (t : Time) (a : Fin 256) (s : State) : Out :=
  onServo t s (fun s => s.inPhase a.val phTorqueOff && s.bridgeOff a.val) (·.enter a.val axOff 0)

/-- TORQUE_OFF_TIMEOUT (R159): 16 ring cycles in TORQUE_OFF without a report that the bridge is off: cause 10. -/
def execTorqueOffTimeout (t : Time) (a : Fin 256) (s : State) : Out :=
  onServo t s (fun s => s.inPhase a.val phTorqueOff && !s.bridgeOff a.val && decide ((s.axis a.val).timerAt + 16 ≤ s.dev.cycle.toNat))
    (·.takeFault a.val 10)

/-- The register a QS_WRITE names: QS_UP, QS_DOWN or QS_CFG. -/
def qsAddr (a : Nat) (r : Fin 3) : Nat := [Reg.QS_UP a, Reg.QS_DOWN a, Reg.QS_CFG a].getD r.val 0
/-- QS_WRITE (R150): a write to QS_UP (0), QS_DOWN (1) or QS_CFG (2) waits for the next servo boundary. -/
def State.wQsWrite (s : State) (a : Fin 256) (r : Fin 3) (v : Word) : State :=
  let ad := qsAddr a.val r
  let w := if r.val = 2 then Nat.land v.toNat 0xFFFF0003 else v.toNat
  s.modAxis a.val fun x => { x with qsWrites := x.qsWrites ++ [(ad, w)] }
/-- QS_WRITE. -/
def execQsWrite (t : Time) (a : Fin 256) (r : Fin 3) (v : Word) (s : State) : Out :=
  byHost t s (qsAddr a.val r) v.toNat (fun s => s.wQsWrite a r v)

end Sys2Proof.Machine
end

