-- ==== Sys2Proof/Machine/Queues.lean ====
section
/-! DEFINITION. The point-stream port and the queues Q0–Q31 (R356–R368): packing, records, watermarks, host pushes, flushes. -/

namespace Sys2Proof.Machine

/-- Queue `q`. -/
def State.queue (s : State) (q : Nat) : QueueSt := tget default s.queues q
/-- Change queue `q`. -/
def State.modQueue (s : State) (q : Nat) (f : QueueSt → QueueSt) : State :=
  { s with queues := tput default s.queues q (f (s.queue q)) }

/-- The words a queue holds at most (R360). -/
def queueDepth : Nat := 512

/-- A word as 32 bytes, zeros from its count of valid bytes on (R358). -/
def padWord (l : List Nat) : List Nat := (l ++ List.replicate 32 0).take 32

/-! ### Watermarks and status (R362, R368) -/

/-- Q_STAT of queue `q` shows the queue: ABOVE where the depth exceeds HWM, BELOW where it is less than LWM. -/
def State.syncQueue (s : State) (q : Nat) : State :=
  let x := s.queue q
  let n := x.words.length
  let s1 := (s.set (Reg.Q_STAT.DEPTH q) n).setB (Reg.Q_STAT.ABOVE q) (decide (s.get (Reg.Q_CFG.HWM q) < n))
  let s2 := (s1.setB (Reg.Q_STAT.BELOW q) (decide (n < s.get (Reg.Q_CFG.LWM q)))).setB (Reg.Q_STAT.STAGED q) x.staged.isSome
  (s2.setB (Reg.Q_STAT.CLOSED q) x.closed.isSome).set (Reg.Q_STAT.FILL q) x.asm.length

/-- PS_XOFFg after an evaluation: 1 when any queue of the group is above, 0 when every one is below, otherwise unchanged. -/
def State.syncXoff (s : State) (g : Nat) : State :=
  let qs := [4 * g, 4 * g + 1, 4 * g + 2, 4 * g + 3]
  let w := s.get Reg.PS_STAT.XOFF
  if qs.any fun q => s.on (Reg.Q_STAT.ABOVE q) then s.set Reg.PS_STAT.XOFF (withBit w g true)
  else if qs.all fun q => s.on (Reg.Q_STAT.BELOW q) then s.set Reg.PS_STAT.XOFF (withBit w g false)
  else s

/-- The port takes writes in this device state (R357). -/
def State.psOpen (s : State) : Bool :=
  (s.devState == devBringUp || s.devState == devReduced || s.devState == devAutomatic || s.devState == devStopping) && s.takesInputs

/-- The status and the pin of queue `q` after a change (R362). -/
def State.showQueue (s : State) (q : Nat) : State :=
  let s1 := s.syncQueue q
  if q < 16 ∧ s1.psOpen then s1.syncXoff (q / 4) else s1

/-- The port's levels follow the device state (R357): PS_STAT.ACCEPTING, and every PS_XOFF at 1 where it takes no writes. -/
def State.syncPort (s : State) : State :=
  if s.psOpen then forN 4 State.syncXoff (s.set Reg.PS_STAT.ACCEPTING 1)
  else (s.set Reg.PS_STAT.ACCEPTING 0).set Reg.PS_STAT.XOFF 0xF

/-- A record is dropped: QUEUE_RECORD_BAD with the reason and the words discarded, Q_ERR.RECORD_BAD (R361). -/
def State.recordBad (s : State) (q reason words : Nat) : State :=
  (s.log (Src.queue q) Ev.QUEUE_RECORD_BAD reason words).addSat (Reg.Q_ERR.RECORD_BAD q) 1

/-- The reason of R361 for which word `w` drops the record of which `n` words stand in the queue; none where it stands. -/
def recordFault (mode n : Nat) (w : QWord) : Option Nat :=
  if mode = 1 then
    if n = 0 then (if w.valid < 32 ∨ w.last then some 1 else none)
    else if w.valid < 32 ∨ !w.last then some 2 else none
  else if mode = 2 ∧ n = 4 then some 3
  else none

/-- A word is pushed into queue `q`, which has room: the state, and whether the word was discarded (R361). -/
def State.qPush (s : State) (q : Nat) (w : QWord) : State × Bool :=
  let x := s.queue q
  let mode := s.get (Reg.Q_CFG.MODE q)
  if x.discard then ((s.modQueue q fun y => { y with discard := !w.last }).showQueue q, true)
  else
    match (if mode = 0 then none else recordFault mode x.tail w) with
    | some r =>
      let s1 := s.modQueue q fun y => { y with
        words := y.words.take (y.words.length - y.tail), tail := 0, discard := !w.last }
      ((s1.recordBad q r (x.tail + 1)).showQueue q, true)
    | none =>
      let s1 := s.modQueue q fun y => { y with words := y.words ++ [{ w with at' := s.now }], tail := if w.last then 0 else y.tail + 1 }
      ((s1.addMod (Reg.Q_CNT.PUSHED q) 1).showQueue q, false)

/-- The queue has room for a word in this queue cycle: it was not full at its start (R363, R364). -/
def State.qRoom (s : State) (q : Nat) : Bool :=
  decide ((s.queue q).words.length < queueDepth) && (s.queue q).fullAt != some s.now

/-- A flush empties the queue in this queue cycle: what arrives in it is discarded (R365). -/
def State.qFlushing (s : State) (q : Nat) : Bool := (s.queue q).flushAt.any fun t => decide (s.now ≤ t)

/-- The servo cycle from which a word pushed now may be popped (R366): at once, or on the active of a pair one servo cycle
later than the next. -/
def State.wordStart (s : State) : Nat := if s.inPair && s.takesInputs then s.servoNo + 2 else 0

/-- The staged word enters its queue where there is room, mirrored in a pair (R366); a closed word moves to the staged-word register
(R358). -/
def State.pushStaged (s : State) (q : Nat) : State :=
  let x := s.queue q
  match x.staged with
  | none => s
  | some w =>
    if s.qRoom q then
      let s1 := s.mirror 1 (q :: (w.valid + 64 * b2n w.last) :: w.bytes)
      ((s1.modQueue q fun y => { y with staged := y.closed, closed := none }).qPush q { w with start := s.wordStart }).1.showQueue q
    else s

/-! ### The head of a queue (R78, R361) -/

/-- The head word may be popped as an operand: in OPERAND mode any word, in EVENT mode the words of an admitted record. -/
def State.headOperand (s : State) (q : Nat) : Option QWord :=
  let x := s.queue q
  let m := s.get (Reg.Q_CFG.MODE q)
  match x.words with
  | w :: _ =>
    if w.start ≤ s.servoNo ∧ w.at' < s.now ∧ (m = 0 ∨ (m = 2 ∧ x.taken ≠ 0)) then some w else none
  | [] => none

/-- The words of the complete record at the head: up to and including its LAST word. -/
def recordAt : List QWord → Option (List QWord)
  | [] => none
  | w :: ws => if w.last then some [w] else (recordAt ws).map (w :: ·)

/-- The complete record at the head of a queue in DESCRIPTOR or EVENT mode that may be used now. -/
def State.headRecord (s : State) (q : Nat) : Option (List QWord) :=
  match recordAt (s.queue q).words with
  | some l => if (l.all fun w => decide (w.start ≤ s.servoNo) && decide (w.at' < s.now)) ∧ (s.queue q).taken = 0 then some l else none
  | none => none

/-- `n` words are popped. -/
def State.popWords (s : State) (q n : Nat) : State :=
  (s.modQueue q fun y => { y with
    words := y.words.drop n, fullAt := if queueDepth ≤ y.words.length then some s.now else y.fullAt }).showQueue q

/-! ### Meanings -/

/-- PS_RDY of queue `q` (R359): 0 where the staged-word register is occupied and the buffer holds a closed word or 31 bytes. -/
def State.psReady (s : State) (q : Nat) : Bool :=
  let x := s.queue q
  !(x.staged.isSome && (x.closed.isSome || x.asm.length == 31))

/-- A byte of a completed write enters the packer; a word that closes moves to the staged-word register (R358). -/
def State.packByte (s : State) (q d : Nat) (eor : Bool) : State :=
  let x := s.queue q
  let l := x.asm ++ [d]
  if l.length = 32 ∨ eor then
    let w : QWord := ⟨padWord l, l.length, eor, 0, 0⟩
    (s.modQueue q fun y =>
      if y.staged.isNone then { y with asm := [], staged := some w } else { y with asm := [], closed := some w }).showQueue q
  else (s.modQueue q fun y => { y with asm := l }).showQueue q

/-- PS_WRITE (R356–R359): an edge of PS_CLK with PS_WE 1 selects queue `q` with byte `d` and PS_EOR, `prev` being the PS_Q sampled at
the edge before. A write to another queue than the one sampled before counts in SEL_ERR whatever PS_RDY shows, one that a full queue
holds counts in STALLS. -/
def execPsWrite (t : Time) (q prev : Fin 16) (d : Byte) (eor : Bool) (s : State) : Out :=
  live t s fun s =>
    if !s.takesInputs then s
    else if prev ≠ q then
      let s1 := s.addSat Reg.PS_STAT.SEL_ERR 1
      let due := match s.psErrAt with
        | some a => decide (a + 1000000000 ≤ s.now)
        | none => true
      if due then { s1.log (Src.queue 0) Ev.PS_SELECT_ERROR (s1.get Reg.PS_STAT.SEL_ERR) q.val with psErrAt := some s.now } else s1
    else if !s.psOpen then s
    else if !s.psReady q.val then s.addSat (Reg.Q_ERR.STALLS q.val) 1
    else if s.qFlushing q.val then s
    else s.packByte q.val d.toNat eor

/-- STAGED_WORD_PUSH (R358): the staged word of queue `q` enters the queue once there is room. -/
def execStagedWordPush (t : Time) (q : Fin 16) (s : State) : Out := live t s fun s => s.pushStaged q.val

/-- The outcome of a host push in HQ_RESULT (R364). -/
def State.hqResult (s : State) (tag status : Nat) : State :=
  (s.set Reg.HQ_RESULT.TAG tag).set Reg.HQ_RESULT.STATUS status

/-- A host word is pushed into a command queue (R364): the request is checked first, then the room, then the record. One that a flush
discards (R365) is reported as pushed (DESIGN CHOICE 34). -/
def State.hqPush (s : State) (q valid : Nat) (last : Bool) (bytes : List Nat) (tag : Nat) : State :=
  if q < 16 ∨ valid = 0 ∨ 32 < valid ∨ (valid < 32 ∧ !last) then s.hqResult tag 2
  else if !s.qRoom q then (s.addSat (Reg.Q_ERR.STALLS q) 1).hqResult tag 1
  else if s.qFlushing q then s.hqResult tag 0
  else
    let w := padWord (bytes.take valid)
    let r := s.qPush q ⟨w, valid, last, s.wordStart, 0⟩
    r.1.hqResult tag (if r.2 then 3 else 0)

/-- The 32 bytes staged in HQ_DATA0–HQ_DATA7. -/
def State.hqData (s : State) : List Nat := (List.range 8).flatMap fun w => leBytes 4 (s.word (Reg.HQ_DATA w))

/-- HQ_PUSH (R364, R366): a write of HQ_PUSH pushes the staged word; only the unit that takes host pushes does so. -/
def State.wHqPush (s : State) (q : Fin 32) (valid : Fin 64) (last : Bool) (tag : BitVec 16) : State :=
  if s.takesInputs then s.hqPush q.val valid.val last s.hqData tag.toNat else s
/-- HQ_PUSH. -/
def execHqPush (t : Time) (q : Fin 32) (valid : Fin 64) (last : Bool) (tag : BitVec 16) (s : State) : Out :=
  byHost t s Reg.HQ_PUSH (65536 * tag.toNat + 32768 * b2n last + 256 * valid.val + q.val) (fun s => s.wHqPush q valid last tag)

/-- Q_FLUSH (R365): in the next queue cycle the queue, its packer and its staged word are emptied and a discard ends. -/
def State.wQFlush (s : State) (q : Fin 32) : State :=
  (s.modQueue q.val fun _ => { (default : QueueSt) with flushAt := some (s.now + 1) }).showQueue q.val
/-- Q_FLUSH. -/
def execQFlush (t : Time) (q : Fin 32) (s : State) : Out :=
  byHost t s (Reg.Q_CTRL q.val) 1 (fun s => s.wQFlush q)

/-- Q_WATERMARK_WRITE (R362): HWM and LWM are replaced and judged, or refused where 1 ≤ LWM < HWM ≤ 511 does not hold. -/
def State.wQWatermarkWrite (s : State) (q : Fin 32) (hwm lwm : Fin 512) : State :=
  if 1 ≤ lwm.val ∧ lwm.val < hwm.val then
    ((s.set (Reg.Q_CFG.HWM q.val) hwm.val).set (Reg.Q_CFG.LWM q.val) lwm.val).showQueue q.val
  else s.flag (Reg.Q_STAT.CFG_REFUSED q.val)
/-- Q_WATERMARK_WRITE. -/
def execQWatermarkWrite (t : Time) (q : Fin 32) (hwm lwm : Fin 512) (s : State) : Out :=
  byHost t s (Reg.Q_CFG q.val) (65536 * hwm.val + lwm.val) (fun s => s.wQWatermarkWrite q hwm lwm)

end Sys2Proof.Machine
end

