-- ==== Sys2Proof/Machine/ChannelB.lean ====
section
/-! DEFINITION. Channel B, the Prondaty die (R266–R280, R287, R288): stop demands and their latches, STO and SS1 of the ring groups,
safety inputs, the ring tap, channel A's reports, the start-up test and commissioning. -/

namespace Sys2Proof.Machine

/-- Every ring group. -/
def allGroups : Nat := 0xFFFF

/-- No input, connection or axis (R299). -/
def noOne : Nat := 0xFFFF

/-- Change channel B. -/
def State.modB (s : State) (f : ChB → ChB) : State := { s with chb := f s.chb }

/-- A record of channel B's, which the controller die writes where it is powered (R10). -/
def State.logB (s : State) (src code d0 d1 : Nat) : State := if s.dev.powered then s.log src code d0 d1 else s

/-- The axes of ring group `k`. -/
def State.groupAxes (s : State) (k : Nat) : List Nat := s.img.axisIds.filter fun a => s.ringOf a == k

/-! ### Demands to the motion side (R268, R306, R308) -/

/-- A stop demand as the motion side takes it: [1, groups] an SS1 of groups, [2, island] an SS1 of an island. -/
def State.takeDemand (s : State) (body : List Nat) : State :=
  let n := leAt body 1 2
  match body.head? with
  | some 1 => forEach (onesBelow 16 n) State.ss1Group s
  | some 2 => s.ss1 n
  | _ => s

/-- A stop demand reaches the motion side: at the next servo boundary; in a pair through the mirror, one servo cycle later, and on the
standby only as a record of kind 7 (R306). -/
def State.motionStop (s : State) (body : List Nat) : State :=
  if !s.inPair then s.takeDemand body
  else if s.takesInputs then { s.mirror 7 body with mirrorHeld := s.mirrorHeld ++ [⟨7, s.servoNo + 2, body⟩] }
  else s

/-! ### Latches, STO and SS1 (R267–R274) -/

/-- STO_LATCH and GRP_STAT.CAUSE show the latched demands. -/
def State.showLatches (s : State) : State :=
  let mask := fun (b : Bool) => (s.chb.demands.filter fun d => d.sto == b).foldl (fun m d => Nat.lor m d.groups) 0
  let s1 := (s.set Reg.STO_LATCH.STO (mask true)).set Reg.STO_LATCH.SS1 (mask false)
  forN 16 (fun s k => s.set (Reg.GRP_STAT.CAUSE k)
    ((s.chb.demands.filter fun d => bitAt d.groups k).foldl (fun _ d => d.cause) 0)) s1

/-- Channel B applies STO to the groups of a mask (R267): STO_APPLIED for those newly off, whose SS1 thereby ends; every axis neither
OFF nor in TORQUE_OFF enters FAULT with cause 7. -/
def State.applySto (s : State) (groups cause : Nat) : State :=
  let new := (onesBelow 16 groups).filter fun k => !s.stoOn k
  if new.isEmpty then s
  else
    let mask := new.foldl (fun m k => m + 2 ^ k) 0
    let s1 := forEach new (fun s k => (s.setWord Reg.STO_STAT (withBit (withBit (s.word Reg.STO_STAT) k true) (16 + k) false)).modB
      fun b => { b with ss1 := tput none b.ss1 k none }) s
    let s2 := s1.logB Src.channelB Ev.STO_APPLIED mask cause
    forEach (new.flatMap s.groupAxes) (fun s a =>
      if s.axState a = axOff ∨ (s.axState a = axDisabling ∧ s.get (Reg.AX_STATE.PHASE a) = phTorqueOff) then s
      else s.axisFault a 7) s2

/-- Channel B starts the SS1 of groups that are not under STO and not under SS1 already (R268, R274). -/
def State.startSs1 (s : State) (groups cause : Nat) : State :=
  let new := (onesBelow 16 groups).filter fun k => !s.stoOn k && (tget none s.chb.ss1 k).isNone
  if new.isEmpty then s
  else
    let s1 := forEach new (fun s k => (s.setWord Reg.STO_STAT (withBit (s.word Reg.STO_STAT) (16 + k) true)).modB
      fun b => { b with ss1 := tput none b.ss1 k (some (s.now, cause)) }) s
    s1.motionStop (1 :: leBytes 2 (new.foldl (fun m k => m + 2 ^ k) 0))

/-- The channel that detects a cause (R271). -/
def demandSource (cause : Nat) : Nat := if 4 ≤ cause ∧ cause ≤ 10 then Src.channelA else Src.channelB

/-- A stop demand arises (R271): it is latched for the groups for which the same demand is not latched yet, logged, and acts at once;
STO wins over SS1 (R274). -/
def State.demand (s : State) (cause : Nat) (sto : Bool) (groups who : Nat) : State :=
  let same := fun (d : Demand) => d.cause == cause && d.sto == sto && d.who == who
  let new := (onesBelow 16 groups).filter fun k => !s.chb.demands.any fun d => same d && bitAt d.groups k
  if new.isEmpty then s
  else
    let mask := new.foldl (fun m k => m + 2 ^ k) 0
    let s1 := (s.modB fun b => { b with demands := b.demands ++ [⟨cause, sto, mask, who⟩] }).showLatches
    let s2 := s1.logB (demandSource cause) Ev.SAFETY_STOP (cause + 256 * b2n sto + 65536 * who) mask
    if sto then s2.applySto mask cause else s2.startSs1 mask cause

/-- Channel B's self-supervision has failed (R271, cause 17): STO of every group until VDD_SAFE is cycled. -/
def State.selfFail (s : State) : State :=
  ((s.modB fun b => { b with faulted := true }).set Reg.SAFE_STAT.B_STATE 2).demand 17 true allGroups noOne

/-- Channel B may release STO of group `k` (R272, R266). -/
def State.mayRelease (s : State) (k : Nat) : Bool :=
  s.stoOn k && !s.chb.demands.any (fun d => bitAt d.groups k) && s.chb.valid && s.chb.ready && !s.chb.faulted &&
  s.on Reg.SAFE_STAT.SIG_AGREED && s.on (Reg.RING_CFG.EN k) &&
  match s.chb.report with
  | some r => r.state == devReduced || r.state == devAutomatic
  | none => false

/-- Channel B releases the groups it may release (R272). A release enables no axis. -/
def State.releaseSto (s : State) : State :=
  let new := (List.range 16).filter s.mayRelease
  if new.isEmpty then s
  else
    (forEach new (fun s k => s.setWord Reg.STO_STAT (withBit (s.word Reg.STO_STAT) k false)) s).logB Src.channelB Ev.STO_RELEASED
      (new.foldl (fun m k => m + 2 ^ k) 0) 0

/-! ### Resets (R273, R274) -/

/-- Input `i` is evaluated as a stop input in the present device state (R275). -/
def State.stopInput (s : State) (i : Nat) : Bool :=
  s.get (Reg.IN_CFG.FUNC i) == 1 ||
  (s.get (Reg.IN_CFG.FUNC i) == 2 && (!s.on (Reg.IN_CFG.AUTO_ONLY i) || s.devState == devAutomatic))

/-- The groups of a latched demand for which its cause is present (R271, R274, R285). The causes 11 to 13 are instants. -/
def State.presentFor (s : State) (d : Demand) : Nat :=
  let all := fun (b : Bool) => if b then d.groups else 0
  match d.cause with
  | 1 | 2 => all (s.stopInput d.who && !(s.on (Reg.IN_STAT.LANE_A d.who) && s.on (Reg.IN_STAT.LANE_B d.who)))
  | 3 => all (s.on (Reg.IN_STAT.FAULT d.who))
  | 4 => match (tget default s.conns d.who).permits with
    | some p => (onesBelow 16 d.groups).foldl (fun m k => if bitAt (if d.sto then p.1 else p.2) k then m else m + 2 ^ k) 0
    | none => d.groups
  | 5 => all (s.get (Reg.CONN_STAT.STATE d.who) ≠ 1)
  | 10 => Nat.land d.groups s.cha.stoGroups
  | 14 => all (decide (64 ≤ (tget default s.chb.taps d.who).missed))
  | 15 => all (!s.chb.valid)
  | 16 => all (s.get Reg.SAFE_STAT.A_STATE = 3)
  | 17 => all s.chb.faulted
  | 18 => all (s.on Reg.SAFE_STAT.OVERTEMP)
  | 19 => match s.chb.report with
    | some r => all (!(r.state == devReduced || r.state == devAutomatic))
    | none => d.groups
  | _ => 0

/-- A reset is taken (R273): every latch whose cause is not present clears, of groups and of islands; SAFETY_RESET; then channel B
releases what it may. -/
def State.takeReset (s : State) (src who : Nat) : State :=
  let kept := (s.chb.demands.map fun d => { d with groups := s.presentFor d }).filter fun d => d.groups ≠ 0
  let held := fun (l : List Demand) (k : Nat) => l.any fun d => bitAt d.groups k
  let gone := (List.range 16).filter fun k => held s.chb.demands k && !held kept k
  let s1 := (s.modB fun b => { b with demands := kept }).showLatches
  let s2 := forEach s.img.islandIds (fun s i =>
    if s.on (Reg.ISA_STAT.LATCHED i) && !s.cha.found.contains (i, s.get (Reg.ISA_STAT.CAUSE i)) then
      (((s.set (Reg.ISA_STAT.LATCHED i) 0).set (Reg.ISA_STAT.CAUSE i) 0).set (Reg.ISA_STAT.SUPERVISING i) 0).set
        (Reg.ISA_STAT.STANDSTILL_REQ i) 0
    else s) s1
  (s2.logB src Ev.SAFETY_RESET who (gone.foldl (fun m k => m + 2 ^ k) 0)).releaseSto

/-! ### Safety inputs (R275, R276, R287, R288) -/

/-- Input pair `i` beyond IN_STAT. -/
def State.input (s : State) (i : Nat) : InputSt := tget default s.chb.inputs i
/-- Change input pair `i`. -/
def State.modInput (s : State) (i : Nat) (f : InputSt → InputSt) : State :=
  s.modB fun b => { b with inputs := tput default b.inputs i (f (s.input i)) }

/-- The stop of input `i` (R271, R275): cause 3 where it is faulted, else 1 or 2 by its function. -/
def State.inputStop (s : State) (i : Nat) : State :=
  if s.stopInput i then
    let f := s.get (Reg.IN_CFG.FUNC i)
    s.demand (if s.on (Reg.IN_STAT.FAULT i) then 3 else f) (!s.on (Reg.IN_CFG.STOP i))
      (if f = 1 then allGroups else s.get (Reg.IN_CFG.GROUPS i)) i
  else s

/-- COMMISSION_CONFIRMED and CONFIRMED show whether the agreed signature equals the confirmed one (R288). -/
def State.showConfirmed (s : State) : State :=
  let c := s.on Reg.SAFE_STAT.SIG_AGREED && s.word64 Reg.SAFE_SIG_LO == s.chb.confirmed
  ((s.setB Reg.SAFE_STAT.CONFIRMED c).setB Reg.DEV_STATE.COMMISSION_CONFIRMED c).setWord64 Reg.SAFE_CONF_LO s.chb.confirmed

/-- Channel B confirms the present signature (R288). -/
def State.confirm (s : State) : State :=
  let sig := s.word64 Reg.SAFE_SIG_LO
  ((s.modB fun b => { b with confirmed := sig }).showConfirmed).logB Src.channelB Ev.SAFETY_CONFIRMED (sig % 2 ^ 32) (sig / 2 ^ 32)

/-- The start-up test is done once every input of FUNC 1 or 2 shows both SEEN bits (R287). -/
def State.startupCheck (s : State) : State :=
  let l := (List.range 8).filter fun i => s.get (Reg.IN_CFG.FUNC i) == 1 || s.get (Reg.IN_CFG.FUNC i) == 2
  if s.on Reg.DEV_STATE.STARTUP_TEST_DONE then s
  else if s.on Reg.SAFE_STAT.SIG_AGREED && l.all fun i => s.on (Reg.IN_STAT.SEEN_OPEN i) && s.on (Reg.IN_STAT.SEEN_CLOSED i) then
    ((s.set Reg.DEV_STATE.STARTUP_TEST_DONE 1).set Reg.SAFE_STAT.STARTUP_DONE 1).logB Src.channelB Ev.STARTUP_TEST_DONE 0 0
  else s

/-- What the opening of input `i` does after it was closed for `held` ns (R273, R275, R288). -/
def State.inputOpened (s : State) (i held : Nat) : State :=
  let f := s.get (Reg.IN_CFG.FUNC i)
  if f = 1 ∨ f = 2 then s.inputStop i
  else if s.on (Reg.IN_STAT.FAULT i) then s
  else if f = 3 ∧ 100000000 ≤ held ∧ held ≤ 5000000000 then s.takeReset Src.channelB i
  else if f = 4 ∧ 2000000000 ≤ held ∧ held ≤ 10000000000 ∧ s.devState = devReduced ∧ s.on Reg.SAFE_STAT.SIG_AGREED ∧
      !s.on Reg.DEV_STATE.COMMISSION_CONFIRMED then s.confirm
  else s

/-- SEEN_OPEN, then SEEN_CLOSED, of a stop input (R287). -/
def State.noteSeen (s : State) (i : Nat) (a b : Bool) : State :=
  if s.get (Reg.IN_CFG.FUNC i) = 1 ∨ s.get (Reg.IN_CFG.FUNC i) = 2 then
    if !a && !b then s.set (Reg.IN_STAT.SEEN_OPEN i) 1
    else if a && b && s.on (Reg.IN_STAT.SEEN_OPEN i) then s.set (Reg.IN_STAT.SEEN_CLOSED i) 1
    else s
  else s

/-- A fault clears once both lanes have been accepted low together and then high together (R275). -/
def State.inputHeals (s : State) (i : Nat) (a b : Bool) : State :=
  if !s.on (Reg.IN_STAT.FAULT i) then s
  else if !a && !b then s.modInput i fun x => { x with lowSeen := true }
  else if a && b && (s.input i).lowSeen then (s.set (Reg.IN_STAT.FAULT i) 0).set (Reg.IN_STAT.FCAUSE i) 0
  else s

/-- Input `i` becomes closed or open by its lanes and its fault (R275). -/
def State.inputLevel (s : State) (i : Nat) (a b : Bool) : State :=
  let closed := a && b && !s.on (Reg.IN_STAT.FAULT i)
  let was := s.on (Reg.IN_STAT.CLOSED i)
  if closed && !was then (s.set (Reg.IN_STAT.CLOSED i) 1).modInput i fun x => { x with closedAt := some s.now }
  else if !closed && was then
    let held := s.now - ((s.input i).closedAt.getD s.now)
    let s1 := ((s.set (Reg.IN_STAT.CLOSED i) 0).addMod (Reg.IN_STAT.OPENINGS i) 1).modInput i fun x => { x with closedAt := none }
    s1.inputOpened i held
  else s

/-- An input fault (R275, R276): the input counts as opened. -/
def State.inputFault (s : State) (i cause : Nat) : State :=
  if s.on (Reg.IN_STAT.FAULT i) then s
  else
    let s1 := ((s.set (Reg.IN_STAT.FAULT i) 1).set (Reg.IN_STAT.FCAUSE i) cause).modInput i fun x => { x with lowSeen := false }
    let s2 := s1.logB Src.channelB Ev.INPUT_FAULT i cause
    if s2.on (Reg.IN_STAT.CLOSED i) then s2.inputLevel i false false else s2.inputStop i

/-- SAFETY_INPUT_CHANGE (R275): a new level of lane A or lane B of input `i` is accepted. -/
def execSafetyInputChange (t : Time) (i : Fin 8) (laneB level : Bool) (s : State) : Out :=
  liveB t s fun s =>
    let i := i.val
    let s1 := if laneB then s.setB (Reg.IN_STAT.LANE_B i) level else s.setB (Reg.IN_STAT.LANE_A i) level
    let a := s1.on (Reg.IN_STAT.LANE_A i)
    let b := s1.on (Reg.IN_STAT.LANE_B i)
    if s1.get (Reg.IN_CFG.FUNC i) = 0 then s1
    else
      let s2 := s1.modInput i fun x => { x with splitAt := if a = b then none else some (x.splitAt.getD s.now) }
      (((s2.inputHeals i a b).noteSeen i a b).inputLevel i a b).startupCheck

/-- INPUT_DISCREPANCY (R275): the lanes have disagreed for longer than DISC_T. -/
def execInputDiscrepancy (t : Time) (i : Fin 8) (s : State) : Out :=
  liveB t s fun s =>
    match (s.input i.val).splitAt with
    | some t0 =>
      if s.get (Reg.IN_CFG.FUNC i.val) ≠ 0 ∧ t0 + s.get (Reg.IN_TIME.DISC_T i.val) * 1000000 < s.now then s.inputFault i.val 1 else s
    | none => s

/-- TEST_PULSE (R276): at the last sample of a pulse of lane A or B the pulsed lane must read low, the other lane must not. -/
def execTestPulse (t : Time) (i : Fin 8) (laneB ownLow otherLow : Bool) (s : State) : Out :=
  liveB t s fun s =>
    let i := i.val
    if s.get (Reg.IN_CFG.FUNC i) = 0 ∨ !s.on (Reg.IN_CFG.TP_EN i) then s
    else
      let bad := !ownLow || otherLow
      let n := if bad then (if laneB then (s.input i).failB else (s.input i).failA) + 1 else 0
      let s1 := s.modInput i fun x => if laneB then { x with failB := n } else { x with failA := n }
      if 2 ≤ n then s1.inputFault i (if otherLow then 4 else if laneB then 3 else 2) else s1

/-- Every stop input that is open gives its stop: at a LOAD, whose SAFE section brings its function, and on entering AUTOMATIC (R275). -/
def State.openInputs (s : State) : State :=
  forN 8 (fun s i => if s.on (Reg.IN_STAT.CLOSED i) then s else s.inputStop i) s

/-! ### The ring tap (R278) -/

/-- The tap of axis `a`. -/
def State.tap (s : State) (a : Nat) : TapSt := tget default s.chb.taps a
/-- Change the tap of axis `a`. -/
def State.modTap (s : State) (a : Nat) (f : TapSt → TapSt) : State :=
  s.modB fun b => { b with taps := tput default b.taps a (f (s.tap a)) }

/-- Axis `a` has moved by more than SSTILL_CNT since the first report of its group as all OFF. -/
def State.movedOff (s : State) (a : Nat) : Bool :=
  match (s.tap a).ref with
  | some r => decide (s.get (Reg.AXB_CFG.SSTILL_CNT a) < ((s.tap a).pos - r).natAbs)
  | none => false

/-- The standstill checks of an axis (R278): cause 13 with STO released, STANDSTILL_LOST once with STO applied. -/
def State.standstill (s : State) (a : Nat) : State :=
  if s.movedOff a then
    let k := s.ringOf a
    if !s.stoOn k then s.demand 13 true (2 ^ k) a
    else if (s.tap a).lost then s
    else
      (s.modTap a fun x => { x with lost := true }).logB Src.channelB Ev.STANDSTILL_LOST a
        (satU 32 ((s.tap a).pos - (s.tap a).ref.getD 0).natAbs)
  else s

/-- The tap passes a response of axis `a` with raw position `raw` (R278). -/
def State.tapValue (s : State) (a raw : Nat) : State :=
  let x := s.tap a
  let n := s.img.sbits.getD a 32
  match x.raw with
  | none => ((s.modTap a fun x => { x with raw := some raw, missed := 0 }).set (Reg.AXB_STAT.TAP_MISS a) 0)
  | some r =>
    let d := wrapS n ((raw : Int) - r)
    let m := x.missed
    let still := decide (d.natAbs ≤ s.get (Reg.AXB_CFG.SSTILL_CNT a))
    let s1 := s.modTap a fun x => { x with raw := some raw, missed := 0, pos := x.pos + d, quiet := if still then min 16 (x.quiet + 1) else 0 }
    let s2 := (s1.set (Reg.AXB_STAT.TAP_MISS a) 0).set (Reg.AXB_STAT.DELTA a) (satU 24 d.natAbs)
    let s3 := if s.get (Reg.AXB_CFG.OVS_CNT a) * (m + 1) < d.natAbs then s2.demand 12 true (2 ^ s.ringOf a) a else s2
    s3.standstill a

/-- No tap value of axis `a` in a ring cycle: never motion (R278). -/
def State.tapMiss (s : State) (a : Nat) : State :=
  (s.modTap a fun x => { x with missed := x.missed + 1, quiet := min 16 (x.quiet + 1) }).addSat (Reg.AXB_STAT.TAP_MISS a) 1

/-- Channel A's last valid report gives axis `a` as not OFF. -/
def State.reportedOn (s : State) (a : Nat) : Bool :=
  match s.chb.report with
  | some r => r.notFree.contains a
  | none => false

/-- TAP_LOST (R278): no tap value for 64 ring cycles for an axis that channel A reports not OFF. -/
def execTapLost (t : Time) (a : Fin 256) (s : State) : Out :=
  liveB t s fun s => if 64 ≤ (s.tap a.val).missed ∧ s.reportedOn a.val then s.demand 14 true (2 ^ s.ringOf a.val) a.val else s

/-! ### Reports (R269, R279) -/

/-- 1.1 ms. -/
def reportLimit : Nat := 1100000

/-- A missing report: CROSS_CHECK_FAIL 1, cause 15 (R279). -/
def State.reportMissing (s : State) : State :=
  let s1 := (s.modB fun b => { b with valid := false, failures := b.failures + 1, arrivedAt := some s.now, lastCount := none })
    |>.addSat Reg.CHB_STAT.REPORT_MISS 1
  (s1.logB Src.channelB Ev.CROSS_CHECK_FAIL 1 s1.chb.failures).demand 15 false allGroups noOne

/-- A mismatched report: two in a row give cause 15 (R279). -/
def State.reportMismatch (s : State) (code : Nat) : State :=
  let s1 := (s.modB fun b => { b with valid := false, failures := b.failures + 1, mismatches := b.mismatches + 1, arrivedAt := some s.now })
    |>.addSat Reg.CHB_STAT.XCHK_MISMATCH 1
  let s2 := s1.logB Src.channelB Ev.CROSS_CHECK_FAIL code s1.chb.failures
  if 2 ≤ s2.chb.mismatches then s2.demand 15 false allGroups noOne else s2

/-- Report `r` gives every axis of group `k` as OFF. -/
def State.groupOff (s : State) (r : Report) (k : Nat) : Bool := (s.groupAxes k).all fun a => !r.notFree.contains a

/-- A report that passes every check is valid (R279): it sets the standstill references of its groups, completes an SS1 whose axes are
torque-free and still (R269), gives cause 19 by its device state, and lets channel B release. -/
def State.reportValid (s : State) (r : Report) : State :=
  let s1 := s.modB fun b => { b with valid := true, failures := 0, mismatches := 0, arrivedAt := some s.now, report := some r }
  let s2 := forEach s.img.axisIds (fun s a => s.modTap a fun x =>
    if s.groupOff r (s.ringOf a) then { x with ref := some (x.ref.getD x.pos) } else { x with ref := none, lost := false }) s1
  let s3 := forN 16 (fun s k =>
    match tget none s.chb.ss1 k with
    | some (_, cause) =>
      if s.groupOff r k && (s.groupAxes k).all fun a => decide (16 ≤ (s.tap a).quiet) then s.applySto (2 ^ k) cause else s
    | none => s) s2
  let s4 := if r.state = devReduced ∨ r.state = devAutomatic then s3 else s3.demand 19 (decide (r.state ≠ devStopping)) allGroups noOne
  s4.releaseSto

/-- CHANNEL_A_REPORT (R279): the report on its way arrives; `crcOk`, `sigOk`, `inputsOk`, `stateOk` tell whether its CRC, signature,
input states and device state agree with channel B's own. -/
def execChannelAReport (t : Time) (crcOk sigOk inputsOk stateOk : Bool) (s : State) : Out :=
  live t s fun s =>
    match s.cha.report with
    | none => s
    | some r =>
      let late := match s.chb.arrivedAt with
        | some t0 => decide (t0 + reportLimit < s.now)
        | none => false
      let next := match s.chb.lastCount with
        | some n => decide (r.count = (n + 1) % 65536)
        | none => true
      let s0 := { s with cha := { s.cha with report := none } }
      let s1 := s0.modB fun b => { b with lastCount := some r.count }
      if !s0.chb.ready then s0
      else if !crcOk || !next || late then s0.reportMissing
      else if !sigOk then s1.reportMismatch 2
      else if !inputsOk then s1.reportMismatch 3
      else if s1.img.axisIds.any fun a => s1.movedOff a && !s1.stoOn (s1.ringOf a) && s1.groupOff r (s1.ringOf a) then s1.reportMismatch 4
      else if !stateOk then s1.reportMismatch 5
      else s1.reportValid r

/-- REPORT_MISSING (R279): 1.1 ms have passed without a report. -/
def execReportMissing (t : Time) (s : State) : Out :=
  liveB t s fun s =>
    match s.chb.arrivedAt with
    | some t0 => if t0 + reportLimit ≤ s.now then s.reportMissing else s
    | none => s

/-- SS1_TIMEOUT (R269): SS1_T of group `k` has elapsed on channel B's clock. -/
def execSs1Timeout (t : Time) (k : Fin 16) (s : State) : Out :=
  liveB t s fun s =>
    match tget none s.chb.ss1 k.val with
    | some (t0, _) => if t0 + s.get (Reg.GRP_CFG.SS1_T k.val) * 1000000 ≤ s.now then s.demand 11 true (2 ^ k.val) noOne else s
    | none => s

/-! ### Self-supervision and temperature (R280, R428) -/

/-- STO_READBACK_FAULT (R280): an STO output has been away from its commanded level for more than 2 µs. -/
def execStoReadbackFault (t : Time) (_k : Fin 16) (_laneB : Bool) (s : State) : Out := liveB t s fun s => s.selfFail

/-- STO_TEST_PULSE (R280): a low pulse of an STO output at its on level, with the readback's outcome. -/
def execStoTestPulse (t : Time) (k : Fin 16) (_laneB ok : Bool) (s : State) : Out :=
  liveB t s fun s => if !s.stoOn k.val && !ok then s.selfFail else s

/-- CLOCK_DISAGREEMENT (R280): the crystal and the cycle-start period differ by more than 1 %. -/
def execClockDisagreement (t : Time) (s : State) : Out := liveB t s fun s => s.selfFail

/-- TEMPERATURE_TRIP (R271, R428): the Prondaty diode reads `tj` (1/64 °C); at 125 °C or more cause 18. -/
def execTemperatureTrip (t : Time) (tj : BitVec 16) (s : State) : Out :=
  liveB t s fun s =>
    let s1 := s.set Reg.CHB_STAT.TJ tj.toNat
    if 8000 ≤ sx 16 tj.toNat then (s1.set Reg.SAFE_STAT.OVERTEMP 1).demand 18 true allGroups noOne else s1

/-- TEMPERATURE_TRIP_CLEAR (R271): the reading is below 110 °C. -/
def execTemperatureTripClear (t : Time) (tj : BitVec 16) (s : State) : Out :=
  liveB t s fun s =>
    let s1 := s.set Reg.CHB_STAT.TJ tj.toNat
    if sx 16 tj.toNat < 7040 then s1.set Reg.SAFE_STAT.OVERTEMP 0 else s1

/-- VDD_SAFE_LOSS (R10, R280): every STO output is off; channel B is not ready and has lost its latches. -/
def execVddSafeLoss (t : Time) (s : State) : Out :=
  liveB t s fun s =>
    let s1 := s.applySto allGroups 0
    ((s1.modB fun b => { ChB.init with confirmed := b.confirmed, lastSig := b.lastSig }).set Reg.SAFE_STAT.B_STATE 0).showLatches

/-! ### Start, LOAD and device states (R10, R265, R271, R287) -/

/-- POWER_UP (R271, R287): a demand of cause 19 on every group, SEEN cleared, no report yet. The lanes and latches stay. -/
def State.chbPowerUp (s : State) : State :=
  let s1 := s.modB fun b => { b with
    ss1 := [], taps := [], report := none, valid := false, arrivedAt := none, lastCount := none, mismatches := 0, failures := 0
    inputs := b.inputs.map fun e => (e.1, { e.2 with closedAt := e.2.closedAt.map fun _ => 0, splitAt := e.2.splitAt.map fun _ => 0 })
    demands := if b.demands.contains ⟨19, true, allGroups, noOne⟩ then b.demands else b.demands ++ [⟨19, true, allGroups, noOne⟩] }
  let s2 := ((s1.set Reg.STO_STAT.STO allGroups).set Reg.STO_STAT.SS1_RUN 0).showLatches
  let s3 := forN 8 (fun s i => (s.set (Reg.IN_STAT.SEEN_OPEN i) 0).set (Reg.IN_STAT.SEEN_CLOSED i) 0) s2
  (s3.set Reg.DEV_STATE.STARTUP_TEST_DONE 0).set Reg.SAFE_STAT.STARTUP_DONE 0

/-- A device state in which channel A does not report: STO with cause 19 (R19, R271). -/
def State.chbHold (s : State) : State :=
  (s.modB fun b => { b with arrivedAt := none, lastCount := none, valid := false }).demand 19 true allGroups noOne

/-- LOAD gives channel B its copy of the SAFE section (R265, R287, R300): SEEN clears where the signature differs from the previous
LOAD's; counters and taps restart; open stop inputs give their stop. -/
def State.chbLoad (s : State) (agreed : Bool) (sig : Nat) : State :=
  let s1 := (((s.setB Reg.SAFE_STAT.SIG_AGREED agreed).setWord64 Reg.SAFE_SIG_LO (if agreed then sig else 0)).set Reg.CHB_STAT.REPORT_MISS 0)
    |>.set Reg.CHB_STAT.XCHK_MISMATCH 0
  let s2 := if agreed ∧ s.chb.lastSig ≠ some sig then
      ((forN 8 (fun s i => (s.set (Reg.IN_STAT.SEEN_OPEN i) 0).set (Reg.IN_STAT.SEEN_CLOSED i) 0) s1).set Reg.DEV_STATE.STARTUP_TEST_DONE 0).set
        Reg.SAFE_STAT.STARTUP_DONE 0
    else s1
  let s3 := s2.modB fun b => { b with taps := [], lastSig := if agreed then some sig else b.lastSig, report := none, valid := false, arrivedAt := none
                                      lastCount := none, mismatches := 0, failures := 0 }
  let s4 := if agreed ∧ !s3.chb.faulted ∧ s3.chb.ready then s3.set Reg.SAFE_STAT.B_STATE 1 else s3
  (s4.showConfirmed.openInputs).startupCheck

end Sys2Proof.Machine
end

