-- ==== Sys2Proof/Machine/Geometry.lean ====
section
/-! DEFINITION. The geometry of links, capsules, spheres and boxes (R228, R229, R237, R282): transforms, link poses by the
product of exponentials, and least distances, on exact rational numbers. A number that binary32 does not hold goes through
Config.roundF32. -/

namespace Sys2Proof.Machine

/-- A value as binary32 holds it. -/
def rnd (v : Rat) : Rat := f32 (toF32 v)

/-- The exponent of the leading digit of a positive rational number: 2^e ≤ v < 2^(e+1). -/
def lead2 (v : Rat) : Int :=
  let e : Int := (v.num.natAbs.log2 : Int) - (v.den.log2 : Int)
  if v < pow2 e then e - 1 else if pow2 (e + 1) ≤ v then e + 1 else e

/-- The greatest binary32 number not above `v` (R237: rounded toward −∞). -/
def downF32 (v : Rat) : Rat :=
  if v = 0 then 0
  else
    let q := pow2 (max (lead2 (rabs v) - 23) (-149))
    (v / q).floor * q

namespace V3

/-- The sum. -/
def add (p q : V3) : V3 := ⟨p.x + q.x, p.y + q.y, p.z + q.z⟩
/-- The difference. -/
def sub (p q : V3) : V3 := ⟨p.x - q.x, p.y - q.y, p.z - q.z⟩
/-- A multiple. -/
def scale (k : Rat) (p : V3) : V3 := ⟨k * p.x, k * p.y, k * p.z⟩
/-- The scalar product. -/
def dot (p q : V3) : Rat := p.x * q.x + p.y * q.y + p.z * q.z
/-- The vector product. -/
def cross (p q : V3) : V3 := ⟨p.y * q.z - p.z * q.y, p.z * q.x - p.x * q.z, p.x * q.y - p.y * q.x⟩
/-- The squared length. -/
def norm2 (p : V3) : Rat := p.dot p
/-- The length. -/
def norm (p : V3) : Rat := rsqrt p.norm2

end V3

/-- Three binary32 words as a point. -/
def v3Of (l : List Nat) (o : Nat) : V3 := ⟨f32 (l.getD o 0), f32 (l.getD (o + 1) 0), f32 (l.getD (o + 2) 0)⟩

/-- A transform: a rotation by its columns and a displacement in mm. -/
structure Frame where
  ex : V3
  ey : V3
  ez : V3
  o : V3
  deriving DecidableEq, Repr, Inhabited

/-- The identity. -/
def Frame.one : Frame := ⟨⟨1, 0, 0⟩, ⟨0, 1, 0⟩, ⟨0, 0, 1⟩, ⟨0, 0, 0⟩⟩

/-- A direction turned by a frame. -/
def Frame.turn (f : Frame) (p : V3) : V3 := ((f.ex.scale p.x).add (f.ey.scale p.y)).add (f.ez.scale p.z)
/-- A point placed by a frame. -/
def Frame.place (f : Frame) (p : V3) : V3 := f.o.add (f.turn p)

/-- A vector as binary32 holds it. -/
def V3.rnd (p : V3) : V3 := ⟨Machine.rnd p.x, Machine.rnd p.y, Machine.rnd p.z⟩

/-- The product of two transforms in binary32 (R229). -/
def Frame.mul (f g : Frame) : Frame := ⟨(f.turn g.ex).rnd, (f.turn g.ey).rnd, (f.turn g.ez).rnd, (f.place g.o).rnd⟩

/-- Twelve binary32 words, the first three rows of a 4 × 4 matrix row by row (R375). -/
def frameOf (l : List Nat) : Frame :=
  let m := fun i => f32 (l.getD i 0)
  ⟨⟨m 0, m 4, m 8⟩, ⟨m 1, m 5, m 9⟩, ⟨m 2, m 6, m 10⟩, ⟨m 3, m 7, m 11⟩⟩

/-- A vector turned about a unit axis `w` by an angle: Rodrigues' formula with the sine `s` and 1 − cosine `c`. -/
def rotate (w : V3) (s c : Rat) (p : V3) : V3 :=
  (p.add ((w.cross p).scale s)).add ((w.cross (w.cross p)).scale c)

/-- exp([S]·θ) of a unit screw (R229): ω x, y, z and v x, y, z. A joint value in m displaces by 1 000 mm per m. -/
def screwExp (screw : List Nat) (th : Rat) : Frame :=
  let w := v3Of screw 0
  let v := v3Of screw 3
  if w = ⟨0, 0, 0⟩ then { Frame.one with o := (v.scale (1000 * th)).rnd }
  else
    let s := Config.sinR th
    let c := 1 - Config.cosR th
    let r := fun p => (rotate w s c p).rnd
    { ex := r ⟨1, 0, 0⟩, ey := r ⟨0, 1, 0⟩, ez := r ⟨0, 0, 1⟩
      o := (((v.scale th).add ((w.cross v).scale c)).add ((w.cross (w.cross v)).scale (th - s))).rnd }

/-- The joint value of a link (R229) at axis position `p` in counts; 0 without a joint. -/
def LinkDecl.theta (d : LinkDecl) (p : Nat → Rat) : Rat :=
  if d.axis = 0xFFFF then 0 else rnd ((p d.axis - (d.zero : Rat)) * f32 d.scale)

/-- The pose of a link of island `i`, or of the island's base (`l` none), by R229, down to a depth `n`; `p` gives the axis positions
in counts. A link the tree does not declare stands at its base's frame. -/
def poseOf (links : List LinkDecl) (bases : List BaseDecl) (p : Nat → Rat) : Nat → Nat → Option Nat → Frame
  | 0, _, _ => Frame.one
  | n + 1, i, none =>
    match bases.find? fun b => b.island == i with
    | some b =>
      if b.parent = 0xFFFF then frameOf b.t
      else (poseOf links bases p n b.parent (some b.mount)).mul (frameOf b.t)
    | none => Frame.one
  | n + 1, i, some l =>
    match links.find? fun d => d.island == i && d.link == l with
    | some d =>
      let par := poseOf links bases p n i (if d.parent = 0xFF then none else some d.parent)
      (par.mul (frameOf d.m)).mul (screwExp d.screw (d.theta p))
    | none => Frame.one

/-- A depth that the trees cannot exceed. -/
def poseDepth (links : List LinkDecl) (bases : List BaseDecl) : Nat := links.length + 2 * bases.length + 2

/-- The pose of link `l` of island `i`. -/
def linkPose (links : List LinkDecl) (bases : List BaseDecl) (p : Nat → Rat) (i l : Nat) : Frame :=
  poseOf links bases p (poseDepth links bases) i (some l)

/-! ### Volumes and distances (R228, R237) -/

/-- An oriented box: centre, half-extents, quaternion w and (x, y, z). -/
structure OBox where
  c : V3
  h : V3
  w : Rat
  q : V3
  deriving DecidableEq, Repr, Inhabited

/-- `t` held to 0 … 1. -/
def clamp01 (t : Rat) : Rat := if t < 0 then 0 else if 1 < t then 1 else t

/-- The squared distance of point `p` to the segment from `a` to `b`. -/
def pointSeg2 (p a b : V3) : Rat :=
  let d := b.sub a
  let t := if d.norm2 = 0 then 0 else clamp01 ((p.sub a).dot d / d.norm2)
  ((a.add (d.scale t)).sub p).norm2

/-- The squared least distance between two segments: at an end of one of them, or where both lines come closest, if that point lies
inside both. -/
def segSeg2 (a0 a1 b0 b1 : V3) : Rat :=
  let u := a1.sub a0
  let v := b1.sub b0
  let r := a0.sub b0
  let edge := min (min (pointSeg2 a0 b0 b1) (pointSeg2 a1 b0 b1)) (min (pointSeg2 b0 a0 a1) (pointSeg2 b1 a0 a1))
  let den := u.norm2 * v.norm2 - u.dot v * u.dot v
  if den = 0 then edge
  else
    let s := (u.dot v * v.dot r - v.norm2 * u.dot r) / den
    let t := (u.norm2 * v.dot r - u.dot v * u.dot r) / den
    if 0 ≤ s ∧ s ≤ 1 ∧ 0 ≤ t ∧ t ≤ 1 then min edge ((r.add (u.scale s)).sub (v.scale t)).norm2 else edge

/-- How far a coordinate lies outside an extent. -/
def outside (p h : Rat) : Rat := if h < p then p - h else if p < -h then p + h else 0

/-- The vector from the box of half-extents `h` at the origin to point `p`. -/
def outsideV (p h : V3) : V3 := ⟨outside p.x h.x, outside p.y h.y, outside p.z h.z⟩

/-- A vector in the frame of a box: turned back by its quaternion. -/
def OBox.into (o : OBox) (p : V3) : V3 :=
  let u := V3.scale (-1) o.q
  let t := V3.scale 2 (u.cross p)
  (p.add (t.scale o.w)).add (u.cross t)

/-- The squared least distance of a segment to the box of half-extents `h` at the origin. The squared distance along the segment is
convex and quadratic between the parameters where a coordinate passes a face: the least lies at one of those, or where a piece has
its lowest point. -/
def segBox2 (p0 p1 h : V3) : Rat :=
  let d := p1.sub p0
  let pt := fun t => p0.add (d.scale t)
  let face := fun (p d h : Rat) => if d = 0 then [] else [clamp01 ((h - p) / d), clamp01 ((-h - p) / d)]
  let ts := [0, 1] ++ face p0.x d.x h.x ++ face p0.y d.y h.y ++ face p0.z d.z h.z
  let dist := fun t => (outsideV (pt t) h).norm2
  let low := ts.flatMap fun t1 => ts.filterMap fun t2 =>
    if t1 < t2 then
      let m := outsideV (pt ((t1 + t2) / 2)) h
      let on := fun (o d : Rat) => if o = 0 then 0 else d
      let k : V3 := ⟨on m.x d.x, on m.y d.y, on m.z d.z⟩
      if k.norm2 = 0 then none else some (clamp01 ((t1 + t2) / 2 - m.dot k / k.norm2))
    else none
  (ts ++ low).foldl (fun m t => min m (dist t)) (dist 0)

/-- Capsule to capsule in mm, before the subtraction is rounded down (R237). -/
def capCap (p q : Capsule) : Rat := rsqrt (segSeg2 p.a p.b q.a q.b) - p.r - q.r

/-- Capsule to box in mm. -/
def capBox (p : Capsule) (o : OBox) : Rat :=
  rsqrt (segBox2 (o.into (p.a.sub o.c)) (o.into (p.b.sub o.c)) o.h) - p.r

/-- The least of a list of distances, none for the empty list. -/
def leastDist : List Rat → Option Rat
  | [] => none
  | d :: ds => match leastDist ds with
    | some e => some (min d e)
    | none => some d

/-- The least of a list of distances as the pipelines give it (R237): binary32, rounded toward −∞. -/
def leastMm (l : List Rat) : Option Rat := (leastDist l).map downF32

/-- A distance as its register shows it: rounded toward −∞; +∞ for none (R236, R237). -/
def distWord : Option Rat → Nat
  | some d => toF32 (downF32 d)
  | none => f32Inf

end Sys2Proof.Machine
end

