-- ==== Sys2Proof/Machine/Store.lean ====
section
/-! DEFINITION. The matching store (R76–R84): entries, operand slots, the queries that other blocks make of it. -/

namespace Sys2Proof.Machine

/-- Entry `e` of the matching store. -/
def State.item? (s : State) (e : Nat) : Option Item := tget none s.items e
/-- Set entry `e`; `none` frees it. -/
def State.putItem (s : State) (e : Nat) (x : Option Item) : State := { s with items := tput none s.items e x }
/-- Change entry `e`, where it is in use. -/
def State.modItem (s : State) (e : Nat) (f : Item → Item) : State :=
  match s.item? e with
  | some x => s.putItem e (some (f x))
  | none => s

/-- The entries in use. -/
def State.itemList (s : State) : List (Nat × Item) := s.items.filterMap fun p => p.2.map fun x => (p.1, x)

/-- The entry with the lowest rank by `key` among some. -/
def least (key : Nat × Item → Nat) : List (Nat × Item) → Option (Nat × Item)
  | [] => none
  | x :: xs =>
    match least key xs with
    | some y => if key y < key x then some y else some x
    | none => some x

/-- The items of a flow. -/
def State.flowItems (s : State) (f : Nat) : List (Nat × Item) := s.itemList.filter fun p => p.2.flow == f

/-- The item of a flow that is the next to be released: its oldest (R84). -/
def State.nextItem (s : State) (f : Nat) : Option (Nat × Item) := least (fun p => p.2.serial) (s.flowItems f)

/-- The mask of the declared operand slots still empty (R85). -/
def Item.emptySlots (x : Item) : Nat :=
  x.slots.foldl (fun m p => if p.2.word.isNone then withBit m p.1 true else m) 0

/-- The item is ready or saved and ready again (R80, R82). -/
def Item.isReady (x : Item) : Bool :=
  match x.stage with
  | .ready => true
  | .saved _ => true
  | _ => false

/-- FLOW_STAT of a flow and SCHED_STAT.STORE_USED show the store (R92). -/
def State.syncFlow (s : State) (f : Nat) : State :=
  let l := s.flowItems f
  let done := l.filter fun p => p.2.stage == .done
  (((s.set (Reg.FLOW_STAT.IN_FLIGHT f) l.length).set (Reg.FLOW_STAT.DONE_WAITING f) done.length).set
    Reg.SCHED_STAT.STORE_USED s.itemList.length)

/-- An item becomes ready where every declared slot is filled (R77). -/
def State.readyCheck (s : State) (e : Nat) : State :=
  match s.item? e with
  | some x =>
    if x.stage = .waiting ∧ x.emptySlots = 0 then
      { (s.putItem e (some { x with stage := .ready, readyAt := s.serial })) with serial := s.serial + 1 }
    else s
  | none => s

/-- An operand word enters slot `k` of entry `e`. -/
def State.fillSlot (s : State) (e k : Nat) (w : List Nat) : State :=
  (s.modItem e fun x => { x with slots := x.slots.map fun p => if p.1 = k then (k, { p.2 with word := some w }) else p }).readyCheck e

/-- The code of a delivery of kind `kd` to slot `k` of entry `e` (R78): 0 it can be placed. -/
def State.placeCode (s : State) (e k kd : Nat) : Nat :=
  match s.item? e with
  | none => 1
  | some x =>
    match x.slots.find? fun p => p.1 == k with
    | none => 2
    | some p => if p.2.word.isSome then 3 else if p.2.kind ≠ kd then 4 else 0

/-- A delivery of kind 3 (R38, R78) to the slot of that kind of entry `e`: placed, or OPERAND_REJECTED from the line axis. -/
def State.deliverLine (s : State) (line e : Nat) (w : List Nat) : State :=
  let k := match s.item? e with
    | some x => ((x.slots.find? fun p => p.2.kind == 3 && p.2.word.isNone).or (x.slots.find? fun p => p.2.kind == 3)).map (·.1)
    | none => none
  let code := match s.item? e, k with
    | none, _ => 1
    | some _, none => 2
    | some _, some j => s.placeCode e j 3
  if code = 0 then s.fillSlot e (k.getD 0) w
  else s.log (Src.line line) Ev.OPERAND_REJECTED (e + 1024 * k.getD 0) code

/-- SEGMENT_STARVED detail word 1 (R85): where the item of the SEQ expected stands. -/
def State.starvedWord (s : State) (f : Nat) : Nat :=
  match s.nextItem f with
  | none => 0
  | some (_, x) =>
    match x.stage with
    | .waiting => 1 + 16 * x.emptySlots
    | .ready => 2 + 16 * x.emptySlots
    | .saved _ => 2 + 16 * x.emptySlots
    | .running c => 3 + 16 * x.emptySlots + 256 * c
    | .suspended c => 3 + 16 * x.emptySlots + 256 * c
    | .done => 4

/-- The SEQ a flow expects next: of its next item, or by its numbering (R54, R91). -/
def State.expectedSeq (s : State) (i : Nat) : Nat :=
  match (s.flow i).expect with
  | some q => q
  | none => match s.nextItem i with
    | some (_, x) => leAt x.desc 8 4
    | none => 0

/-- The number of cores that run an item (R92). -/
def State.syncBusy (s : State) : State :=
  s.set Reg.SCHED_STAT.CORES_BUSY ((List.range 16).filter fun c => s.get (Reg.CORE_STAT.STATE c) == 1).length

/-- CORE_STAT of a core without an item. -/
def State.coreFree (s : State) (c : Nat) : State :=
  ((((s.set (Reg.CORE_STAT.STATE c) 0).set (Reg.CORE_STAT.ENTRY c) 0).set (Reg.CORE_STAT.FLOW c) 0).set (Reg.CORE_STAT.CLASS c) 0).syncBusy

/-- An item is freed: its core, where it runs on one, becomes idle, and a submission of its program that waits goes with it (R76, R84). -/
def State.freeItem (s : State) (e : Nat) : State :=
  match s.item? e with
  | none => s
  | some x =>
    let s1 := { (s.putItem e none) with submitted := s.submitted.filter fun p => p.1 != some e }
    match x.stage with
    | .running c => s1.coreFree c
    | _ => s1

/-- Every item of a flow is freed without release, and the next one has no previous item (R77, R84). -/
def State.freeFlow (s : State) (f : Nat) : State :=
  (forEach ((s.flowItems f).map (·.1)) State.freeItem { s with flowPrev := tput none s.flowPrev f none }).syncFlow f

end Sys2Proof.Machine
end

