-- ==== Sys2Proof/Machine/Path.lean ====
section
/-! DEFINITION. Segments (R50–R59): the descriptor and its checks, the limits and the geometry of a segment, the setpoints along its path
and through its fly-bys, its joins and path-hold stops, and which flow drives which axis. -/

namespace Sys2Proof.Machine

/-! ### Flow states (R65, R71) -/

def flIdle : Nat := 0
def flRunning : Nat := 1
def flGated : Nat := 2
def flHolding : Nat := 3
def flStopping : Nat := 4
def flCover : Nat := 5

/-- Causes of HOLDING (R71). -/
def hcHost : Nat := 1
def hcStarved : Nat := 2
def hcSync : Nat := 3
def hcRejected : Nat := 4
def hcAncestor : Nat := 5
def hcLimit : Nat := 6
def hcNarrows : Nat := 7

/-- The flow state of island `i`. -/
def State.flowState (s : State) (i : Nat) : Nat := s.get (Reg.ISL_STATE.FLOW i)
/-- The cause of HOLDING of island `i`. -/
def State.holdCause (s : State) (i : Nat) : Nat := s.get (Reg.ISL_STATE.CAUSE i)
/-- Island `i` enters a flow state; CAUSE is 0 outside HOLDING. -/
def State.toFlow (s : State) (i st cause : Nat) : State :=
  ((s.set (Reg.ISL_STATE.FLOW i) st).set (Reg.ISL_STATE.CAUSE i) (if st = flHolding then cause else 0)).setB
    (Reg.FLOW_STAT.STARVED i) (st = flHolding && cause = hcStarved)

/-- The member entry of local island `i` in narrows `k`, where the image declares the narrows and lists it (R246, R247). -/
def State.nrwMember? (s : State) (k i : Nat) : Option Nat :=
  if s.on (Reg.NRW_CFG.VALID k) then
    (List.range 16).find? fun m => s.on (Reg.NRW_MEMBER.VALID k m) && !s.on (Reg.NRW_MEMBER.REMOTE k m) &&
      s.get (Reg.NRW_MEMBER.ISLAND k m) == i
  else none

/-! ### The descriptor (R53) -/

/-- A narrows field of a descriptor: [15] valid, [6:0] number. -/
def nrwField (w : Nat) : Option Nat := if bitAt w 15 then some (bits w 0 7) else none

/-- A descriptor's 64 bytes read by the layout of R53. -/
def parseDesc (l : List Nat) : Desc :=
  let b0 := leAt l 0 1
  let b1 := leAt l 1 1
  { kind := bits b0 0 4, blend := bits b0 4 4, gate := bitAt b1 0, coverOwn := bitAt b1 1, replace := bitAt b1 2, evt := bitAt b1 3
    island := bits (leAt l 2 2) 0 9, nrwEnter := nrwField (leAt l 4 2), nrwExit := nrwField (leAt l 6 2), seq := leAt l 8 4
    payloadAddr := leAt l 12 4, payloadLen := leAt l 16 2, line := bits (leAt l 18 1) 0 3, tag := leAt l 19 1
    v := leAt l 20 4, a := leAt l 24 4, j := leAt l 28 4, blendR := leAt l 32 4, duration := leAt l 36 4, lineRef := leAt l 40 8
    ratio := leAt l 48 4, payloadCrc := leAt l 52 4, check := leAt l 60 4 }

/-- The CHECK of a descriptor's bytes: CRC-32C over bytes 0x00–0x3B with PLAN taken as 0 (R53). -/
def descCheck (l : List Nat) : Nat := crc32c (l.take 0x38 ++ [0, 0, 0, 0])

/-- The covered axes of a segment of island `i` (R50). -/
def State.covered (s : State) (i : Nat) (own : Bool) : List Nat := if own then s.img.ownAxes i else s.img.axesOf i

/-- The payload length of a kind for `n` covered axes (R52). -/
def payloadLen? (kind n : Nat) : Option Nat :=
  match kind with
  | 0 => some (8 * n)
  | 1 => some 64
  | 2 => some 88
  | 3 => some (48 * n)
  | 4 => some 0
  | 5 => some 64
  | 6 => some 88
  | _ => none

/-- The tool-point kinds (R52). -/
def toolKind (k : Nat) : Bool := k == 1 || k == 2 || k == 5 || k == 6

/-- A binary32 field is negative, infinite or NaN (R54). -/
def badPositive (w : Nat) : Bool := !f32Finite w || decide (f32 w < 0)

/-- Island `i` has a tool point (R375). -/
def State.toolPoint (s : State) (i : Nat) : Bool :=
  match s.img.island? i with
  | some d => d.toolPoint
  | none => false

/-- The `n` binary64 numbers of a payload. -/
def f64List (l : List Nat) : Nat → Nat → List Rat
  | 0, _ => []
  | n + 1, o => f64 (leAt l o 8) :: f64List l n (o + 8)

/-- A joint value lies outside an active soft window of its axis (R54, R64). -/
def State.outsideSoft (s : State) (a : Nat) (u : Rat) : Bool :=
  s.on (Reg.AX_SOFT_CFG.EN a) &&
    (decide (u < s.unitsOf a (s.int64 (Reg.AX_SOFT_LO_LO a))) || decide (s.unitsOf a (s.int64 (Reg.AX_SOFT_HI_LO a)) < u))

/-- A quintic and its first two derivatives at τ (R52). -/
def quintic (c : List Rat) (x : Rat) : Pva :=
  let k := fun n => c.getD n 0
  { p := k 0 + x * (k 1 + x * (k 2 + x * (k 3 + x * (k 4 + x * k 5))))
    v := k 1 + x * (2 * k 2 + x * (3 * k 3 + x * (4 * k 4 + x * 5 * k 5)))
    a := 2 * k 2 + x * (6 * k 3 + x * (12 * k 4 + x * 20 * k 5)) }

/-- The reasons of those checks of a list that fail. -/
def failing (l : List (Nat × Bool)) : List Nat := (l.filter fun e => e.2).map fun e => e.1

/-- The checks that the scheduler makes at admission (R54 checks 1–4, 6, 7, 10, 11 by R76, and reason 14 by R247): of the flow's
island, the descriptor's and the payload's bytes. -/
def State.admitReasons (s : State) (i : Nat) (l payload : List Nat) : List Nat :=
  let d := parseDesc l
  let n := (s.covered i d.coverOwn).length
  let nrwBad := fun (f : Option Nat) => match f with
    | some k => (s.nrwMember? k i).isNone
    | none => false
  failing
    [(1, descCheck l != d.check),
     (2, crc32c payload != d.payloadCrc),
     (3, decide (7 ≤ d.kind)),
     (4, d.island != i || (s.img.island? i).isNone),
     (6, (payloadLen? d.kind n != some d.payloadLen && decide (d.kind < 7)) || d.payloadAddr % 32 != 0),
     (7, decide (3 ≤ d.blend) || badPositive d.v || badPositive d.a || badPositive d.j || badPositive d.blendR ||
       badPositive d.duration || badPositive d.ratio),
     (10, d.gate && d.kind != 5 && d.kind != 6),
     (11, toolKind d.kind && !s.toolPoint i),
     (14, nrwBad d.nrwEnter || nrwBad d.nrwExit)]

/-- The displacement of line `k` from `ref`, in metres (R59). -/
def State.lineDisp (s : State) (k ref : Nat) : Rat :=
  f32 (s.word (Reg.LINE_SCALE k)) * ((wrapS 64 (s.int64 (Reg.LINE_POS_LO k) - ref) : Int) : Rat) / 65536 / 1000

/-- The line's speed at the present sample, in m/s. -/
def State.lineSpeed (s : State) (k : Nat) : Rat :=
  (sx 32 (s.word (Reg.LINE_VEL k)) : Rat) / 65536 * 64000 * f32 (s.word (Reg.LINE_SCALE k)) / 1000

/-- The displacement of the frame of a segment (TRACK), 0 for other kinds (R59). -/
def State.frameDisp (s : State) (g : Seg) : Rat := if g.desc.kind = 6 then s.lineDisp g.desc.line g.desc.lineRef else 0

/-- A pose moved by `d` along a direction. -/
def shiftPose (pose dir : List Rat) (d : Rat) : List Rat :=
  (List.range pose.length).map fun k => pose.getD k 0 + (if k < 3 then dir.getD k 0 * d else 0)

/-- The end state of a segment for axis `a` of its covered set, in axis units; none where it leaves the axis where it was (R51). The end
of a TRACK segment is taken with the frame as it stands now. -/
def State.segEnd (s : State) (i : Nat) (g : Seg) (a : Nat) : Option Rat :=
  if !(s.covered i g.desc.coverOwn).contains a then none
  else match g.desc.kind with
    | 0 => (g.targets.find? fun e => e.1 == a).map fun e => e.2
    | 3 => (g.coefs.find? fun e => e.1 == a).map fun e => (quintic e.2 1).p
    | 4 => none
    | _ => some (Config.ik i a (shiftPose g.pose g.dir (s.frameDisp g)))

/-- The start state of axis `a` for the next segment released in flow `i` (R51): where the motion planned before it ends: the last segment
of the flow, a segment that another flow runs, or the profile generator's move. -/
def State.planStart (s : State) (i a : Nat) : Rat :=
  let segs := fun (j : Nat) => ((s.flow j).run.toList.map fun r => r.seg) ++ (if j = i then (s.flow j).released else [])
  let last := fun (j : Nat) => ((segs j).filterMap fun g => s.segEnd j g a).getLast?
  match last i with
  | some u => u
  | none =>
    match s.img.islandIds.findSome? last with
    | some u => u
    | none => if s.on (Reg.PG_STAT.ACTIVE a) then (s.pg a).target else (s.setpt a).x

/-- The least of a list of limits. -/
def leastOf : List Rat → Rat
  | [] => 0
  | [x] => x
  | x :: xs => min x (leastOf xs)

/-- The greatest of a list of numbers, at least 0. -/
def mostOf (l : List Rat) : Rat := l.foldl max 0

/-! ### Segments (R52, R55) -/

/-- The limit on the path parameter of a JOINT segment (R55): the axis limits in `reg`, or the fraction `w` of them, over the axes'
distances, and the island's tool-point limit in `isl` over the tool point's way; the slowest sets it. -/
def State.jointLimit (s : State) (i : Nat) (g : Seg) (dists start : List (Nat × Rat)) (reg isl : Nat → Nat) (w : Nat) : Rat :=
  let reach := if s.toolPoint i then Config.jointReach i start g.targets else 0
  leastOf (((dists.filter fun e => e.2 ≠ 0).map fun e => (if f32 w = 0 then 1 else min 1 (f32 w)) * f32 (s.word (reg e.1)) / e.2) ++
    (if 0 < reach then [f32 (s.word (isl i)) / reach] else []))

/-- A JOINT segment of island `i` with its distances and limits set, from where its axes start (R55). -/
def State.setJoint (s : State) (i : Nat) (g : Seg) (start : List (Nat × Rat)) : Seg :=
  let dists := g.targets.map fun e => (e.1, rabs (e.2 - ((start.find? fun x => x.1 == e.1).map (·.2)).getD e.2))
  { g with
    dists := dists
    vlim := s.jointLimit i g dists start Reg.AX_VMAX Reg.ISL_VMAX g.desc.v
    alim := s.jointLimit i g dists start Reg.AX_AMAX Reg.ISL_AMAX g.desc.a
    jlim := s.jointLimit i g dists start Reg.AX_JMAX Reg.ISL_JMAX g.desc.j }

/-- A bound on the magnitude of the `n`-th derivative of a quintic over 0 to 1. -/
def quinticBound (c : List Rat) (n : Nat) : Rat :=
  ((List.range 6).map fun (k : Nat) => (List.range n).foldl (fun (m : Rat) (j : Nat) => m * ((k : Rat) - (j : Rat))) 1 * rabs (c.getD k 0)).foldl (· + ·) 0

/-- The SPLINE keeps the limits of its axes in a duration `T` (R55), by the bounds on its derivatives. -/
def State.splineFits (s : State) (coefs : List (Nat × List Rat)) (T : Rat) : Bool :=
  coefs.all fun e =>
    decide (quinticBound e.2 1 ≤ f32 (s.word (Reg.AX_VMAX e.1)) * T) && decide (quinticBound e.2 2 ≤ f32 (s.word (Reg.AX_AMAX e.1)) * T * T) &&
      decide (quinticBound e.2 3 ≤ f32 (s.word (Reg.AX_JMAX e.1)) * T * T * T)

/-- The time a SPLINE runs (R52, R55): DURATION, or longer where a limit asks for it. -/
def State.splineDur (s : State) (i : Nat) (coefs : List (Nat × List Rat)) (T : Rat) : Rat :=
  if !s.toolPoint i && s.splineFits coefs T then T else max T (Config.splineTime i coefs T)

/-- A released segment from its descriptor, payload and plan: the path parameter's length and limits, and the geometry of its payload
(R52, R55). -/
def State.makeSeg (s : State) (i : Nat) (d : Desc) (payload : List Nat) (pl : PlanData) : Seg :=
  let ax := s.covered i d.coverOwn
  let pairs := ax.zip (f64List payload ax.length 0)
  let tool := fun (x : BitVec 64) (w : Nat) (reg : Nat → Nat) =>
    if d.kind = 3 then f64 x.toNat
    else leastOf ([f64 x.toNat, f32 (s.word (reg i))] ++ (if f32 w = 0 then [] else [f32 w]))
  let coefs := if d.kind = 3 then (List.range ax.length).map fun k => (ax.getD k 0, f64List payload 6 (48 * k)) else []
  let g : Seg :=
    { desc := d, targets := if d.kind = 0 then pairs else [], dists := [], coefs := coefs
      len := if d.kind = 0 ∨ d.kind = 3 then 1 else if d.kind = 4 then 0 else f64 pl.len.toNat
      vlim := tool pl.v d.v Reg.ISL_VMAX, alim := tool pl.a d.a Reg.ISL_AMAX, jlim := tool pl.j d.j Reg.ISL_JMAX
      start := f64 pl.start.toNat, join := if d.blend = 0 then 0 else f64 pl.join.toNat
      entry := if d.nrwEnter.isSome then max 0 (f64 pl.entry.toNat) else 0
      pose := if toolKind d.kind then f64List payload 8 (if d.kind = 2 then 24 else 0) else []
      via := if d.kind = 2 then f64List payload 3 0 else []
      dir := if d.kind = 6 then f64List payload 3 64 else []
      dur := if d.kind = 3 then s.splineDur i coefs (f32 d.duration) else f32 d.duration }
  if d.kind = 0 then s.setJoint i g (pairs.map fun e => (e.1, s.planStart i e.1)) else g

/-! ### The motion of a run (R52, R57, R59) -/

/-- The path position of a run: in a stop in the cell frame, by the way the tool has gone. -/
def Run.path (r : Run) : Rat :=
  match r.cell with
  | some c => c.p0 + c.pk * r.at'.p
  | none => r.at'.p

/-- The motion of a TRACK segment's frame, at a way `x` of the run (R59): with the line, or coming to rest with the stop in the cell frame. -/
def State.frameMotion (s : State) (r : Run) (x : Pva) : Pva :=
  if r.seg.desc.kind ≠ 6 then ⟨0, 0, 0⟩
  else match r.cell with
    | some c => ⟨c.d0 + c.dk * x.p, c.dk * x.v, c.dk * x.a⟩
    | none => ⟨s.frameDisp r.seg + r.ofs, s.lineSpeed r.seg.desc.line, 0⟩

/-- The path motion of a run at a way `x`. -/
def Run.pathMotion (r : Run) (x : Pva) : Pva :=
  match r.cell with
  | some c => ⟨c.p0 + c.pk * x.p, c.pk * x.v, c.pk * x.a⟩
  | none => x

/-- A number that follows a fraction `u` by a curve of value, first and second derivative. -/
def along (f0 f1 f2 : Rat) (u : Pva) : Pva := ⟨f0, f1 * u.v, f2 * u.v * u.v + f1 * u.a⟩

/-- The motion of the tool pose (x, y, z, quaternion, redundancy) on the path of a tool-point segment: path motion `x`, frame motion `d`
(R52, R59). -/
def Run.poseMotion (r : Run) (x d : Pva) : List Pva :=
  let g := r.seg
  let u : Pva := if g.len = 0 then ⟨1, 0, 0⟩ else ⟨x.p / g.len, x.v / g.len, x.a / g.len⟩
  let lin := fun (k : Nat) =>
    let c := g.pose.getD k 0 - r.pose0.getD k 0
    (⟨r.pose0.getD k 0 + c * u.p, c * u.v, c * u.a⟩ : Pva)
  let arc := fun (n k : Nat) => (Config.arc n (r.pose0.take 3) g.via (g.pose.take 3) u.p).getD k 0
  let turn := fun (n k : Nat) => (Config.slerp n ((r.pose0.drop 3).take 4) ((g.pose.drop 3).take 4) u.p).getD k 0
  (List.range 8).map fun k =>
    if k < 3 then
      let y := if g.desc.kind = 2 then along (arc 0 k) (arc 1 k) (arc 2 k) u else lin k
      let w := g.dir.getD k 0
      ⟨y.p + w * d.p, y.v + w * d.v, y.a + w * d.a⟩
    else if k < 7 then along (turn 0 (k - 3)) (turn 1 (k - 3)) (turn 2 (k - 3)) u
    else lin k

/-- The motion of axis `a` on the segment's own path, away from its fly-bys: `u0` its start, `x` the run's way in real time (R52). -/
def State.bareMotion (s : State) (i : Nat) (r : Run) (a : Nat) (u0 : Rat) (x : Pva) : Pva :=
  let g := r.seg
  match g.desc.kind with
  | 0 =>
    let du := ((g.targets.find? fun e => e.1 == a).map fun e => e.2 - u0).getD 0
    ⟨u0 + x.p * du, x.v * du, x.a * du⟩
  | 3 =>
    let q := quintic (((g.coefs.find? fun e => e.1 == a).map fun e => e.2).getD []) x.p
    ⟨q.p, q.v * x.v, q.a * x.v * x.v + q.v * x.a⟩
  | 4 => ⟨u0, 0, 0⟩
  | _ =>
    let m := r.poseMotion (r.pathMotion x) (s.frameMotion r x)
    let pose := m.map (·.p)
    let rate := m.map (·.v)
    let acc := m.map (·.a)
    let still := rate.all (· == 0)
    ⟨Config.ik i a pose, if still then 0 else Config.ikRate i a pose rate,
     if still && acc.all (· == 0) then 0 else Config.ikAcc i a pose rate acc⟩

/-- The fly-by in which path position `p` of a run lies (R57): the place in it from 0 to 1, its change per unit of path, the fly-by. -/
def Run.flyBy (r : Run) (p : Rat) : Option (Rat × Rat × Blend) :=
  match r.out, r.into with
  | some b, o =>
    if r.seg.len - b.r0 < p then some ((p - (r.seg.len - b.r0)) / (2 * b.r0), 1 / (2 * b.r0), b)
    else match o with
      | some c => if p < c.r1 then some (1 / 2 + p / (2 * c.r1), 1 / (2 * c.r1), c) else none
      | none => none
  | none, some c => if p < c.r1 then some (1 / 2 + p / (2 * c.r1), 1 / (2 * c.r1), c) else none
  | none, none => none

/-- The setpoint of axis `a` of a run at a way `x` in profile time, `sg` being σ and `rate` its change per second: position, speed and
acceleration in axis units (R52, R56, R57, R60, R61). -/
def State.setpointAt (s : State) (i : Nat) (r : Run) (a : Nat) (u0 : Rat) (x : Pva) (sg rate : Rat) : Setpoint :=
  let y : Pva := ⟨x.p, x.v * sg, x.a * sg * sg + x.v * rate⟩
  let m : Pva := match r.flyBy y.p with
    | some (w, k, b) => match b.curves.find? fun e => e.1 == a with
      | some e =>
        let q := quintic e.2 w
        along q.p q.v q.a ⟨w, k * y.v, k * y.a⟩
      | none => s.bareMotion i r a u0 y
    | none => s.bareMotion i r a u0 y
  { x := m.p, v := m.v, a := m.a, tau := Config.torque i r.seg.desc.seq a r.path }

/-- Write the setpoints of a run's covered axes (R13). -/
def State.putRun (s : State) (i : Nat) (r : Run) (sg rate : Rat) : State :=
  forEach r.start (fun s e => s.putSetpt e.1 (s.setpointAt i r e.1 e.2 r.at' sg rate)) s

/-- The axes of a run come to rest where they stand. -/
def State.restRun (s : State) (r : Run) : State :=
  forEach r.start (fun s e => let p := s.setpt e.1; s.putSetpt e.1 { p with v := 0, a := 0 }) s

/-- σ of a flow as a number (R60, R61), and the σ its run takes: line-synchronised and tracking segments are not time-scaled (R62). -/
def State.sigma (s : State) (i : Nat) : Rat := (s.flow i).sig
def Run.scale (r : Run) (sg : Rat) : Rat := if r.seg.desc.kind = 5 ∨ r.seg.desc.kind = 6 then 1 else sg

/-- One servo step in seconds (R9). -/
def servoSec : Rat := 1 / 16000

/-! ### Phases (R55, R56) -/

/-- A run that no limit allows to move: it stands. -/
def standing : List Phase := [⟨1000000000000, 0⟩]

/-- The phases of a SPLINE that goes on from rest at parameter `p`: up to the parameter's speed and on to its end. -/
def splineOn (g : Seg) (p : Rat) : List Phase :=
  let V := if g.dur = 0 then 0 else 1 / g.dur
  if V = 0 ∨ g.alim = 0 ∨ g.jlim = 0 then [⟨g.dur * (1 - p), 0⟩]
  else
    let up := speedChange 0 0 V g.alim g.jlim
    let d := (endOf up ⟨0, 0, 0⟩).p
    if d ≤ 1 - p then up ++ [⟨(1 - p - d) / V, 0⟩] else moveProfile 0 0 (1 - p) 0 V g.alim g.jlim

/-- The phases of a segment from path state `x` to its end (R56); SPLINE and DWELL run for their duration. -/
def segPhases (g : Seg) (x : Pva) (endV : Rat) : List Phase :=
  match g.desc.kind with
  | 3 => [⟨g.dur * (1 - x.p), 0⟩]
  | 4 => [⟨g.dur, 0⟩]
  | 5 => []
  | _ =>
    if g.len ≤ x.p then []
    else if g.vlim ≤ 0 ∨ g.alim ≤ 0 ∨ g.jlim ≤ 0 then standing
    else moveProfile x.v x.a (g.len - x.p) endV g.vlim g.alim g.jlim

/-- A segment's time at σ = 1 in seconds, joined to its predecessor by `v`; a LINE_SYNC segment follows its line, so its time is a free value. -/
def segTime (g : Seg) (v : Nat) : Rat := if g.desc.kind = 5 then Config.freeRat 11 g.desc.seq else phaseTime (segPhases g ⟨0, if v = 0 then 0 else g.start, 0⟩ g.join)

/-! ### Joins (R51, R57) -/

/-- The quintic that takes the motions `x` at 0 and `y` at 1. -/
def quinticFrom (x y : Pva) : List Rat :=
  let d := y.p - x.p
  [x.p, x.v, x.a / 2, 10 * d - 6 * x.v - 4 * y.v - (3 * x.a - y.a) / 2, -15 * d + 8 * x.v + 7 * y.v + (3 * x.a - 2 * y.a) / 2,
   6 * d - 3 * (x.v + y.v) - (x.a - y.a) / 2]

/-- A kind that a fly-by joins (DESIGN CHOICE 11): JOINT, LINE, ARC and LINE_SYNC; SPLINE, DWELL and TRACK join through the target. -/
def flyKind (k : Nat) : Bool := k == 0 || k == 1 || k == 2 || k == 5

/-- The length of a segment's path in the units of BLEND_R: metres, or for JOINT the way of the axis that moves farthest. -/
def Seg.span (g : Seg) : Rat := if g.desc.kind = 0 then mostOf (g.dists.map (·.2)) else g.len

/-- The run of a segment from rest at the start of its path, its axes at `start`. -/
def State.runFrom (s : State) (i : Nat) (g : Seg) (start : List (Nat × Rat)) : Run :=
  let d0 := s.frameDisp g
  { (default : Run) with
    seg := g, start := start
    pose0 := if toolKind g.desc.kind then shiftPose (Config.fk i start) g.dir (-d0) else [] }

/-- Where the axes of the successor `g` stand at the end of a run's path. -/
def State.joinState (s : State) (i : Nat) (r : Run) (g : Seg) : List (Nat × Rat) :=
  (s.covered i g.desc.coverOwn).map fun a => (a, match r.start.find? fun e => e.1 == a with
    | some e => (s.bareMotion i r a e.2 ⟨r.seg.len, 0, 0⟩).p
    | none => (s.setpt a).x)

/-- The fly-by from a run to its successor (R57): BLEND_R, cut to half the shorter segment and to what is left of the run's path, and for
every axis both drive the quintic that matches position, speed and acceleration at both ends. -/
def State.blendTo (s : State) (i : Nat) (r : Run) (g0 : Seg) : Option Blend :=
  if r.seg.desc.blend ≠ 1 ∨ !flyKind r.seg.desc.kind ∨ !flyKind g0.desc.kind then none
  else
    let next := s.joinState i r g0
    let g := if g0.desc.kind = 0 then s.setJoint i g0 next else g0
    let la := r.seg.span
    let lb := g.span
    let R := leastOf [f32 r.seg.desc.blendR, la / 2, lb / 2, if r.seg.len = 0 then 0 else (r.seg.len - r.at'.p) / r.seg.len * la]
    if R ≤ 0 ∨ g.len ≤ 0 then none
    else
      let r0 := R / la * r.seg.len
      let r1 := R / lb * g.len
      let q := s.runFrom i g next
      some { r0 := r0, r1 := r1, next := next, curves := r.start.filterMap fun e =>
        (next.find? fun n => n.1 == e.1).map fun n =>
          (e.1, quinticFrom (s.bareMotion i r e.1 e.2 ⟨r.seg.len - r0, 2 * r0, 0⟩) (s.bareMotion i q e.1 n.2 ⟨r1, 2 * r1, 0⟩)) }

/-- The speed through a fly-by, in the path parameter of the segment it leaves (R57): the planned one, within both segments' limits. -/
def Run.flySpeed (r : Run) (g : Seg) (b : Blend) : Rat :=
  leastOf ([r.seg.join, r.seg.vlim] ++ (if b.r1 = 0 ∨ g.vlim ≤ 0 then [] else [g.vlim * b.r0 / b.r1]))

/-- The run of island `i` plans the fly-by to its successor (R57): to its beginning at the fly-by's speed, then on at that speed. -/
def State.planFlyBy (s : State) (i : Nat) : State :=
  match (s.flow i).run, (s.flow i).released with
  | some r, g :: _ =>
    if r.out.isSome ∨ r.stop.isSome ∨ g.desc.gate then s
    else match s.blendTo i r g with
      | none => s
      | some b =>
        let v := r.flySpeed g b
        if v ≤ 0 ∨ r.seg.alim ≤ 0 ∨ r.seg.jlim ≤ 0 then s
        else
          let ph := if r.seg.desc.kind = 5 then r.phases
            else moveProfile r.at'.v r.at'.a (r.seg.len - b.r0 - r.at'.p) v (max r.seg.vlim r.at'.v) r.seg.alim r.seg.jlim ++ [⟨b.r0 / v, 0⟩]
          s.modFlow i fun f => { f with run := some { r with out := some b, phases := ph } }
  | _, _ => s

/-- The path speed and acceleration with which a segment starts (R51): 0 from rest; at a join by those of the setpoints, for a JOINT
segment along its direction, for a tool-point segment after another along the path; otherwise as planned. -/
def State.startMotion (s : State) (i : Nat) (g : Seg) (join : Nat) (prev : Option Run) : Rat × Rat :=
  if g.desc.kind = 3 then (if g.dur = 0 then 0 else 1 / g.dur, 0)
  else if g.desc.kind = 4 ∨ join = 0 then (0, 0)
  else if g.desc.kind = 0 then
    let du := g.targets.map fun e => (e.1, e.2 - (s.setpt e.1).x)
    let n := (du.map fun e => e.2 * e.2).foldl (· + ·) 0
    if n = 0 then (0, 0)
    else (max 0 ((du.map fun e => (s.setpt e.1).v * e.2).foldl (· + ·) 0 / n / (if s.sigma i = 0 then 1 else s.sigma i)),
          (du.map fun e => (s.setpt e.1).a * e.2).foldl (· + ·) 0 / n / (if s.sigma i = 0 then 1 else s.sigma i * s.sigma i))
  else match prev with
    | some r => if toolKind r.seg.desc.kind then (r.at'.v, r.at'.a) else (g.start, 0)
    | none => (g.start, 0)

/-- The first released segment of island `i` starts, joined to its predecessor `prev` by the BLEND `join` (0: from rest), with `lead`
seconds already run (R51, R57, R58). A JOINT segment's limits are those of the distances from the state it starts in (R55). -/
def State.startSeg (s : State) (i join : Nat) (lead : Rat) (prev : Option Run) : State :=
  match (s.flow i).released with
  | [] => s
  | g0 :: rest =>
    let fly := if join = 1 then prev.bind (·.out) else none
    let start := match fly with
      | some b => b.next
      | none => (s.covered i g0.desc.coverOwn).map fun a => (a, (s.setpt a).x)
    let g := if g0.desc.kind = 0 then s.setJoint i g0 start else g0
    let m := s.startMotion i g join prev
    let r0 := { s.runFrom i g start with lead := lead, into := fly }
    let r : Run := match fly, prev with
      | some b, some q =>
        let k := if b.r0 = 0 then 0 else b.r1 / b.r0
        let v := q.at'.v * k
        if v ≤ 0 then { r0 with at' := ⟨0, 0, 0⟩, phases := segPhases g ⟨0, 0, 0⟩ g.join }
        else { r0 with at' := ⟨0, v, 0⟩, phases := if g.desc.kind = 5 then [] else ⟨b.r1 / v, 0⟩ :: segPhases g ⟨b.r1, v, 0⟩ g.join }
      | _, _ => { r0 with at' := ⟨0, m.1, m.2⟩, phases := segPhases g ⟨0, m.1, m.2⟩ g.join }
    let s1 := s.modFlow i fun f => { f with run := some r, released := rest, gateAt := none }
    (s1.setWord (Reg.ISL_SEQ i) g.desc.seq).toFlow i flRunning 0

/-! ### Path-hold stops (R49, R57, R59, R63–R65) -/

/-- The limits of a path-hold stop: ISL_STOP_DEC and ISL_STOP_JERK for a tool-point path where `hard`, otherwise the limits in force. -/
def State.stopLimits (s : State) (i : Nat) (g : Seg) (hard : Bool) : Rat × Rat :=
  let lim := (f32 (s.word (Reg.ISL_STOP_DEC i)), f32 (s.word (Reg.ISL_STOP_JERK i)))
  if hard && toolKind g.desc.kind && decide (0 < lim.1) && decide (0 < lim.2) then lim else (g.alim, g.jlim)

/-- The tool's direction and speed on a straight path: its path velocity and its frame velocity added, in m/s (R59). -/
def Run.toolVelocity (r : Run) (v vl : Rat) : List Rat :=
  (List.range 3).map fun k =>
    (if r.seg.len = 0 then 0 else (r.seg.pose.getD k 0 - r.pose0.getD k 0) / r.seg.len * v) + r.seg.dir.getD k 0 * vl

/-- The length of a vector. -/
def vecNorm (l : List Rat) : Rat := psqrt ((l.map fun x => x * x).foldl (· + ·) 0)

/-- A TRACK run in the cell frame (R59): from here on the tool's own way counts, along which path and frame come to rest together. -/
def State.toCell (s : State) (r : Run) : Run :=
  if r.seg.desc.kind ≠ 6 ∨ r.cell.isSome then r
  else
    let vl := s.lineSpeed r.seg.desc.line
    let w := vecNorm (r.toolVelocity r.at'.v vl)
    let d := s.frameDisp r.seg + r.ofs
    { r with
      at' := ⟨0, w, 0⟩
      cell := some (if w = 0 then ⟨r.at'.p, 0, d, 0⟩ else ⟨r.at'.p, r.at'.v / w, d, vl / w⟩) }

/-- The phases of a stop that ends within a way `d`: within the limits where they allow it, otherwise within twice, four times … them. -/
def stopWithin (v a A J d : Rat) : Nat → List Phase
  | 0 => []
  | n + 1 => if stopDist v a A J ≤ d then speedChange v a 0 A J else stopWithin v a (2 * A) (2 * J) d n

/-- A run that makes a path-hold stop which ends as `e`, no further than a way `bound` on. A DWELL stands; the time left stays for its
continuation. -/
def State.stopRun (s : State) (i : Nat) (r0 : Run) (e : StopEnd) (hard : Bool) (bound : Option Rat) : Run :=
  if r0.seg.desc.kind = 4 then
    { r0 with stop := some e, phases := [], at' := if r0.stop.isNone then { r0.at' with p := phaseTime r0.phases } else r0.at' }
  else
    let r := s.toCell r0
    let lim := s.stopLimits i r.seg hard
    let ph := if lim.1 = 0 ∨ lim.2 = 0 ∨ (r.at'.v = 0 ∧ r.at'.a = 0) then []
      else match bound with
        | some d => stopWithin r.at'.v r.at'.a lim.1 lim.2 d 32
        | none => speedChange r.at'.v r.at'.a 0 lim.1 lim.2
    { r with stop := some e, phases := ph }

/-- A run begins a path-hold stop that ends as `e`. -/
def State.beginStop (s : State) (i : Nat) (e : StopEnd) (hard : Bool) : State :=
  s.modFlow i fun f => { f with run := f.run.map fun r => s.stopRun i r e hard none }

/-- What a stop for a HOLD, an ancestor or a narrows ends in, where a stop may be under way already: a segment that counts as ended, or is
to be discarded, stays so. -/
def holdEnd (old : Option StopEnd) (cause : Nat) : StopEnd :=
  match old with
  | some (.ended _) => .ended cause
  | some (.dropped _ b) => .dropped cause b
  | some .replace => .dropped cause true
  | some .idle => .dropped cause false
  | _ => .hold cause

/-- A run begins the path-hold stop of a HOLDING cause. -/
def State.holdStop (s : State) (i cause : Nat) (hard : Bool) : State :=
  s.modFlow i fun f => { f with run := f.run.map fun r => s.stopRun i r (holdEnd r.stop cause) hard none }

/-- The path position at which a path-hold stop of a run from the motion `x` ends. -/
def State.stopPath (s : State) (i : Nat) (r : Run) (x : Pva) : Rat :=
  let q := s.stopRun i { r with at' := x } .ss1 true none
  Run.path { q with at' := endOf q.phases q.at' }

/-- The run of a flow is at rest. -/
def Run.still (r : Run) : Bool := r.stop.isSome && r.phases.isEmpty

/-- A flow has nothing moving: no run, or a run at rest. -/
def FlowSt.still (f : FlowSt) : Bool :=
  match f.run with
  | some r => r.still
  | none => true

/-! ### Which flow drives which axis (R50) -/

/-- The run of a flow drives axis `a`: not one at rest in HOLDING. -/
def FlowSt.drives (f : FlowSt) (a : Nat) : Bool :=
  match f.run with
  | some r =>
    (r.start.any fun e => e.1 == a) && !(r.phases.isEmpty && match r.stop with
      | some (.hold _) => true
      | some (.ended _) => true
      | some (.dropped _ _) => true
      | _ => false)
  | none => false

/-- Every axis of a list is free of another running segment and of the profile generator. -/
def State.axesFree (s : State) (i : Nat) (l : List Nat) : Bool :=
  l.all fun a => !s.on (Reg.PG_STAT.ACTIVE a) && s.img.islandIds.all fun j => j == i || !(s.flow j).drives a

/-- The covered axes of a segment are free. -/
def State.coverFree (s : State) (i : Nat) (g : Seg) : Bool := s.axesFree i (s.covered i g.desc.coverOwn)

/-- Something else has moved an axis of a run since it came to rest: a profile generator or a preset. -/
def State.movedAway (s : State) (i : Nat) (r : Run) : Bool :=
  r.start.any fun e => (s.setpointAt i r e.1 e.2 r.at' 0 0).x != (s.setpt e.1).x

/-- The interrupted segment is continued from rest (R65): from its path point, or, where its axes were moved away, from where they stand
(R51, DESIGN CHOICE 11). A LINE_SYNC goes on with its line from the point at which it stood. -/
def State.continueRun (s : State) (i : Nat) : State :=
  s.modFlow i fun f =>
    match f.run with
    | none => f
    | some r =>
      let g := r.seg
      let k := g.desc.kind
      let here := r.start.map fun e => (e.1, (s.setpt e.1).x)
      if k = 4 then { f with run := some { r with stop := none, start := here, phases := [⟨r.at'.p, 0⟩], at' := ⟨0, 0, 0⟩ } }
      else if k ≠ 3 ∧ k ≠ 5 ∧ s.movedAway i r then
        let g' := if k = 0 then s.setJoint i g here else g
        { f with run := some { s.runFrom i g' here with phases := segPhases g' ⟨0, 0, 0⟩ g'.join } }
      else
        let p := r.path
        let y := f32 g.desc.ratio * s.lineDisp g.desc.line g.desc.lineRef
        let ofs := if k = 5 then (if p = 0 ∧ y ≤ 0 then 0 else p - y) else match r.cell with
          | some c => c.d0 + c.dk * r.at'.p - s.frameDisp g
          | none => r.ofs
        let v0 := if k = 3 ∧ (g.alim = 0 ∨ g.jlim = 0) then (if g.dur = 0 then 0 else 1 / g.dur) else 0
        { f with run := some { r with
            stop := none, phases := if k = 3 then splineOn g p else segPhases g ⟨p, 0, 0⟩ g.join, at' := ⟨p, v0, 0⟩
            cell := none, ofs := ofs, sync := none, timed := false } }

/-- The interrupted segment goes on from rest, or waits in COVER_WAIT where an axis of it is driven elsewhere (R50, R65). -/
def State.resumeRun (s : State) (i : Nat) : State :=
  match (s.flow i).run with
  | some r => if s.axesFree i (r.start.map (·.1)) then (s.continueRun i).toFlow i flRunning 0 else s.toFlow i flCover 0
  | none => s

/-! ### The checks at release and the release (R52, R54, R63, R84) -/

/-- The start state of axis `a` for a segment that replaces the running one (R51, R63): where the path-hold stop of the running segment,
begun at the next servo boundary, leaves it. -/
def State.replaceStart (s : State) (i a : Nat) : Rat :=
  match (s.flow i).run with
  | none => (s.setpt a).x
  | some r =>
    match r.start.find? fun e => e.1 == a with
    | none => (s.setpt a).x
    | some e =>
      if r.still then (s.setpt a).x
      else
        let sg := r.scale (s.sigma i)
        let q := s.stopRun i { r with at' := (runPhases r.phases (servoSec * sg) r.at').1 } .replace false none
        (s.setpointAt i q a e.2 (endOf q.phases q.at') sg 0).x

/-- The checks made at release (R54 checks 8 and 9 by R84, reasons 12 and 13 of R63 and R83). -/
def State.releaseReasons (s : State) (i : Nat) (l payload : List Nat) (pl : PlanData) (abandoned : Bool) : List Nat :=
  let d := parseDesc l
  let f := s.flow i
  let ax := s.covered i d.coverOwn
  let n := ax.length
  let tgt := f64List payload n 0
  let splineBad := d.kind == 3 && ((List.range n).any fun k =>
    let a := ax.getD k 0
    decide (rabs (s.scaleOf a) < rabs ((f64List payload 6 (48 * k)).getD 0 0 - (if d.replace then s.replaceStart i a else s.planStart i a))))
  let stopping := s.flowState i == flStopping || f.reqSs1 || f.reqAnc ||
    (s.flowState i == flHolding && s.holdCause i == hcAncestor && (match f.run with
      | some r => r.stop.isSome && (r.at'.v != 0)
      | none => false))
  failing
    [(8, pl.reason == 8 || (d.kind == 0 && ((List.range n).any fun k => s.outsideSoft (ax.getD k 0) (tgt.getD k 0)))),
     (9, pl.reason == 9 || splineBad),
     (12, d.replace && stopping),
     (13, abandoned),
     (14, pl.reason == 14)]

/-- A descriptor enters its flow (R54, R63, R84): released, or rejected with the lowest reason among those noted at admission and
those of the release; while a rejection waits it is discarded. -/
def State.releaseDesc (s : State) (i : Nat) (x : Item) : State :=
  let d := parseDesc x.desc
  if (s.flow i).rejecting then s
  else
    match (x.noted ++ s.releaseReasons i x.desc x.payload x.plan x.abandoned).min? with
    | some r =>
      let s1 := (s.set (Reg.ISL_REJECT.REASON i) r).log (Src.island i) Ev.SEGMENT_REJECTED d.seq r
      if r = 12 then s1 else s1.modFlow i fun f => { f with rejecting := true }
    | none =>
      let g := s.makeSeg i d x.payload x.plan
      s.modFlow i fun f =>
        { f with expect := some ((d.seq + 1) % 2 ^ 32), reqReplace := f.reqReplace || d.replace, released := f.released ++ [g] }

end Sys2Proof.Machine
end

