-- ==== Sys2Proof/Machine/Islands.lean ====
section
/-! DEFINITION. Flows (R47–R50, R57–R66, R85): the flow-state table, the interpolator step with speed scaling, soft limits and line
synchronisation, and the requests of ISL_CTRL. -/

namespace Sys2Proof.Machine

/-! ### Running a segment -/

/-- The path of a run that leaves its flow has passed the entry point of the narrows it enters (R251). -/
def State.noteEntry (s : State) (i : Nat) (r : Run) : State :=
  match r.seg.desc.nrwEnter with
  | some n => if r.stop.isNone ∨ r.seg.entry ≤ r.path then { s with nrwEntered := s.nrwEntered ++ [(i, n)] } else s
  | none => s

/-- The narrows that the end of a segment releases (R63, R253): its NRW_EXIT, and with a replacing segment the carried ones. -/
def FlowSt.exits (f : FlowSt) (g : Seg) : List Nat := g.desc.nrwExit.toList ++ (if g.desc.replace then f.carryExit else [])

/-- The running segment ends (R65, R70, R253): SEGMENT_DONE where EVT is set; it releases its narrows. -/
def State.segmentDone (s : State) (i : Nat) : State :=
  match (s.flow i).run with
  | none => s
  | some r =>
    let d := r.seg.desc
    let s1 := if d.evt then s.log (Src.island i) Ev.SEGMENT_DONE d.seq d.tag else s
    let ex := ((s.flow i).exits r.seg).map fun n => (i, n, d.seq)
    let s2 := { s1 with nrwExits := s1.nrwExits ++ ex }.noteEntry i r
    s2.modFlow i fun f => { f with run := none, carryExit := if d.replace then [] else f.carryExit }

/-- The running segment is discarded (R63): its NRW_EXIT is carried over where a segment replaces it. -/
def State.dropRun (s : State) (i : Nat) (replaced : Bool) : State :=
  match (s.flow i).run with
  | none => s
  | some r => (s.noteEntry i r).modFlow i fun f => { f with
      run := none, carryExit := if replaced then f.carryExit ++ r.seg.desc.nrwExit.toList else f.carryExit }

/-- Island `i` holds narrows `n`: it is the owner in GRANTED or PASSING (R251, R255). -/
def State.holdsNrw (s : State) (n i : Nat) : Bool :=
  (s.get (Reg.NRW_STATE.STATE n) == 1 || s.get (Reg.NRW_STATE.STATE n) == 2) && s.word (Reg.NRW_OWNER n) == 2 ^ 30 + i

/-- A segment whose entry point is its start may not start: its island does not hold the narrows it enters (R251). -/
def State.nrwWaits (s : State) (i : Nat) (g : Seg) : Bool :=
  match g.desc.nrwEnter with
  | some n => decide (g.entry ≤ 0) && !s.holdsNrw n i
  | none => false

/-- A FLUSH discards the segments of a flow: their exits are noted for the arbiter (R254, R255). -/
def State.noteFlush (s : State) (i : Nat) : State :=
  let f := s.flow i
  let ex := (f.run.toList.map fun r => r.seg) ++ f.released
  let noted := (ex.filterMap fun g => g.desc.nrwExit.map fun n => (i, n)) ++ f.carryExit.map fun n => (i, n)
  { s with nrwFlushed := s.nrwFlushed ++ noted }.modFlow i fun f => { f with released := [], carryExit := [], gateAt := none }

/-- The next segment after the flow came free (R50, R65): started with its join to the predecessor `prev` and its lead, held at its gate,
or kept waiting. -/
def State.nextSegment (s : State) (i join : Nat) (lead : Rat) (prev : Option Run) : State :=
  let f := s.flow i
  match f.released with
  | [] =>
    if f.rejecting then s.toFlow i flHolding hcRejected else s.toFlow i flIdle 0
  | g :: _ =>
    if s.aggregate i ≠ axEnabled then (s.modFlow i fun f => { f with gateAt := none }).toFlow i flIdle 0
    else if s.nrwWaits i g then s.toFlow i flHolding hcNarrows
    else if !s.coverFree i g then s.toFlow i flCover 0
    else if g.desc.gate ∧ f.gateAt.isNone then s.toFlow i flGated 0
    else s.startSeg i join lead prev

/-- A stop of a run has come to rest: what follows by its end (R57, R59, R63–R65). -/
def State.stopDone (s : State) (i : Nat) : State :=
  match (s.flow i).run with
  | none => s
  | some r =>
    let s0 := s.restRun r
    match r.stop with
    | some .idle => (s0.dropRun i false).toFlow i flIdle 0
    | some .replace => (s0.dropRun i true).nextSegment i 0 0 none
    | _ => s0

/-! ### Speed scaling (R60–R62) -/

/-- The separation term: the least published factor of the island, its subtree and its ancestors. -/
def State.sepTerm (s : State) (i : Nat) : Nat :=
  ((s.img.subtree i) ++ (s.img.ancestors i)).foldl (fun m j => min m (s.get (Reg.SEPI_FACTOR.PUBLISHED j))) 0xFFFF

/-- The override term: the least override in force of the island and its ancestors. -/
def State.ovrTerm (s : State) (i : Nat) : Nat :=
  (i :: s.img.ancestors i).foldl (fun m j => min m (s.flow j).ovr) 0xFFFF

/-- The overrides written are taken at a servo boundary, those of all islands before any σ* (R60). -/
def State.takeOverrides (s : State) : State :=
  forEach s.img.islandIds (fun s i => s.modFlow i fun f => { f with ovr := s.get (Reg.ISL_OVR.OVR i) }) s

/-- A LINE_SYNC that follows its line: it makes no stop and no timed approach to its target (R57, R59). -/
def Run.follows (r : Run) : Bool := r.seg.desc.kind == 5 && r.stop.isNone && !r.timed

/-- The path parameter of a LINE_SYNC as its line has it at this boundary, before it is held to the path (R59). -/
def State.linePath (s : State) (r : Run) : Rat := f32 r.seg.desc.ratio * s.lineDisp r.seg.desc.line r.seg.desc.lineRef + r.ofs

/-- The line moves a LINE_SYNC along its path: it is neither short of LINE_REF nor at the end (R59). -/
def State.lineMoves (s : State) (r : Run) : Bool := decide (0 < s.linePath r) && decide (s.linePath r < r.seg.len)

/-- The path motion at the end of the coming servo step at σ = 1 (R60). -/
def State.stepMotion (s : State) (r : Run) : Pva :=
  if r.follows then
    let v := if s.lineMoves r then f32 r.seg.desc.ratio * s.lineSpeed r.seg.desc.line else 0
    ⟨r.at'.p + v * servoSec, v, 0⟩
  else (runPhases r.phases servoSec r.at').1

/-- The metres that the tool point goes for a unit of a run's path (R60); on an island without a tool point its fastest capsule end
point, as the pose unit computes it (R231). -/
def State.toolPerPath (s : State) (i : Nat) (r : Run) (n : Pva) : Rat :=
  if !s.toolPoint i then (if n.v = 0 then 0 else f32 (s.word (Reg.SEPI_VCAP i)) / rabs n.v)
  else if toolKind r.seg.desc.kind then 1 else rabs (Config.toolRate i r.seg.desc.seq r.path)

/-- The tool-point speed in m/s that a run has in the coming step at σ = 1, a tracking one with the motion of its line (R59, R60). -/
def State.runSpeed (s : State) (i : Nat) (r : Run) : Rat :=
  let n := s.stepMotion r
  if r.seg.desc.kind = 6 ∧ r.cell.isNone then vecNorm (r.toolVelocity n.v (s.lineSpeed r.seg.desc.line))
  else s.toolPerPath i r n * rabs n.v

/-- The tool-point speed of the step at σ = 1, in m/s (R60). -/
def State.toolSpeed (s : State) (i : Nat) : Rat :=
  match (s.flow i).run with
  | none => 0
  | some r => s.runSpeed i r

/-- The reduced-speed term: 0.25 m/s over the tool-point speed, in REDUCED or before the start-up test is done (R60). The spec gives no
rounding of the quotient to a 16-bit factor: it is rounded down (DESIGN CHOICE 11). -/
def State.redTerm (s : State) (i : Nat) : Nat :=
  if s.devState = devReduced ∨ !s.on Reg.DEV_STATE.STARTUP_TEST_DONE then
    let v := s.toolSpeed i
    if v ≤ 1 / 4 then 0xFFFF else (1 / 4 / v * 65535).floor.toNat
  else 0xFFFF

/-- σ* of a flow, and REDUCED_CAP: whether the reduced-speed term is the least (R60, R71). Where it ties with another least term the spec
does not say what REDUCED_CAP shows: it shows 0 (DESIGN CHOICE 11). -/
def State.sigmaStar (s : State) (i : Nat) : Nat × Bool :=
  let m := min (s.sepTerm i) (s.ovrTerm i)
  let r := s.redTerm i
  (min m r, decide (r < m))

/-- The least of those limits that are set. -/
def leastSet (l : List Rat) : Rat := leastOf (l.filter fun x => decide (0 < x))

/-- The limits on the change of the tool-point speed by σ (R61): falling, ISL_STOP_DEC beside the profile's own acceleration, and
ISL_STOP_JERK; rising, what ISL_AMAX, ISL_JMAX and the segment's limits leave beside the profile's own acceleration and jerk. None
where no limit is set. -/
def State.sigmaLimits (s : State) (i : Nat) (r : Run) (falls : Bool) : Option (Rat × Rat) :=
  let f := s.flow i
  let n := s.stepMotion r
  let k := s.toolPerPath i r n
  let lim := fun (reg : Nat) => f32 (s.word reg)
  if falls then
    let A := lim (Reg.ISL_STOP_DEC i)
    let J := lim (Reg.ISL_STOP_JERK i)
    if A ≤ 0 ∨ J ≤ 0 then none else some (A + max 0 (k * n.a * rsgn n.v * f.sig * f.sig), J)
  else
    let A := leastSet [lim (Reg.ISL_AMAX i), k * r.seg.alim]
    let J := leastSet [lim (Reg.ISL_JMAX i), k * r.seg.jlim]
    let j := (r.phases.head?.map fun ph => rabs ph.jerk).getD 0
    if A = 0 ∨ J = 0 then none else some (A - k * rabs n.a, J - k * j - 3 * k * rabs n.a * rabs f.sigRate)

/-- σ and its rate one servo step on (R61): the tool-point speed σ·V changes towards σ*·V as R456 has it. At rest, and where no limit is
set, σ takes σ* at once; where the profile leaves nothing for a rise, σ stays. -/
def State.nextSigma (s : State) (i : Nat) (goal : Rat) : Rat × Rat :=
  let f := s.flow i
  let V := s.toolSpeed i
  match f.run with
  | none => (goal, 0)
  | some r =>
    if V = 0 ∨ (f.sig = goal ∧ f.sigRate = 0) then (goal, 0)
    else match s.sigmaLimits i r (decide (goal < f.sig)) with
      | none => (goal, 0)
      | some (A, J) =>
        if A ≤ 0 ∨ J ≤ 0 then (f.sig, 0)
        else
          let x := runPhases (speedChange (f.sig * V) (f.sigRate * V) (goal * V) A J) servoSec ⟨0, f.sig * V, f.sigRate * V⟩
          if x.2.isEmpty then (goal, 0) else (max 0 (min 1 (x.1.v / V)), x.1.a / V)

/-- σ follows σ* by one servo step (R61); ISL_FACTOR and REDUCED_CAP show it. -/
def State.stepSigma (s : State) (i : Nat) : State :=
  let st := s.sigmaStar i
  let x := s.nextSigma i ((st.1 : Rat) / 65535)
  let s1 := (s.set (Reg.ISL_FACTOR.TARGET i) st.1).setB (Reg.ISL_STATE.REDUCED_CAP i) st.2
  (s1.set (Reg.ISL_FACTOR.SIGMA i) (x.1 * 65535).floor.toNat).modFlow i fun f => { f with sig := x.1, sigRate := x.2 }

/-! ### Soft limits and synchronisation (R59, R64) -/

/-- The position of the soft limit of axis `a` on side `k` (0 low, 1 high), in axis units. -/
def State.softLimit (s : State) (a k : Nat) : Rat :=
  s.unitsOf a (s.int64 (if k = 0 then Reg.AX_SOFT_LO_LO a else Reg.AX_SOFT_HI_LO a))

/-- The side on which a stop from the setpoint state of axis `a` would cross an active soft limit: 0 low, 1 high. -/
def State.softSide (s : State) (a : Nat) : Option Nat :=
  let p := s.setpt a
  let A := f32 (s.word (Reg.AX_AMAX a))
  let J := f32 (s.word (Reg.AX_JMAX a))
  if !s.on (Reg.AX_SOFT_CFG.EN a) || (p.v == 0 && p.a == 0) || A == 0 || J == 0 then none
  else
    let e := p.x + stopDist p.v p.a A J
    if e < s.softLimit a 0 then some 0
    else if s.softLimit a 1 < e then some 1 else none

/-- The first axis of a run whose stop would cross a soft limit, with the side. -/
def State.softHit (s : State) (r : Run) : Option (Nat × Nat) :=
  r.start.findSome? fun e => (s.softSide e.1).map fun k => (e.1, k)

/-- The way a run may go on until axis `a` reaches the position `lim` (R64): for JOINT away from its fly-bys in proportion, otherwise as
the path has it. -/
def State.limitWay (s : State) (i : Nat) (r : Run) (a : Nat) (lim : Rat) : Rat :=
  let u0 := ((r.start.find? fun e => e.1 == a).map (·.2)).getD 0
  let du := ((r.seg.targets.find? fun e => e.1 == a).map fun e => e.2 - u0).getD 0
  if r.seg.desc.kind = 0 ∧ (r.flyBy r.at'.p).isNone ∧ du ≠ 0 then (lim - u0) / du - r.at'.p
  else Config.limitLeft a ((s.bareMotion i r a u0 r.at').p :: r.seg.pose ++ r.pose0) r.at'.p lim

/-- A run stops for the soft limit of axis `a` on side `k`, no further along its path than where the axis reaches it (R64). -/
def State.limitStop (s : State) (i a k : Nat) : State :=
  s.modFlow i fun f => { f with
    run := f.run.map fun r => s.stopRun i r (.ended hcLimit) false (some (max 0 (s.limitWay i r a (s.softLimit a k)))) }

/-- The tool-point acceleration that following the line needs, from the line's speed at the last boundary; 0 at the first (R59). -/
def State.syncAccel (s : State) (r : Run) : Rat :=
  let d := r.seg.desc
  match r.sync with
  | none => 0
  | some v0 =>
    let al := (s.lineSpeed d.line - v0) / servoSec
    if d.kind = 5 then rabs (f32 d.ratio * al) else vecNorm (r.toolVelocity (s.stepMotion r).a al)

/-- Following the line would need more than σ* × ISL_VMAX, or an acceleration above ISL_AMAX (R59). -/
def State.syncLost (s : State) (i : Nat) (r : Run) : Bool :=
  let k := r.seg.desc.kind
  if k = 6 ∨ (k = 5 ∧ s.lineMoves r) then
    decide (((s.sigmaStar i).1 : Rat) / 65535 * f32 (s.word (Reg.ISL_VMAX i)) < s.runSpeed i r) ||
      decide (f32 (s.word (Reg.ISL_AMAX i)) < s.syncAccel r)
  else false

/-! ### One servo boundary of a flow (R65, R66) -/

/-- The run of a flow advances by `dt` seconds (R56, R58–R62) and its setpoints are written. A stop at σ = 0 is at rest at once: the
island stands. -/
def State.advanceBy (s : State) (i : Nat) (dt : Rat) : State :=
  match (s.flow i).run with
  | none => s
  | some r =>
    let d := r.seg.desc
    if r.follows then
      let y := s.linePath r
      let r' := { r with
        at' := ⟨max 0 (min y r.seg.len), (s.stepMotion r).v, 0⟩, phases := if r.seg.len ≤ y then [] else [⟨servoSec, 0⟩]
        sync := if s.lineMoves r then some (s.lineSpeed d.line) else none, lead := 0 }
      (s.modFlow i fun f => { f with run := some r' }).putRun i r' 1 0
    else
      let sg := r.scale (s.sigma i)
      let rate := if sg = s.sigma i then (s.flow i).sigRate else 0
      let q := if r.stop.isSome && decide (sg = 0) then (⟨r.at'.p, 0, 0⟩, []) else runPhases r.phases (dt * sg + r.lead) r.at'
      let x := if q.2.isEmpty && r.stop.isNone then { q.1 with p := if d.kind = 4 then q.1.p else r.seg.len } else q.1
      let r' := { r with
        at' := x, phases := q.2, lead := 0, sync := if d.kind = 6 ∧ r.cell.isNone then some (s.lineSpeed d.line) else none }
      (s.modFlow i fun f => { f with run := some r' }).putRun i r' sg rate

/-- The run of a flow advances by one servo step. -/
def State.advance (s : State) (i : Nat) : State := s.advanceBy i servoSec

/-- The decision point of a run passes at this boundary (R57): an exact stop at the target is possible now and would no longer be one
step later. A LINE_SYNC with BLEND 0 has one too: it leaves its line to end with speed 0 (DESIGN CHOICE 11). -/
def State.decides (s : State) (i : Nat) (r : Run) : Bool :=
  let g := r.seg
  let k := g.desc.kind
  if k = 4 ∨ r.timed ∨ (g.desc.blend = 0 ∧ k ≠ 5) ∨ g.alim ≤ 0 ∨ g.jlim ≤ 0 then false
  else
    let n := if r.follows then s.stepMotion r else (runPhases r.phases (servoSec * r.scale (s.sigma i)) r.at').1
    decide (g.len - n.p < stopDist n.v n.a g.alim g.jlim)

/-- A successor of the running segment is released, not gated, and its axes are free (R50, R57, R58). -/
def State.successor (s : State) (i : Nat) : Bool :=
  match (s.flow i).released with
  | g :: _ => !g.desc.gate && s.coverFree i g
  | [] => false

/-- The running segment runs on to an exact stop at its target (R57). -/
def State.exactStop (s : State) (i : Nat) : State :=
  s.modFlow i fun f =>
    match f.run with
    | none => f
    | some r => { f with run := some { r with
        seg := { r.seg with join := 0, desc := { r.seg.desc with blend := 0 } }, timed := r.seg.desc.kind == 5
        phases := moveProfile r.at'.v r.at'.a (r.seg.len - r.at'.p) 0 (max r.seg.vlim r.at'.v) r.seg.alim r.seg.jlim } }

/-- SEGMENT_STARVED (R85): the flow holds with cause STARVED. -/
def State.starve (s : State) (i : Nat) : State :=
  (s.log (Src.island i) Ev.SEGMENT_STARVED (s.expectedSeq i) (s.starvedWord i)).toFlow i flHolding hcStarved

/-- What a run prepares before its step (R57): at the decision point without a successor an exact stop, which starves the flow where none
is released; with one, the fly-by of BLEND 1. -/
def State.prepareJoin (s : State) (i : Nat) (r : Run) : State :=
  if r.stop.isSome then s
  else if s.successor i && r.seg.desc.blend ≠ 0 then (if r.seg.desc.blend = 1 then s.planFlyBy i else s)
  else if s.decides i r then
    if r.seg.desc.blend ≠ 0 ∧ (s.flow i).released.isEmpty then (s.exactStop i).starve i else s.exactStop i
  else s

/-- The running segment has come to its end, `left` seconds of profile time before this boundary (R57, R65): its successor starts, a
blended one at the instant of the join; a blended segment without one starves. -/
def State.endSegment (s : State) (i : Nat) (r : Run) (left : Rat) : State :=
  let join := if s.successor i then r.seg.desc.blend else 0
  let s1 := s.segmentDone i
  let s2 := if join = 0 then s1.restRun r else s1
  if s2.flowState i = flHolding then s2
  else if r.seg.desc.blend ≠ 0 ∧ (s.flow i).released.isEmpty then s2.starve i
  else
    let s3 := s2.nextSegment i join (if join = 0 then 0 else left) (some r)
    if join = 0 then s3 else if s3.flowState i = flRunning then s3.advanceBy i 0 else s3.restRun r

/-- A run that makes a path-hold stop: one servo step, and what its end brings. -/
def State.haltStep (s : State) (i : Nat) : State :=
  match (s.flow i).run with
  | none => s
  | some r =>
    if r.still then
      match r.stop with
      | some .idle => s.stopDone i
      | some .replace => s.stopDone i
      | _ => s
    else
      let s1 := s.advance i
      if (s1.flow i).still then s1.stopDone i else s1

/-- A RUNNING flow at a servo boundary without an event (R47, R56, R57, R65, R85). -/
def State.runFlow (s : State) (i : Nat) : State :=
  match (s.flow i).run with
  | none => s.nextSegment i 0 0 none
  | some r =>
    if r.stop.isSome then
      if r.still && r.stop == some .stand then (if s.aggregate i = axEnabled then s.continueRun i else s) else s.haltStep i
    else if s.aggregate i ≠ axEnabled then s
    else
      let s0 := s.prepareJoin i r
      let left := servoSec * r.scale (s0.sigma i) + r.lead - (match (s0.flow i).run with
        | some x => phaseTime x.phases
        | none => 0)
      let s1 := s0.advance i
      match (s1.flow i).run with
      | none => s1
      | some r' => if r'.phases.isEmpty then s1.endSegment i r' (if r'.follows then 0 else max 0 left) else s1

/-- SS1 of the island taken at a servo boundary (R65, R268): STOPPING, the path-hold stop, a disable of every subtree axis. -/
def State.flowSs1 (s : State) (i : Nat) : State :=
  let s1 := (s.beginStop i .ss1 true).toFlow i flStopping 0
  forEach (s.img.axesOf i) State.askDisable s1

/-- The requests and events noted for a flow are taken or discarded (R66). -/
def State.clearEvents (s : State) (i : Nat) : State :=
  s.modFlow i fun f => { f with
    reqSs1 := false, reqAnc := false, reqFlush := false, reqHold := false, reqResume := false, reqReplace := false, reqStand := false }

/-- The released segments split at the last replacing one: those it discards, and the rest (R63). -/
def replaceSplit : List Seg → List Seg × List Seg
  | [] => ([], [])
  | g :: rest =>
    let r := replaceSplit rest
    if rest.any fun x => x.desc.replace then (g :: r.1, r.2) else ([], g :: rest)

/-- A released REPLACE is taken (R63): every unstarted segment before it is discarded, its NRW_EXIT carried over. -/
def State.dropReplaced (s : State) (i : Nat) : State :=
  s.modFlow i fun f =>
    let r := replaceSplit f.released
    { f with
      released := r.2, carryExit := f.carryExit ++ r.1.filterMap fun g => g.desc.nrwExit
      gateAt := if r.1.isEmpty then f.gateAt else none }

/-- A flow at rest in HOLDING goes on after RESUME (R65): with the interrupted segment, or, where that has ended or is discarded, with the
next one from rest. -/
def State.resumeFlow (s : State) (i : Nat) : State :=
  match (s.flow i).run with
  | none => s.nextSegment i 0 0 none
  | some r =>
    match r.stop with
    | some (.ended _) => (s.segmentDone i).nextSegment i 0 0 none
    | some (.dropped _ replaced) => (s.dropRun i replaced).nextSegment i 0 0 none
    | _ => s.resumeRun i

/-- RESUME of a flow in HOLDING (R54, R65), `s` being the state with the other events discarded. One that comes before the rest waits for
it where the interrupted segment is to be continued; after ANCESTOR none while an ancestor is STOPPING. -/
def State.takeResume (s : State) (i : Nat) : State :=
  let c := s.holdCause i
  let f := s.flow i
  if c = hcStarved ∨ c = hcNarrows then s
  else if c = hcAncestor ∧ ((s.img.ancestors i).any fun j => s.flowState j == flStopping) then s
  else if !f.still then (if c = hcHost ∨ c = hcAncestor then s.modFlow i fun f => { f with reqResume := true } else s)
  else if c = hcRejected then (s.modFlow i fun f => { f with rejecting := false, expect := none }).resumeFlow i
  else s.resumeFlow i

/-- A released REPLACE at a servo boundary (R63): the unstarted segments before it go, and the running one stops for it. In HOLDING with
cause HOST the interrupted segment is kept and goes on at RESUME before the replacing one: the spec has no row for it (DESIGN CHOICE 11).
A segment that waits in COVER_WAIT to be continued is discarded. -/
def State.takeReplace (s : State) (i : Nat) : State :=
  let s1 := s.dropReplaced i
  if s.flowState i = flRunning then s1.beginStop i .replace false
  else if s.flowState i = flCover then s1.dropRun i true
  else s1

/-- FLUSH of a flow (R65): a path-hold stop where it moves; every segment is discarded. -/
def State.takeFlush (s : State) (i : Nat) : State :=
  let s1 := s.noteFlush i
  if (s.flow i).still then (s1.dropRun i false).toFlow i flIdle 0 else s1.beginStop i .idle false

/-- The soft limit that stops a flow at this boundary (R64): of a segment that runs. -/
def State.flowLimit (s : State) (i : Nat) : Option (Nat × Nat) :=
  match (s.flow i).run with
  | some r => if r.stop.isNone ∧ (s.flowState i = flRunning ∨ s.flowState i = flHolding) then s.softHit r else none
  | none => none

/-- The running segment whose synchronisation is abandoned at this boundary (R59). -/
def State.flowLost (s : State) (i : Nat) : Option Run :=
  match (s.flow i).run with
  | some r => if s.flowState i = flRunning ∧ r.stop.isNone ∧ !r.timed ∧ s.syncLost i r then some r else none
  | none => none

/-- The event of a flow taken at a servo boundary: the first of R66 that is present; the others are discarded. -/
def State.flowEvents (s : State) (i : Nat) : State :=
  let f := s.flow i
  let st := s.flowState i
  let clear := s.clearEvents i
  if f.reqSs1 ∧ st ≠ flStopping then clear.flowSs1 i
  else if st = flStopping then
    if (s.img.axesOf i).all s.torqueFree then
      (clear.modFlow i fun f => { f with run := none, released := [], gateAt := none, carryExit := [] }).toFlow i flIdle 0
    else clear
  else if f.reqAnc then (clear.holdStop i hcAncestor false).toFlow i flHolding hcAncestor
  else match s.flowLimit i with
    | some (a, side) => ((clear.limitStop i a side).toFlow i flHolding hcLimit).log (Src.axis a) Ev.SOFT_LIMIT i side
    | none => match s.flowLost i with
      | some r =>
        ((clear.beginStop i (.ended hcSync) true).toFlow i flHolding hcSync).log (Src.island i) Ev.SYNC_ABANDONED r.seg.desc.seq
          (toF32 (s.runSpeed i r))
      | none =>
        if f.reqReplace then clear.takeReplace i
        else if f.reqFlush then clear.takeFlush i
        else if f.reqHold then
          if st = flRunning ∧ !(f.run.any fun r => r.stop == some .idle) then (clear.holdStop i hcHost false).toFlow i flHolding hcHost
          else clear
        else if f.reqResume ∧ st = flHolding then clear.takeResume i
        else if f.reqStand ∧ st = flRunning ∧ !(f.run.any fun r => r.stop.isSome) then clear.beginStop i .stand true
        else clear

/-- A flow in HOLDING with cause STARVED (R57, R65): the exact stop at the target, then the successor from rest once it is released, or
HOLDING with cause REJECTED where a rejection waits (R54). -/
def State.starvedStep (s : State) (i : Nat) : State :=
  let s1 := if (s.flow i).run.isSome then s.runFlow i else s
  let f := s1.flow i
  if f.run.isNone ∧ (f.rejecting ∨ !f.released.isEmpty) then s1.nextSegment i 0 0 none else s1

/-- A flow at its gate (R58, R65): the segment starts at the action's instant, its clock ahead by the time since. -/
def State.gateStep (s : State) (i : Nat) : State :=
  let f := s.flow i
  match f.gateAt with
  | some g =>
    let s1 := s.nextSegment i 0 (((s.now - g : Nat) : Rat) / 1000000000) none
    if s1.flowState i = flRunning then s1.advanceBy i 0 else s1
  | none => if (f.released.head?.any fun g => g.desc.gate) then s else s.nextSegment i 0 0 none

/-- A flow in COVER_WAIT (R50, R65): the segment starts, or the held one goes on, at the first boundary at which its axes are free. -/
def State.coverStep (s : State) (i : Nat) : State :=
  let f := s.flow i
  if s.aggregate i ≠ axEnabled ∧ (f.run.isSome ∨ !f.released.isEmpty) then s
  else match f.run with
    | some _ => s.resumeRun i
    | none => s.nextSegment i 0 0 none

/-- What a flow does at a servo boundary after its event (R65): the table's rows for released segments, covered axes, the gate. -/
def State.flowStep (s : State) (i : Nat) : State :=
  let st := s.flowState i
  if st = flStopping then s.haltStep i
  else if st = flHolding then (if s.holdCause i = hcStarved then s.starvedStep i else s.haltStep i)
  else if st = flGated then s.gateStep i
  else if st = flCover then s.coverStep i
  else if st = flRunning then s.runFlow i
  else s.nextSegment i 0 0 none

/-- INTERPOLATOR_STEP of one island (R13, R61): the event, σ, then the step along the path. -/
def State.interpolate (s : State) (i : Nat) : State :=
  (((s.flowEvents i).stepSigma i).flowStep i).set (Reg.ISL_STATE.STATE i) (s.aggregate i)

/-- Of the requests for a flow at one boundary the first in the order SS1, DISABLE, FLUSH, HOLD, RESUME, ENABLE is taken (R66). -/
def State.rankRequests (s : State) (i : Nat) : State :=
  s.modFlow i fun f =>
    let a := f.reqSs1
    let b := a || f.reqDisable
    let c := b || f.reqFlush
    let d := c || f.reqHold
    { f with
      reqDisable := f.reqDisable && !a, reqFlush := f.reqFlush && !b, reqHold := f.reqHold && !c, reqResume := f.reqResume && !d
      reqEnable := f.reqEnable && !(d || f.reqResume) }

/-- The requests of ISL_CTRL taken at a servo boundary (R48, R66): one for each island; a disable of an axis by any path discards its
enable. -/
def State.islandRequests (s : State) : State :=
  let s0 := forEach s.img.islandIds State.rankRequests s
  let ids := s.img.islandIds
  let en := (ids.filter fun i => (s0.flow i).reqEnable).flatMap s.img.axesOf
  let di := (ids.filter fun i => (s0.flow i).reqDisable).flatMap s.img.axesOf
  let s1 := forEach ids (fun s i => s.modFlow i fun f => { f with reqEnable := false, reqDisable := false }) s0
  let s2 := forEach di State.askDisable s1
  forEach (en.filter fun a => !di.contains a) (fun s a => s.askEnable a 0) s2

/-! ### Meanings: requests of ISL_CTRL, taken at the next servo boundary (R48, R65, R66) -/

/-- ISL_ENABLE (R48). -/
def State.wIslEnable (s : State) (i : Fin 512) : State := s.modFlow i.val fun f => { f with reqEnable := true }
/-- ISL_ENABLE. -/
def execIslEnable (t : Time) (i : Fin 512) (s : State) : Out :=
  byHost t s (Reg.ISL_CTRL i.val) 1 (fun s => s.wIslEnable i)

/-- ISL_DISABLE (R48). -/
def State.wIslDisable (s : State) (i : Fin 512) : State := s.modFlow i.val fun f => { f with reqDisable := true }
/-- ISL_DISABLE. -/
def execIslDisable (t : Time) (i : Fin 512) (s : State) : Out :=
  byHost t s (Reg.ISL_CTRL i.val) 2 (fun s => s.wIslDisable i)

/-- ISL_HOLD (R65). -/
def State.wIslHold (s : State) (i : Fin 512) : State := s.modFlow i.val fun f => { f with reqHold := true }
/-- ISL_HOLD. -/
def execIslHold (t : Time) (i : Fin 512) (s : State) : Out :=
  byHost t s (Reg.ISL_CTRL i.val) 4 (fun s => s.wIslHold i)

/-- ISL_RESUME (R65). -/
def State.wIslResume (s : State) (i : Fin 512) : State := s.modFlow i.val fun f => { f with reqResume := true }
/-- ISL_RESUME. -/
def execIslResume (t : Time) (i : Fin 512) (s : State) : Out :=
  byHost t s (Reg.ISL_CTRL i.val) 8 (fun s => s.wIslResume i)

/-- ISL_FLUSH (R65). -/
def State.wIslFlush (s : State) (i : Fin 512) : State := s.modFlow i.val fun f => { f with reqFlush := true }
/-- ISL_FLUSH. -/
def execIslFlush (t : Time) (i : Fin 512) (s : State) : Out :=
  byHost t s (Reg.ISL_CTRL i.val) 16 (fun s => s.wIslFlush i)

/-- ISL_SS1 (R49, R65): SS1 of the island and its subtree, a path-hold stop of its ancestors. -/
def State.wIslSs1 (s : State) (i : Fin 512) : State := s.ss1 i.val
/-- ISL_SS1. -/
def execIslSs1 (t : Time) (i : Fin 512) (s : State) : Out :=
  byHost t s (Reg.ISL_CTRL i.val) 32 (fun s => s.wIslSs1 i)

end Sys2Proof.Machine
end

