-- ==== Sys2Proof/Machine/Pg.lean ====
section
/-! DEFINITION. The single-axis profile generators (R64, R67–R69). -/

namespace Sys2Proof.Machine

/-- One revolution of axis `a` in axis units; 0 where it does not wrap (R69). -/
def State.revolution (s : State) (a : Nat) : Rat := (s.get (Reg.FB_CPR.CPR a) : Rat) * rabs (s.scaleOf a)

/-- `u` reduced modulo `r` to 0 ≤ u < r. -/
def rmod (u r : Rat) : Rat := if r = 0 then u else u - (u / r).floor * r

/-- The target nearest to `p` by the way round that DIR selects (R69): 0 and 3 the shorter way with ties positive, 1 positive, 2
negative; the target itself where the axis does not wrap. The spec does not say from where the way round is measured for a GO to an axis
in motion: `p` is the present setpoint, not the stopping point (DESIGN CHOICE 12). -/
def State.wayRound (s : State) (a : Nat) (p target : Rat) (dir : Nat) : Rat :=
  let r := s.revolution a
  if r = 0 then target
  else
    let up := rmod (target - p) r
    if dir = 1 then p + up
    else if dir = 2 then (if up = 0 then p else p + up - r)
    else if up ≤ r - up then p + up else p + up - r

/-- The speed cap of a move (R67): AX_VMAX, or PG_VLIM where it is not 0 and lower. -/
def State.pgCap (s : State) (a : Nat) : Rat :=
  let v := f32 (s.word (Reg.AX_VMAX a))
  let l := f32 (s.word (Reg.PG_VLIM a))
  if l = 0 then v else min v l

/-- The phases of a move from `x` straight to `target` in direction `g` (R56, R68, R456). -/
def straight (x : Pva) (target g V A J : Rat) : List Phase :=
  (moveProfile (g * x.v) (g * x.a) (g * (target - x.p)) 0 V A J).map fun ph => { ph with jerk := g * ph.jerk }

/-- The phases from state `x` to rest (R67, R456). -/
def toRest (x : Pva) (A J : Rat) : List Phase :=
  if x.v = 0 ∧ x.a = 0 then [] else speedChange x.v x.a 0 A J

/-- The generator plans to `target` from its present state (R68): it stays where a limit allows no motion; straight where the target lies at or beyond the stopping point in
the direction of motion, otherwise it decelerates to rest first. -/
def State.pgPlan (s : State) (a : Nat) (target V : Rat) : State :=
  let A := f32 (s.word (Reg.AX_AMAX a))
  let J := f32 (s.word (Reg.AX_JMAX a))
  s.modPg a fun p =>
    let x := p.at'
    if A ≤ 0 ∨ J ≤ 0 ∨ V ≤ 0 then { p with phases := [], target := x.p, vlim := V, after := none, cut := decide (x.p ≠ target) }
    else
      let still := decide (x.v = 0) && decide (x.a = 0)
      let e := x.p + (if still then 0 else stopDist x.v x.a A J)
      let g := if still then rsgn (target - x.p) else if x.v = 0 then rsgn x.a else rsgn x.v
      if g = 0 then { p with phases := [], target := target, vlim := V, after := none }
      else if 0 ≤ g * (target - e) then
        { p with phases := straight x target g V A J, target := target, vlim := V, after := none }
      else { p with phases := toRest x A J, target := target, vlim := V, after := some (target, V) }

/-- PG_STAT.ACTIVE and PHASE, and PG_ACTIVE of the islands above (R71), follow the generator. -/
def State.syncPg (s : State) (a : Nat) (active : Bool) : State :=
  let n := (s.pg a).phases.length
  let s1 := (s.setB (Reg.PG_STAT.ACTIVE a) active).set (Reg.PG_STAT.PHASE a) (if active ∧ n ≤ 7 then 8 - n else if active then 1 else 0)
  forEach (s1.img.islandIds.filter fun i => (s1.img.axesOf i).contains a)
    (fun s i => s.setB (Reg.ISL_STATE.PG_ACTIVE i) ((s.img.axesOf i).any fun b => s.on (Reg.PG_STAT.ACTIVE b))) s1

/-- The generator of axis `a` at a servo boundary: a GO or STOP that waits, the soft limit (R64), then one servo step. -/
def State.pgStep (s : State) (a : Nat) : State :=
  let p := s.pg a
  let A := f32 (s.word (Reg.AX_AMAX a))
  let J := f32 (s.word (Reg.AX_JMAX a))
  if !s.on (Reg.PG_STAT.ACTIVE a) && p.go.isNone then (s.modPg a fun q => { q with stopReq := false })
  else if s.axState a ≠ axEnabled ∧ s.axState a ≠ axDisabling then
    (s.modPg a fun q => { q with phases := [], go := none, after := none, stopReq := false }).syncPg a false
  else
    let s0 := if s.on (Reg.PG_STAT.ACTIVE a) then s
      else (s.modPg a fun q => { q with at' := ⟨(s.setpt a).x, 0, 0⟩, phases := [], after := none }).set (Reg.PG_STAT.ACTIVE a) 1
    let s1 := match p.go with
      | some (u, v, d) =>
        ((s0.modPg a fun q => { q with go := none, cut := false }).pgPlan a (s0.wayRound a (s0.pg a).at'.p u d) v).set (Reg.PG_STAT.AT_TARGET a) 0
      | none => s0
    let s2 := if p.stopReq then
        s1.modPg a fun q => { q with
          stopReq := false, after := none, cut := true
          phases := if A = 0 ∨ J = 0 then [] else toRest q.at' A J
          target := if A = 0 ∨ J = 0 then q.at'.p else q.at'.p + stopDist q.at'.v q.at'.a A J }
      else s1
    let s3 := match s2.softSide a with
      | some k =>
        let lim := s2.softLimit a k
        if (s2.pg a).target = lim then s2
        else (((s2.pgPlan a lim (s2.pg a).vlim).modPg a fun q => { q with cut := true }).flag (Reg.PG_STAT.LIMITED a)).log (Src.axis a)
          Ev.SOFT_LIMIT 0xFFFFFFFF k
      | none => s2
    let q := s3.pg a
    let r := runPhases q.phases servoSec q.at'
    if r.2.isEmpty then
      match q.after with
      | some (u, v) =>
        let s4 := s3.modPg a fun z => { z with at' := ⟨r.1.p, 0, 0⟩, phases := [], after := none }
        let s5 := (s4.pgPlan a u v).putSetpt a ⟨r.1.p, 0, 0, 0⟩
        s5.syncPg a true
      | none =>
        let s4 := s3.modPg a fun z => { z with at' := ⟨q.target, 0, 0⟩, phases := [] }
        ((s4.putSetpt a ⟨q.target, 0, 0, 0⟩).setB (Reg.PG_STAT.AT_TARGET a) !q.cut).syncPg a false
    else
      let s4 := s3.modPg a fun z => { z with at' := r.1, phases := r.2 }
      (s4.putSetpt a ⟨r.1.p, r.1.v, r.1.a, 0⟩).syncPg a true

/-- The flows whose running or waiting segment covers axis `a` leave it free for the generator (R67): IDLE or HOLDING with cause HOST. -/
def State.pgAllowed (s : State) (a : Nat) : Bool :=
  s.axState a == axEnabled && s.img.islandIds.all fun i =>
    let f := s.flow i
    let covers := (match f.run with
      | some r => r.start.any fun e => e.1 == a
      | none => false) || f.released.any fun g => (s.covered i g.desc.coverOwn).contains a
    !covers || s.flowState i == flIdle || (s.flowState i == flHolding && s.holdCause i == hcHost)

/-- A target outside an active soft window is clamped to the nearer limit (R67). -/
def State.pgClamp (s : State) (a : Nat) (u : Rat) : Rat :=
  if s.on (Reg.AX_SOFT_CFG.EN a) then
    max (s.unitsOf a (s.int64 (Reg.AX_SOFT_LO_LO a))) (min u (s.unitsOf a (s.int64 (Reg.AX_SOFT_HI_LO a))))
  else u

/-- PG_GO (R67–R69): the target is taken, clamped to the soft window, and the generator starts or retargets at the next servo boundary;
refused where a flow holds the axis or it is not ENABLED. -/
def State.wPgGo (s : State) (a : Fin 256) (dir : Fin 4) : State :=
  if !s.pgAllowed a.val then s.flag (Reg.PG_STAT.REFUSED a.val)
  else
    let u := f64 (s.word64 (Reg.PG_TARGET_LO a.val))
    let c := s.pgClamp a.val u
    let s1 := if c = u then s
      else (s.flag (Reg.PG_STAT.LIMITED a.val)).log (Src.axis a.val) Ev.SOFT_LIMIT 0xFFFFFFFF 2
    s1.modPg a.val fun p => { p with go := some (c, s.pgCap a.val, dir.val), stopReq := false }
/-- PG_GO. -/
def execPgGo (t : Time) (a : Fin 256) (dir : Fin 4) (s : State) : Out :=
  byHost t s (Reg.PG_CTRL a.val) (1 + 4 * dir.val) (fun s => s.wPgGo a dir)

/-- PG_STOP (R67): the generator comes to rest within the axis limits from the next servo boundary. -/
def State.wPgStop (s : State) (a : Fin 256) : State :=
  if s.on (Reg.PG_STAT.ACTIVE a.val) || (s.pg a.val).go.isSome then s.stopPg a.val else s
/-- PG_STOP. -/
def execPgStop (t : Time) (a : Fin 256) (s : State) : Out :=
  byHost t s (Reg.PG_CTRL a.val) 2 (fun s => s.wPgStop a)

end Sys2Proof.Machine
end

