-- ==== Sys2Proof/Machine/Separation.lean ====
section
/-! DEFINITION. The pose unit and the separation engine: poses and stopping paths (R229–R231), person slots (R232, R233), shoals
(R234), pairs, distances and factors (R235–R241), pipelines and the evaluation's time (R17, R18, R238), publication (R241, R242). -/

namespace Sys2Proof.Machine

/-! ### Poses (R229–R231) -/

/-- The present position of axis `a` in counts. -/
def State.counts (s : State) (a : Nat) : Rat := (s.pos a : Rat) / 16777216

/-- A change in axis units as counts. -/
def State.asCounts (s : State) (a : Nat) (u : Rat) : Rat :=
  let k := s.scaleOf a
  if k = 0 then 0 else u / k

/-- The pose of link `l` of island `i` at axis positions `p`, by the SEPA tree. -/
def State.sepaPose (s : State) (p : Nat → Rat) (i l : Nat) : Frame := linkPose s.img.links s.img.bases p i l

/-- A capsule of the image in its link's frame (R375). -/
def BodyDecl.capsule (b : BodyDecl) : Capsule := ⟨v3Of b.nums 0, v3Of b.nums 3, f32 (b.nums.getD 6 0)⟩

/-- The capsules of island `i` placed at axis positions `p`, each with its link (R228). -/
def State.capsulesAt (s : State) (p : Nat → Rat) (i : Nat) : List (Nat × Capsule) :=
  (s.img.capsules.filter fun b => b.island == i).map fun b =>
    let f := s.sepaPose p i b.link
    let c := b.capsule
    (b.link, ⟨(f.place c.a).rnd, (f.place c.b).rnd, c.r⟩)

/-- The stop of the run of flow `j` from its present path state at σ (R230), in real time: a TRACK stops in the cell frame. -/
def State.stopOf (s : State) (j : Nat) (r : Run) : Run :=
  let sg := r.scale (s.sigma j)
  s.stopRun j { r with at' := ⟨r.at'.p, r.at'.v * sg, r.at'.a * sg * sg + r.at'.v * (if sg = s.sigma j then (s.flow j).sigRate else 0)⟩ } .ss1
    true none

/-- The mover's stop of axis `a` (R230): its stop time, and the change of setpoint in axis units at fraction `f` of it. -/
def State.axisStop (s : State) (a : Nat) (f : Rat) : Rat × Rat :=
  if s.on (Reg.PG_STAT.ACTIVE a) then
    let x := (s.pg a).at'
    let A := f32 (s.word (Reg.AX_AMAX a))
    let J := f32 (s.word (Reg.AX_JMAX a))
    let ph := if A = 0 ∨ J = 0 then [] else toRest x A J
    let T := phaseTime ph
    (T, (runPhases ph (f * T) x).1.p - x.p)
  else
    match s.img.islandIds.findSome? fun j => match (s.flow j).run with
      | some r => (r.start.find? fun e => e.1 == a).map fun e => (j, r, e.2)
      | none => none with
    | some (j, r, u0) =>
      let q := s.stopOf j r
      let T := phaseTime q.phases
      let at' := fun p => (s.setpointAt j q a u0 p 1 0).x
      (T, if q.phases.isEmpty then 0 else at' (runPhases q.phases (f * T) q.at').1 - at' q.at')
    | none => (0, 0)

/-- The axis positions of predicted pose `i` (0: present) (R230). -/
def State.posePos (s : State) (i : Nat) (a : Nat) : Rat :=
  if i = 0 then s.counts a else s.counts a + s.asCounts a (s.axisStop a ((i : Rat) / 16)).2

/-- T_stop of island `i`: the longest stop time of its movers (R230). -/
def State.tStop (s : State) (i : Nat) : Rat := (s.img.axesOf i).foldl (fun m a => max m (s.axisStop a 0).1) 0

/-- The velocity of axis `a` at σ = 1, in axis units per second (R231). -/
def State.velAtOne (s : State) (a : Nat) : Rat :=
  if s.on (Reg.PG_STAT.ACTIVE a) then (s.pg a).at'.v
  else
    match s.img.islandIds.findSome? fun j => match (s.flow j).run with
      | some r => (r.start.find? fun e => e.1 == a).map fun e => (j, r, e.2)
      | none => none with
    | some (j, r, u0) => (s.setpointAt j r a u0 r.at' 1 0).v
    | none => (s.setpt a).v

/-- V_CAP of island `i` (R231): the fastest capsule end point between the present setpoint pose and 1 ms of joint velocity on, in mm
per ms. -/
def State.vCap (s : State) (i : Nat) : Rat :=
  let p0 := fun a => (s.countsOf a (s.setpt a).x : Rat) / 16777216
  let p1 := fun a => p0 a + s.asCounts a (s.velAtOne a / 1000)
  let moving := s.img.axisIds.any fun a => s.velAtOne a ≠ 0
  if !moving then 0
  else
    ((s.capsulesAt p0 i).zip (s.capsulesAt p1 i)).foldl
      (fun m e => max m (max (e.2.2.a.sub e.1.2.a).norm (e.2.2.b.sub e.1.2.b).norm)) 0

/-- POSE_COMPUTE at a servo boundary: V_CAP of every island (R231). -/
def State.poseCompute (s : State) : State :=
  forEach s.img.islandIds (fun s i => s.setWord (Reg.SEPI_VCAP i) (toF32 (s.vCap i))) s

/-! ### Persons (R232, R233) -/

/-- PER_STAT.STATE codes. -/
def perEmpty : Nat := 0
def perPresent : Nat := 1
def perUnknown : Nat := 2

/-- Person slot `p`. -/
def State.person (s : State) (p : Nat) : PersonSt := tget default s.persons p

/-- Set the state of person slot `p`. -/
def State.setPerson (s : State) (p st : Nat) : State := s.set (Reg.PER_STAT.STATE p) st

/-- The slots of a PERSON connection's range. -/
def State.connSlots (s : State) (c : Nat) : List Nat :=
  match s.img.pconns.find? fun d => d.conn == c with
  | some d => (List.range d.count).map (d.first + ·)
  | none => []

/-- Every slot of a connection becomes UNKNOWN (R233, R293). -/
def State.connUnknown (s : State) (c : Nat) : State :=
  forEach (s.connSlots c) (fun s p => s.setPerson p perUnknown) s

/-- A reserved bit of a person message is not 0 (R232). -/
def personReserved (d : List Nat) : Bool := bits (leAt d 0 1) 6 2 != 0 || bits (leAt d 1 1) 2 6 != 0 || leAt d 6 2 != 0

/-- The used capsules of a person message in the sensor frame (R232): units of 2 mm. -/
def personCaps (d : List Nat) : List Capsule :=
  (List.range 4).filterMap fun c =>
    let o := 8 + 14 * c
    let at' := fun k => (2 * sx 16 (leAt d (o + 2 * k) 2) : Rat)
    let r := leAt d (o + 12) 2
    if r = 0 then none else some ⟨⟨at' 0, at' 1, at' 2⟩, ⟨at' 3, at' 4, at' 5⟩, r⟩

/-- The least reason of R233 to reject a person message for slot index `i` of a range of `n` slots; 0 takes it. -/
def personReason (d : List Nat) (n : Nat) : Nat :=
  if n ≤ bits (leAt d 0 1) 0 6 then 1
  else if personReserved d then 2
  else if bitAt (leAt d 1 1) 0 && (personCaps d).isEmpty then 3 else 0

/-- Commit person data to slot `p` (R233): PRESENT or EMPTY, capsules in the cell frame. -/
def State.putPerson (s : State) (p c : Nat) (d : List Nat) (f : Frame) (remote : Bool) : State :=
  let present := bitAt (leAt d 1 1) 0
  let st : PersonSt :=
    { caps := if present then (personCaps d).map fun k => ⟨(f.place k.a).rnd, (f.place k.b).rnd, k.r⟩ else []
      zd := leAt d 2 2, vh := leAt d 4 2, vhValid := bitAt (leAt d 1 1) 1, at' := some s.now }
  let s1 := { s with persons := tput default s.persons p st }
  let s2 := ((s1.setPerson p (if present then perPresent else perEmpty)).set (Reg.PER_STAT.CONN p) c).setB (Reg.PER_STAT.REMOTE p) remote
  forN 16 (fun s w => s.setWord (Reg.PER_RAW p w) (leAt d (4 * w) 4)) s2

/-- One accepted person message is committed or rejected (R233). -/
def State.commitPerson (s : State) (m : PersonMsg) : State :=
  match s.img.pconns.find? fun d => d.conn == m.conn with
  | none => s
  | some d =>
    let i := bits (leAt m.data 0 1) 0 6
    let r := personReason m.data d.count
    if r = 0 then s.putPerson (d.first + i) m.conn m.data (frameOf d.t) m.remote
    else
      let s1 := s.log Src.separation Ev.PERSON_REJECTED m.conn r
      if r = 1 then s1.connUnknown m.conn else s1.setPerson (d.first + i) perUnknown

/-- PERSON_COMMIT at a servo boundary (R16, R233): the messages due are committed in the order of acceptance; a later one for the
same slot overwrites. -/
def State.personCommit (s : State) : State :=
  let n := s.dev.cycle.toNat / 4
  let due := s.sep.persons.filter fun m => m.use ≤ n
  forEach due State.commitPerson { s with sep := { s.sep with persons := s.sep.persons.filter fun m => !decide (m.use ≤ n) } }

/-! ### Shoals (R234) -/

/-- Shoal `k` is declared: a REG pair of the SEPA section loads its SH_CFG (R235, R373). -/
def Img.shoalUsed (g : Img) (k : Nat) : Bool := g.shoalsUsed.contains k

/-- Writes of SH_CFG.ACTIVE are committed at a servo boundary (R234). -/
def State.shoalCommit (s : State) : State :=
  forEach s.sep.shoalWrites (fun s w => s.setB (Reg.SH_CFG.ACTIVE w.1) w.2) { s with sep := { s.sep with shoalWrites := [] } }

/-- The displacement of a shoal carried on line `k` from SH_LREF, in mm. -/
def State.shoalDisp (s : State) (n k : Nat) : Rat :=
  f32 (s.word (Reg.LINE_SCALE k)) * (wrapS 64 (s.int64 (Reg.LINE_POS_LO k) - s.int64 (Reg.SH_LREF_LO n)) : Rat) / 65536

/-- The box of shoal `n` at the present line sample (R234). -/
def State.shoalBox (s : State) (n : Nat) : OBox :=
  let v := fun (r : Nat → Nat → Nat) (k : Nat) => f32 (s.word (r n k))
  let c : V3 := ⟨v Reg.SH_C 0, v Reg.SH_C 1, v Reg.SH_C 2⟩
  let d : V3 := ⟨v Reg.SH_D 0, v Reg.SH_D 1, v Reg.SH_D 2⟩
  { c := if s.on (Reg.SH_CFG.ON_LINE n) then c.add (d.scale (s.shoalDisp n (s.get (Reg.SH_CFG.LINE n)))) else c
    h := ⟨v Reg.SH_H 0, v Reg.SH_H 1, v Reg.SH_H 2⟩
    w := v Reg.SH_Q 0, q := ⟨v Reg.SH_Q 1, v Reg.SH_Q 2, v Reg.SH_Q 3⟩ }

/-! ### Factors (R239, R240) -/

/-- The encoding of a factor σ in 0 … 1 (R60). -/
def encFactor (x : Rat) : Nat := (65535 * clamp01 x).floor.toNat

/-- F of an island–person pair at distance `d` in mm (R239). -/
def State.personFactor (s : State) (i p : Nat) (d : Rat) : Nat :=
  let x := s.person p
  let a := f32 (s.word (Reg.ISL_STOP_DEC i))
  let j := f32 (s.word (Reg.ISL_STOP_JERK i))
  let tr := f32 (s.word (Reg.SEPI_TR i))
  let vmin := f32 (s.word (Reg.SEPI_VHMIN i))
  let vh := if x.vhValid then max ((x.vh : Rat) / 1000) vmin else max (8 / 5) vmin
  let b := tr + vh / a + a / (2 * j)
  let c0 := vh * (tr + a / j) + f32 (s.word (Reg.SEPI_C i)) + (x.zd : Rat) / 1000 + f32 (s.word (Reg.SEPI_ZR i))
  let dm := d / 1000
  let vcap := f32 (s.word (Reg.SEPI_VCAP i))
  if a ≤ 0 ∨ j ≤ 0 ∨ dm ≤ c0 then 0
  else if vcap = 0 then 0xFFFF
  else encFactor (a * (rsqrt (b * b + 2 * (dm - c0) / a) - b) / vcap)

/-- F of a distance between STOP and SLOW (R240). -/
def rampFactor (d stop slow : Rat) : Nat :=
  if slow ≤ stop then (if stop < d then 0xFFFF else 0) else encFactor ((d - stop) / (slow - stop))

/-! ### Pairs (R235–R237) -/

/-- The person slots in the mask of island `i`. -/
def Img.personMask (g : Img) (i : Nat) : List Nat :=
  match g.masks.find? fun m => m.island == i with
  | some m => onesBelow 64 m.persons
  | none => []

/-- The shoals in the mask of island `i`. -/
def Img.shoalMask (g : Img) (i : Nat) : List Nat :=
  match g.masks.find? fun m => m.island == i with
  | some m => onesBelow 256 m.shoals
  | none => []

/-- The links of island `i` from `l` to the base, itself first. -/
def Img.linkPath (g : Img) (i : Nat) : Nat → Nat → List Nat
  | 0, _ => []
  | n + 1, l =>
    match g.links.find? fun d => d.island == i && d.link == l with
    | some d => l :: (if d.parent = 0xFF then [] else g.linkPath i n d.parent)
    | none => []

/-- The joints between two links of island `i` in its tree (R235). -/
def Img.jointsApart (g : Img) (i l m : Nat) : Nat :=
  let p := g.linkPath i 256 l
  let q := g.linkPath i 256 m
  (((p.filter fun x => !q.contains x) ++ (q.filter fun x => !p.contains x)).filter fun x =>
    g.links.any fun d => d.island == i && d.link == x && d.axis != 0xFFFF).length

/-- The capsule pairs of a pair-table entry at one pose; of an island with itself, over links at least two joints apart (R235). -/
def Img.entryPairs (g : Img) (a b : Nat) : Nat :=
  let caps := fun i => (g.capsules.filter fun c => c.island == i).map (·.link)
  if a = b then ((caps a).flatMap fun x => (caps a).filter fun y => decide (x < y) && decide (2 ≤ g.jointsApart a x y)).length
  else (caps a).length * (caps b).length

/-- The capsules of an island at each of the 17 poses. -/
def State.swept (s : State) (i : Nat) : List (List (Nat × Capsule)) :=
  (List.range 17).map fun k => s.capsulesAt (s.posePos k) i

/-- The distances of two lists of capsules, or of a list with itself over links at least two joints apart. -/
def State.pairDists (s : State) (a b : Nat) (ca cb : List (Nat × Capsule)) : List Rat :=
  ca.flatMap fun x => cb.filterMap fun y =>
    if a = b ∧ (y.1 ≤ x.1 ∨ s.img.jointsApart a x.1 y.1 < 2) then none else some (capCap x.2 y.2)

/-- The valid entries of the pair table with their islands. -/
def State.pairEntries (s : State) : List (Nat × Nat × Nat) :=
  ((List.range 1024).filter fun e => s.on (Reg.PAIR_CFG.VALID e)).map fun e =>
    (e, s.get (Reg.PAIR_CFG.ISL_A e), s.get (Reg.PAIR_CFG.ISL_B e))

/-- The minimum distance of a pair-table entry over the 17 poses, pose against pose (R237). -/
def State.entryDist (s : State) (a b : Nat) : Option Rat :=
  leastMm (((s.swept a).zip (s.swept b)).flatMap fun e => s.pairDists a b e.1 e.2)

/-- The terms of island `i` (R239–R241): F, cause, partner and distance of each pair class member; UNKNOWN slots without a distance. -/
def State.sepTerms (s : State) (i : Nat) (ent : List (Nat × Nat × Nat × Option Rat)) : List (Nat × Nat × Nat × Option Rat) :=
  let sw := s.swept i
  let caps := sw.flatMap id
  let persons := (s.img.personMask i).filterMap fun p =>
    let st := s.get (Reg.PER_STAT.STATE p)
    if st = perUnknown then some (0, 5, p, none)
    else if st = perPresent then
      (leastMm (caps.flatMap fun x => (s.person p).caps.map fun y => capCap x.2 y)).map fun d => (s.personFactor i p d, 1, p, some d)
    else none
  let shoals := ((s.img.shoalMask i).filter fun k => s.img.shoalUsed k && s.on (Reg.SH_CFG.ACTIVE k)).filterMap fun k =>
    (leastMm (caps.map fun x => capBox x.2 (s.shoalBox k))).map fun d =>
      (rampFactor d (f32 (s.word (Reg.SEPI_SH_STOP i))) (f32 (s.word (Reg.SEPI_SH_SLOW i))), 2, k, some d)
  let isl := ent.filterMap fun e =>
    if e.2.1 = i ∨ e.2.2.1 = i then
      e.2.2.2.map fun d => (rampFactor d (f32 (s.word (Reg.PAIR_STOP e.1))) (f32 (s.word (Reg.PAIR_SLOW e.1))), 3,
        (if e.2.1 = i then e.2.2.1 else e.2.1), some d)
    else none
  persons ++ shoals ++ isl

/-- The lesser of two terms: by factor, then by cause code, then by partner (R241). -/
def lessTerm (x y : Nat × Nat × Nat × Option Rat) : Bool :=
  x.1 < y.1 || (x.1 == y.1 && (x.2.1 < y.2.1 || (x.2.1 == y.2.1 && x.2.2.1 ≤ y.2.2.1)))

/-- The least distance of a class as its register shows it: a class whose least distance lies beyond every cull margin may have been
culled, which shows +∞ (R236): a free choice. -/
def State.classWord (s : State) (ts : List (Nat × Nat × Nat × Option Rat)) (cause : Nat) : Nat × State :=
  let l := (ts.filter fun x => x.2.1 == cause)
  let d := leastDist (l.filterMap fun x => x.2.2.2)
  if l.all fun x => x.1 == 0xFFFF then
    let r := s.freeBelow 8 2
    (if r.1 = 0 then distWord d else f32Inf, r.2)
  else (distWord d, s)

/-- What an island's terms give (R241): the least one; 0xFFFF without a pair. -/
def State.islandEval (s : State) (i : Nat) (ent : List (Nat × Nat × Nat × Option Rat)) : IslandEval × State :=
  let ts := s.sepTerms i ent
  let best := ts.foldl (fun (b : Nat × Nat × Nat × Option Rat) x => if lessTerm x b then x else b) (0xFFFF, 0, 0, none)
  let p := s.classWord ts 1
  let h := p.2.classWord ts 2
  let k := h.2.classWord ts 3
  ({ island := i, factor := best.1, cause := if best.1 = 0xFFFF then 0 else best.2.1
     partner := if best.1 = 0xFFFF then 0 else best.2.2.1, dp := p.1, ds := h.1, di := k.1
     paired := ts.any fun x => x.2.1 != 5 }, k.2)

/-- The device states in which the engine runs (R243): BRING_UP to STOPPING. -/
def State.sepRuns (s : State) : Bool :=
  let st := s.devState
  st == devBringUp || st == devReduced || st == devAutomatic || st == devStopping

/-- The pairs that the classes of R235 form over the 17 poses. -/
def State.pairsFormed (s : State) (ent : List (Nat × Nat × Nat × Option Rat)) : Nat :=
  let nc := fun i => (s.img.capsules.filter fun b => b.island == i).length
  let own := s.img.islandIds.foldl (fun n i =>
    n + nc i * ((((s.img.personMask i).filter fun p => s.get (Reg.PER_STAT.STATE p) == perPresent).map
        fun p => (s.person p).caps.length).foldl (· + ·) 0 +
      ((s.img.shoalMask i).filter fun k => s.img.shoalUsed k && s.on (Reg.SH_CFG.ACTIVE k)).length)) 0
  17 * (own + ent.foldl (fun n e => n + s.img.entryPairs e.2.1 e.2.2.1) 0)

/-- SEP_CAPTURE at a separation boundary (R230, R243): T_stop, and the evaluation of the capture. How many of the pairs formed pass
the broad phase is a free value (R236). -/
def State.sepCapture (s : State) : State :=
  let ent := s.pairEntries.map fun e => (e.1, e.2.1, e.2.2, s.entryDist e.2.1 e.2.2)
  let s1 := forEach s.img.islandIds (fun s i => s.setWord (Reg.SEPI_TSTOP i) (toF32 (s.tStop i))) s
  let r := s1.img.islandIds.foldl (fun (acc : List IslandEval × State) i =>
    let e := acc.2.islandEval i ent
    (acc.1 ++ [e.1], e.2)) ([], s1)
  let n := r.2.freeBelow 6 (s.pairsFormed ent + 1)
  let ev : SepEval :=
    { start := s.dev.cycleTsc, islands := r.1, entries := ent.map fun e => (e.1, distWord e.2.2.2), clear := [], done := 0
      since := s.dev.cycleTsc + 5000, total := n.1, computed := false }
  { n.2 with sep := { n.2.sep with eval := some ev } }

/-! ### Time of the evaluation (R18, R238) -/

/-- The pairs evaluated by instant `t` with `p` pipelines, one per nanosecond each. -/
def SepEval.doneBy (e : SepEval) (p t : Nat) : Nat := min e.total (e.done + (t - e.since) * p)

/-- The end of the evaluation, if the pairs end with `p` pipelines. -/
def SepEval.endsAt (e : SepEval) (p : Nat) : Option Nat :=
  if e.total ≤ e.done then some e.since else if p = 0 then none else some (e.since + (e.total - e.done + p - 1) / p)

/-- The clearance evaluations that end while `room` pairs can still be evaluated, in their order (R242); the others report not clear. -/
def clearedIn (room : Nat) : List ClearEval → List ClearEval
  | [] => []
  | x :: rest => { x with clear := x.clear && decide (x.pairs ≤ room) } :: clearedIn (room - x.pairs) rest

/-- The islands that an incomplete evaluation leaves with unevaluated pairs: which of those with a pair is a free choice, at least one. -/
def State.incompleteIslands (s : State) (l : List Nat) : List Nat × State :=
  let r := l.foldl (fun (acc : List Nat × State) i =>
    let b := acc.2.freeBelow 7 2
    (if b.1 = 1 then acc.1 ++ [i] else acc.1, b.2)) ([], s)
  (if r.1.isEmpty then l else r.1, r.2)

/-- SEP_DEADLINE at the start of ring cycle 16k + 15 (R17, R18): the computed factors; an incomplete evaluation gives its islands 0. -/
def State.sepDeadline (s : State) : State :=
  match s.sep.eval with
  | none => s
  | some e =>
    if e.computed then s
    else
      let p := s.sep.pipes.length
      let dl := e.start + 15 * ringNs
      let fin := e.endsAt p
      let ok := match fin with
        | some t => decide (t ≤ dl)
        | none => false
      let done := if ok then e.total else e.doneBy p dl
      let bad := if ok then ([], s) else s.incompleteIslands ((e.islands.filter (·.paired)).map (·.island))
      let isl := e.islands.map fun x =>
        if bad.1.contains x.island then { x with factor := 0, cause := 4, partner := 0 } else x
      let s0 := { bad.2 with sep := { bad.2.sep with eval := some { e with islands := isl, computed := true
                                                                           clear := clearedIn ((dl - fin.getD dl) * p) e.clear } } }
      let s1 := if ok then s0
        else (s0.flag Reg.SEP_STAT.INCOMPLETE).log Src.separation Ev.SEP_INCOMPLETE (e.total - done) bad.1.length
      let last := satU 16 (((if ok then fin.getD dl else dl) - e.start) / 10)
      let s2 := ((s1.setWord Reg.SEP_PAIRS done).set Reg.SEP_TIME.LAST last).set Reg.SEP_TIME.PEAK
        (max (s1.get Reg.SEP_TIME.PEAK) last)
      forEach isl (fun s x =>
        (((s.set (Reg.SEPI_FACTOR.COMPUTED x.island) x.factor).setWord (Reg.SEPI_DMIN_P x.island) x.dp).setWord
          (Reg.SEPI_DMIN_S x.island) x.ds).setWord (Reg.SEPI_DMIN_I x.island) x.di) s2

/-! ### Publication (R241–R243) -/

/-- The rise rule for one island (R241). -/
def State.publishIsland (s : State) (x : IslandEval) : State :=
  let i := x.island
  let p := s.get (Reg.SEPI_FACTOR.PUBLISHED i)
  let hold := s.get Reg.SEP_CFG.RISE_HOLD
  let cnt := s.get (Reg.SEPI_RISE.COUNT i)
  let low := if cnt = 0 then x.factor else min (tget 0xFFFF s.sep.rise i) x.factor
  let put := fun (s : State) (f cause partner : Nat) =>
    ((s.set (Reg.SEPI_FACTOR.PUBLISHED i) f).set (Reg.SEPI_CAUSE.CAUSE i) cause).set (Reg.SEPI_CAUSE.PARTNER i) partner
  let zero := fun (s : State) => { (s.set (Reg.SEPI_RISE.COUNT i) 0) with sep := { s.sep with rise := tput 0xFFFF s.sep.rise i 0xFFFF } }
  if x.factor ≤ p then
    let s1 := zero (put s x.factor x.cause x.partner)
    if x.factor = 0 ∧ p ≠ 0 then s1.log (Src.island i) Ev.SEP_HALT x.cause x.partner else s1
  else if hold ≤ cnt + 1 then
    zero (if low < x.factor then put s low 6 0 else put s low x.cause x.partner)
  else
    { ((put s p 6 0).set (Reg.SEPI_RISE.COUNT i) (cnt + 1)) with sep := { s.sep with rise := tput 0xFFFF s.sep.rise i low } }

/-- FACTOR_PUBLISH at a separation boundary (R17, R241, R242): factors and pair distances of the evaluation that has ended, and free
spares enter service (R238). -/
def State.sepPublish (s : State) : State :=
  let s0 := { s with sep := { s.sep with pipes := s.sep.pipes ++ s.sep.entering, entering := [] } }
  let s1 := (s0.set Reg.SEP_STAT.PIPES s0.sep.pipes.length).setB Reg.SEP_STAT.DEGRADED (s0.sep.pipes.length < 64)
  match s1.sep.eval with
  | some e =>
    if e.computed ∧ s1.sepRuns then
      let s2 := forEach e.islands State.publishIsland s1
      forEach e.entries (fun s x => s.setWord (Reg.PAIR_DMIN x.1) x.2) s2
    else s1
  | none => s1

/-- The engine does not run: every published factor reads 0 (R243). -/
def State.sepStop (s : State) : State :=
  forEach s.img.islandIds (fun s i => ((s.set (Reg.SEPI_FACTOR.PUBLISHED i) 0).set (Reg.SEPI_RISE.COUNT i) 0))
    { s with sep := { s.sep with eval := none, rise := [] } }

/-! ### Meanings -/

/-- PIPE_FAULT (R238): a result of physical pipeline `p` fails its residue check: it leaves service at once, its pairs of the cycle are
reissued, and a free spare enters at the next separation boundary. -/
def execPipeFault (t : Time) (p : Fin 72) (s : State) : Out :=
  live t s fun s =>
    if !s.sep.pipes.contains p.val then s
    else
      let n := s.sep.pipes.length
      let redo := fun (e : SepEval) =>
        if e.computed ∨ s.now < e.since then e
        else
          let d := e.doneBy n s.now
          { e with done := d - d / n, since := s.now }
      let sp := s.sep.spares.head?
      let s1 := { s with sep := { s.sep with
        pipes := s.sep.pipes.filter (· != p.val), spares := s.sep.spares.drop 1
        entering := s.sep.entering ++ sp.toList, eval := s.sep.eval.map redo } }
      let s2 := (s1.set (Reg.PIPE_OUT.OUT (p.val / 32)) (withBit (s1.get (Reg.PIPE_OUT.OUT (p.val / 32))) (p.val % 32) true)).set
        Reg.SEP_STAT.PIPES (n - 1)
      let s3 := s2.set Reg.SEP_STAT.SPARES_FREE s2.sep.spares.length
      (s3.setB Reg.SEP_STAT.DEGRADED (n - 1 < 64)).log Src.separation Ev.PIPE_FAULT p.val (sp.getD 0xFF)

/-- SHOAL_ACTIVE_WRITE (R234): a write of SH_CFG.ACTIVE waits for the next servo boundary; ignored for an undeclared shoal. -/
def State.wShoalActiveWrite (s : State) (k : Fin 256) (active : Bool) : State :=
  if s.img.shoalUsed k.val then { s with sep := { s.sep with shoalWrites := s.sep.shoalWrites ++ [(k.val, active)] } } else s
/-- SHOAL_ACTIVE_WRITE. -/
def execShoalActiveWrite (t : Time) (k : Fin 256) (active : Bool) (s : State) : Out :=
  byHost t s (Reg.SH_CFG k.val) (b2n active) (fun s => s.wShoalActiveWrite k active)

/-- SEP_CLR_PEAK (R245). -/
def State.wSepClrPeak (s : State) : State := s.set Reg.SEP_TIME.PEAK 0
/-- SEP_CLR_PEAK. -/
def execSepClrPeak (t : Time) (s : State) : Out :=
  byHost t s Reg.SEP_CTRL 1 State.wSepClrPeak

end Sys2Proof.Machine
end

