-- ==== Sys2Proof/Machine/ChannelA.lean ====
section
/-! DEFINITION. Channel A, the safety core (R270, R271, R281–R286, R289–R295): the sphere model, island stops and their supervision,
its reports, and the safety message layer. -/

namespace Sys2Proof.Machine

/-- Channel A runs (SAFE_STAT.A_STATE RUN). -/
def State.chaRuns (s : State) : Bool := s.get Reg.SAFE_STAT.A_STATE = 2

/-- Change channel A. -/
def State.modA (s : State) (f : ChA → ChA) : State := { s with cha := f s.cha }

/-- Channel A's supervision of island `i`. -/
def State.isa (s : State) (i : Nat) : IsaSt := tget default s.isas i
/-- Change channel A's supervision of island `i`. -/
def State.modIsa (s : State) (i : Nat) (f : IsaSt → IsaSt) : State := { s with isas := tput default s.isas i (f (s.isa i)) }

/-- A binary32 register as a number. -/
def State.real (s : State) (a : Nat) : Rat := f32 (s.word a)

/-! ### The sphere model (R282) -/

/-- A sphere: centre and radius in mm. -/
structure Ball where
  c : V3
  r : Rat

/-- The link spheres of island `i` at the accepted positions, each with its link (R282). -/
def State.balls (s : State) (i : Nat) : List (Nat × Ball) :=
  (s.img.spheres.filter fun b => b.island == i).map fun b =>
    let f := linkPose s.img.safeLinks s.img.safeBases s.counts i b.link
    (b.link, ⟨(f.place (v3Of b.nums 0)).rnd, f32 (b.nums.getD 3 0)⟩)

/-- The midpoint of the bounding box of points. -/
def midBox (l : List V3) : V3 :=
  let least := fun (g : V3 → Rat) => l.foldl (fun m p => min m (g p)) (g (l.headD default))
  let most := fun (g : V3 → Rat) => l.foldl (fun m p => max m (g p)) (g (l.headD default))
  let mid := fun g => (least g + most g) / 2
  ⟨mid (·.x), mid (·.y), mid (·.z)⟩

/-- The sphere that stands for a person slot (R282). -/
def personBall (caps : List Capsule) : Ball :=
  let pts := caps.flatMap fun k => [k.a, k.b]
  let c := midBox pts
  ⟨c, (pts.map fun p => (p.sub c).norm).foldl max 0 + (caps.map fun k => k.r).foldl max 0⟩

/-- v_m of island `i` in m/s (R282): the greatest displacement of a sphere centre since the last capture, over the time between; 0
without a last capture. -/
def State.vm (s : State) (i : Nat) (balls : List (Nat × Ball)) (dt : Nat) : Rat :=
  let old := s.cha.centres.filter fun e => e.1 == i
  let d := balls.foldl (fun m b =>
    match old.find? fun e => e.2.1 == b.1 with
    | some e => max m (b.2.c.sub e.2.2).norm
    | none => m) 0
  if dt = 0 then 0 else d * 1000000 / (dt : Rat)

/-- T_sA and S_sA of R282; free values where a_A or j_A is 0. -/
def State.stopA (s : State) (i : Nat) (vr : Rat) : Rat × Rat :=
  let a := s.real (Reg.ISA_DEC i)
  let j := s.real (Reg.ISA_JERK i)
  if a = 0 ∨ j = 0 then (Config.freeRat 9 (2 * i), Config.freeRat 9 (2 * i + 1))
  else (vr / a + a / j, vr * vr / (2 * a) + vr * a / (2 * j))

/-- What the SAFE section declares of island `i`; zeros where it declares nothing. -/
def Img.safeIsl (g : Img) (i : Nat) : SafeIsl := (g.safeIsls.find? fun d => d.island == i).getD default

/-- d_A minus the right-hand side of R282 in m, for person slot `p`. -/
def State.marginA (s : State) (i p : Nat) (vr : Rat) (b : Ball) : Rat :=
  let x := s.person p
  let g := s.img.safeIsl i
  let pb := personBall x.caps
  let vmin := f32 g.vhMin
  let vh := if x.vhValid then max ((x.vh : Rat) / 1000) vmin else max (8 / 5) vmin
  let ta := s.real (Reg.ISA_TR i)
  let st := s.stopA i vr
  (((b.c.sub pb.c).norm - b.r - pb.r) / 1000) - (vh * (ta + st.1) + vr * ta + st.2 + f32 g.ca + (x.zd : Rat) / 1000 + f32 g.zra)

/-- The distance in m from a sphere to a safety-rated shoal (R283). -/
def ShoalDecl.dist (d : ShoalDecl) (b : Ball) : Rat :=
  let q := d.nums
  let o : OBox := { c := v3Of q 0, h := v3Of q 3, w := f32 (q.getD 6 0), q := v3Of q 7 }
  capBox ⟨b.c, b.c, b.r⟩ o / 1000

/-- The person slots of island `i`'s SAFE mask in a state. -/
def State.maskIn (s : State) (i st : Nat) : List Nat :=
  (onesBelow 64 (s.img.safeIsl i).persons).filter fun p => s.get (Reg.PER_STAT.STATE p) == st

/-- The ring groups that carry an axis of the subtree of island `i`. -/
def State.groupsOf (s : State) (i : Nat) : Nat := (s.img.axesOf i).foldl (fun m a => Nat.lor m (2 ^ s.ringOf a)) 0

/-- Does the supervision of a latched island find a failure (R270, R271)? -/
def State.supervise (s : State) (i : Nat) (vr : Rat) (above : Nat) : Bool :=
  let x := s.isa i
  if s.on (Reg.ISA_STAT.SUPERVISING i) then
    let t : Rat := ((s.dev.cycleTsc - x.since : Nat) : Rat) / 1000000000
    let lim := max (x.v0 - s.real (Reg.ISA_DEC i) * max (t - s.real (Reg.ISA_TR i)) 0) 0 + s.real (Reg.ISA_VTOL i)
    decide (lim < vr) || (decide (s.real (Reg.ISA_SS1_T i) < t) && !(s.img.axesOf i).all s.torqueFree)
  else decide (2 ≤ above)

/-- The capture and evaluation of one island (R281–R285): ISA_MARGIN, ISA_SPEED, its violations, and its supervision. -/
def State.evalIsland (s : State) (i dt : Nat) : State :=
  let balls := s.balls i
  let v := s.vm i balls dt
  let vr := v + s.real (Reg.ISA_VTOL i)
  let moving := decide (s.real Reg.SAFE_VSS < vr)
  let margins := (s.maskIn i perPresent).flatMap fun p => balls.map fun b => s.marginA i p vr b.2
  let st := s.stopA i vr
  let g := s.img.safeIsl i
  let shoal := s.img.safeShoals.any fun d => bitAt g.shoals d.shoal && balls.any fun b =>
    decide (d.dist b.2 < vr * s.real (Reg.ISA_TR i) + st.2 + f32 g.zra + f32 g.shMargin)
  let unknown := !(s.maskIn i perUnknown).isEmpty
  let slow := s.devState == devReduced || !s.on Reg.DEV_STATE.STARTUP_TEST_DONE
  let fastSls := slow && decide (1 / 4 + s.real Reg.SAFE_SLS_TOL < v)
  let x := s.isa i
  let fast := if fastSls then x.fast + 1 else 0
  let above := if moving then x.above + 1 else 0
  let found := (if moving && margins.any (fun m => decide (m < 0)) then [6] else []) ++ (if moving && shoal then [7] else []) ++
    (if moving && unknown then [8] else []) ++ (if decide (2 ≤ fast) then [9] else [])
  let latched := s.on (Reg.ISA_STAT.LATCHED i)
  let bad := latched && s.supervise i vr above
  let off := latched && s.on (Reg.ISA_STAT.SUPERVISING i) && (s.img.axesOf i).all s.torqueFree
  let s1 := (s.setWord (Reg.ISA_MARGIN i) (match leastDist margins with
    | some m => toF32 (m * 1000)
    | none => f32Inf)).setWord (Reg.ISA_SPEED i) (toF32 v)
  let s2 := if off then s1.set (Reg.ISA_STAT.SUPERVISING i) 0 else s1
  let s3 := s2.setB (Reg.ISA_STAT.STANDSTILL_REQ i) (unknown || (latched && !s2.on (Reg.ISA_STAT.SUPERVISING i)))
  let s4 := s3.modIsa i fun y => if latched then { y with fast := fast, above := if off then 0 else above }
                                 else { v0 := vr, since := s.dev.cycleTsc, fast := fast, above := 0 }
  s4.modA fun a => { a with
    found := a.found ++ found.map fun c => (i, c)
    stoGroups := if bad then Nat.lor a.stoGroups (s.groupsOf i) else a.stoGroups
    centres := a.centres ++ balls.map fun b => (i, b.1, b.2.c) }

/-- The accepted input states (R275): bit i where input pair i is accepted closed. -/
def State.closedInputs (s : State) : Nat := (List.range 8).foldl (fun m i => m + s.get (Reg.IN_STAT.CLOSED i) * 2 ^ i) 0

/-- SAFETY_CYCLE_CAPTURE at the servo boundary of ring cycle 64j (R281). -/
def State.safetyCapture (s : State) : State :=
  if !s.chaRuns then s
  else
    let dt := match s.cha.lastAt with
      | some t0 => s.dev.cycleTsc - t0
      | none => 0
    let old := s.cha.centres
    let s0 := s.modA fun a => { a with
                             capturedAt := some s.dev.cycleTsc, lastAt := some s.dev.cycleTsc, found := [], stoGroups := 0, done := false
                             inputs := s.closedInputs }
    let s1 := forEach s.img.islandIds (fun s i => s.evalIsland i dt) s0
    s1.modA fun a => { a with centres := a.centres.drop old.length }

/-- CHA_EVALUATION_DONE (R281): the evaluation of the capture ends; CHA_STAT shows its time. -/
def execChaEvaluationDone (t : Time) (s : State) : Out :=
  live t s fun s =>
    match s.cha.capturedAt with
    | some t0 =>
      if s.cha.done ∨ !s.chaRuns then s
      else
        let us := satU 16 ((s.now - t0) / 1000)
        let s1 := s.modA fun a => { a with done := true }
        (s1.set Reg.CHA_STAT.EVAL_LAST us).set Reg.CHA_STAT.EVAL_PEAK (max us (s.get Reg.CHA_STAT.EVAL_PEAK))
    | none => s

/-- An island stop is latched (R268, R270, R271). -/
def State.latchIsland (s : State) (i cause : Nat) : State :=
  if s.on (Reg.ISA_STAT.LATCHED i) then s
  else
    let s1 := ((s.set (Reg.ISA_STAT.LATCHED i) 1).set (Reg.ISA_STAT.CAUSE i) cause).set (Reg.ISA_STAT.SUPERVISING i) 1
    (s1.log Src.channelA Ev.SAFETY_STOP (cause + 512 + 65536 * noOne) i).motionStop (2 :: leBytes 2 i)

/-- The demands of the last capture are latched at the first servo boundary after the evaluation has ended (R281). -/
def State.latchDemands (s : State) : State :=
  if s.cha.capturedAt.isSome && s.cha.done then
    let s1 := forEach s.cha.found (fun s e => s.latchIsland e.1 e.2) (s.modA fun a => { a with capturedAt := none })
    if s1.cha.stoGroups = 0 then s1 else s1.demand 10 true s1.cha.stoGroups noOne
  else s

/-- Channel A halts (R286): its fault word gives cause 16. -/
def State.chaHalt (s : State) (word : Bool) : State :=
  let s1 := (s.set Reg.SAFE_STAT.A_STATE 3).modA fun a => { a with capturedAt := none, report := none }
  if word then s1.demand 16 false allGroups noOne else s1

/-- LOCKSTEP_MISMATCH (R286): `word` tells whether the fault word could be sent. -/
def execLockstepMismatch (t : Time) (word : Bool) (s : State) : Out :=
  live t s fun s => if s.get Reg.SAFE_STAT.A_STATE = 3 then s else s.chaHalt word

/-- The servo boundary of ring cycle 64j + 60 (R279, R281): an evaluation not finished is a lockstep-class fault; else the report leaves. -/
def State.safetyReport (s : State) : State :=
  if !s.chaRuns then s
  else if s.cha.capturedAt.isSome && !s.cha.done then s.chaHalt true
  else s.modA fun a => { a with
    count := (a.count + 1) % 65536
    report := some
      { count := (a.count + 1) % 65536, state := s.devState, sig := s.word64 Reg.SAFE_SIG_LO, inputs := a.inputs
        notFree := s.img.axisIds.filter fun x => !s.torqueFree x
        stops := (s.img.islandIds.filter fun i => s.on (Reg.ISA_STAT.LATCHED i)).map fun i => (i, s.get (Reg.ISA_STAT.CAUSE i)) } }

/-! ### Safety messages (R289–R295) -/

/-- Connection `c` beyond its registers. -/
def State.conn (s : State) (c : Nat) : ConnSt := tget default s.conns c
/-- Change connection `c`. -/
def State.modConn (s : State) (c : Nat) (f : ConnSt → ConnSt) : State := { s with conns := tput default s.conns c (f (s.conn c)) }

/-- CONN_STAT.STATE codes. -/
def conStarting : Nat := 0
def conValid : Nat := 1
def conTimedOut : Nat := 2
def conSending : Nat := 3

/-- The data length of a kind (R291). -/
def connLen (kind : Nat) : Nat := if kind = 0 then 64 else if kind = 1 then 8 else 16

/-- A safety message of a connection (R289, R290). -/
def safetyMsg (id seq : Nat) (data : List Nat) : List Nat :=
  let head := leBytes 4 id ++ leBytes 2 seq ++ [data.length % 256, 0] ++ data
  head ++ leBytes 4 (crcSafety (leBytes 4 id ++ head))

/-- The CHECK of a received message agrees with the receiver's CONN_ID (R290). -/
def msgOk (id : Nat) (m : List Nat) : Bool :=
  let n := leAt m 6 1
  m.length == 12 + n && crcSafety (leBytes 4 id ++ m.take (8 + n)) == leAt m (8 + n) 4

/-- An error of connection `c` (R292, R299): 1 CRC, 2 sequence, 3 format, at most one record each second. -/
def State.connError (s : State) (c code : Nat) : State :=
  let f := if code = 1 then Reg.CONN_ERR.CRC c else if code = 2 then Reg.CONN_ERR.SEQ c else Reg.CONN_ERR.FORMAT c
  let s1 := s.addSat f 1
  let quiet := match (s.conn c).loggedAt with
    | some t0 => decide (s.now < t0 + 1000000000)
    | none => false
  if quiet then s1 else (s1.modConn c fun x => { x with loggedAt := some s.now }).log Src.channelA Ev.SAFE_CONN_ERROR c code

/-- Cause 4 of a COMMAND connection (R271, R295): STO of the groups whose STO_PERMIT bit is 0, SS1 of those whose SS1_PERMIT bit is 0. -/
def State.permitDemand (s : State) (c : Nat) : State :=
  let p := (s.conn c).permits.getD (0, 0)
  (s.demand 4 true (allGroups - p.1 % 65536) c).demand 4 false (allGroups - p.2 % 65536) c

/-- A connection enters TIMED_OUT (R292, R293). -/
def State.connTimeout (s : State) (c : Nat) : State :=
  let ms := satU 32 ((s.now - (s.conn c).at') / 1000000)
  let s1 := ((s.set (Reg.CONN_STAT.STATE c) conTimedOut).addSat (Reg.CONN_ERR.TIMEOUTS c) 1).modConn c fun x => { x with cand := none, seqErrs := 0 }
  let s2 := s1.log Src.channelA Ev.SAFE_CONN_TIMEOUT c ms
  if s.get (Reg.CONN_CFG.KIND c) = 0 then s2.connUnknown c
  else s2.demand 5 (s.on (Reg.CONN_CFG.TO_STOP c)) (s.get (Reg.CONN_CFG.GROUPS c)) c

/-- What an accepted message does (R16, R233, R273, R295, R306): person data for the next servo boundary, one servo cycle later in a pair,
where it is mirrored; permits and a reset at once. -/
def State.connTake (s : State) (c : Nat) (data msg : List Nat) (remote : Bool) : State :=
  let s0 := if s.takesInputs then s.mirror 4 ((c + 128 * b2n remote) :: msg) else s
  if s.get (Reg.CONN_CFG.KIND c) = 0 then
    let m : PersonMsg := ⟨c, data, if !s.takesInputs then s.servoNo else if s.inPair then s.servoNo + 2 else s.servoNo + 1, remote⟩
    { s0 with sep := { s0.sep with persons := s0.sep.persons ++ [m] } }
  else
    let x := s.conn c
    let reset := bitAt (leAt data 4 1) 0
    let s1 := (s0.modConn c fun y => { y with permits := some (leAt data 0 2, leAt data 2 2), reset := reset }).permitDemand c
    if reset && x.permits.isSome && !x.reset then s1.takeReset Src.channelA (65536 + c) else s1

/-- A message is accepted (R292, R293). -/
def State.connAccept (s : State) (c seq : Nat) (data msg : List Nat) (remote : Bool) : State :=
  let s1 := (s.set (Reg.CONN_STAT.STATE c) conValid).set (Reg.CONN_STAT.SEQ c) seq
  (s1.modConn c fun x => { x with cand := none, seqErrs := 0, at' := s.now }).connTake c data msg remote

/-- A received safety message of connection `c` (R292). -/
def State.connReceive (s : State) (c : Nat) (msg : List Nat) (remote : Bool) : State :=
  let n := leAt msg 6 1
  let seq := leAt msg 4 2
  let data := (msg.drop 8).take n
  if !msgOk (s.word (Reg.CONN_ID c)) msg then s.connError c 1
  else if n ≠ connLen (s.get (Reg.CONN_CFG.KIND c)) ∨ leAt msg 7 1 ≠ 0 then s.connError c 3
  else if s.get (Reg.CONN_STAT.STATE c) = conValid then
    let g := (seq + 65536 - s.get (Reg.CONN_STAT.SEQ c)) % 65536
    if g = 0 then s
    else if s.get (Reg.CONN_CFG.SEQ_WIN c) < g then
      let s1 := (s.connError c 2).modConn c fun x => { x with seqErrs := x.seqErrs + 1 }
      if 3 ≤ (s1.conn c).seqErrs then s1.connTimeout c else s1
    else s.connAccept c seq data msg remote
  else
    let fits := match (s.conn c).cand with
      | some (q, t0) => decide (seq = (q + 1) % 65536) && decide (s.now ≤ t0 + s.get (Reg.CONN_TIME.EXPECT c) * 1000000)
      | none => false
    if fits then s.connAccept c seq data msg remote
    else (s.set (Reg.CONN_STAT.STATE c) conStarting).modConn c fun x => { x with cand := some (seq, s.now) }

/-- The port of a safety message is named by connection `c`: 0 E0, 1 E1, 2 the Dorlu links (R291). -/
def State.connPort (s : State) (c port : Nat) : Bool :=
  if port = 0 then s.on (Reg.CONN_CFG.E0 c) else if port = 1 then s.on (Reg.CONN_CFG.E1 c) else s.on (Reg.CONN_CFG.DORLU c)

/-- SAFETY_MESSAGE_RECEIVE (R292): a message reaches consumed connection `c` on a port it names. The unit that takes inputs takes it. -/
def execSafetyMessageReceive (t : Time) (c : Fin 64) (port : Fin 3) (msg : List Byte) (s : State) : Out :=
  live t s fun s =>
    let c := c.val
    if s.chaRuns && s.takesInputs && s.on (Reg.CONN_CFG.VALID c) && !s.on (Reg.CONN_CFG.DIR c) && s.connPort c port.val then
      s.connReceive c (natBytes msg) (decide (port.val = 2))
    else s

/-- SAFE_CONN_TIMEOUT (R293): at a servo boundary the timer of a VALID connection has reached EXPECT. -/
def execSafeConnTimeout (t : Time) (c : Fin 64) (s : State) : Out :=
  live t s fun s =>
    let c := c.val
    if s.atServo && s.chaRuns && s.get (Reg.CONN_STAT.STATE c) == conValid &&
        decide ((s.conn c).at' + s.get (Reg.CONN_TIME.EXPECT c) * 1000000 ≤ s.now) then s.connTimeout c else s

/-- The DATA of a STATUS message (R294). -/
def State.statusData (s : State) : List Nat :=
  let faulted := (List.range 8).foldl (fun m i => m + s.get (Reg.IN_STAT.FAULT i) * 2 ^ i) 0
  [s.devState, s.get Reg.DEV_STATE.STARTUP_TEST_DONE + 2 * s.get Reg.DEV_STATE.COMMISSION_CONFIRMED + 4 * s.get Reg.SAFE_STAT.SIG_AGREED] ++
  leBytes 2 (s.get Reg.STO_STAT.STO) ++ leBytes 2 (s.get Reg.STO_STAT.SS1_RUN) ++
  [s.closedInputs, faulted] ++ leBytes 8 (s.word64 Reg.SAFE_SIG_LO)

/-- A coordinate in units of 2 mm. -/
def point2 (x : Rat) : Nat := let h := x / 2; if h.den = 1 then ux 16 (satS 16 h.num) else (Config.toPoint x).toNat

/-- The DATA of a produced PERSON message for slot `p`, index `i` of its range (R232, R339): the slot as committed, in the cell frame; an
UNKNOWN slot as a sphere of 65 535 mm at the origin. -/
def State.personData (s : State) (p i : Nat) : List Nat :=
  let x := s.person p
  let st := s.get (Reg.PER_STAT.STATE p)
  let cap := fun (k : Capsule) => [k.a.x, k.a.y, k.a.z, k.b.x, k.b.y, k.b.z].flatMap (fun v => leBytes 2 (point2 v)) ++ leBytes 2 (k.r.floor.toNat)
  let caps := if st = perUnknown then [Capsule.mk ⟨0, 0, 0⟩ ⟨0, 0, 0⟩ 65535] else x.caps
  let body := caps.flatMap cap
  [i % 64, b2n (decide (st ≠ perEmpty)) + 2 * b2n x.vhValid] ++ leBytes 2 x.zd ++ leBytes 2 x.vh ++ [0, 0] ++ (body ++ List.replicate 56 0).take 56

/-- The messages of a produced connection leave on every port it names (R291): as the payload of a UDP datagram to CONN_UDP on E0 and E1,
as SAFETY records on the Dorlu links. -/
def State.sendSafety (s : State) (c : Nat) (msgs : List (List Nat)) : State :=
  let eth := fun (p : Nat) => msgs.map fun m => (⟨p, 10, beBytes 2 (s.get (Reg.CONN_UDP.PORT c)) ++ m⟩ : EthOut)
  let s1 := if s.on (Reg.CONN_CFG.DORLU c) then { s with fed := { s.fed with safety := s.fed.safety ++ msgs } } else s
  { (s1.modConn c fun y => { y with sent := msgs.flatten }) with
    ethOut := (if s.on (Reg.CONN_CFG.E0 c) then eth 0 else []) ++ (if s.on (Reg.CONN_CFG.E1 c) then eth 1 else []) }

/-- SAFETY_MESSAGE_SEND (R294, R339): SEND_T after the last one a produced connection sends its message, a PERSON connection one for each
slot of its range, SEQ increased by 1 for each. Of a pair only the active transmits (R303). -/
def execSafetyMessageSend (t : Time) (c : Fin 64) (s : State) : Out :=
  live t s fun s =>
    let c := c.val
    let x := s.conn c
    if s.chaRuns && s.on (Reg.CONN_CFG.VALID c) && s.on (Reg.CONN_CFG.DIR c) &&
        decide (x.at' + s.get (Reg.CONN_TIME.SEND_T c) * 1000000 ≤ s.now) then
      let datas := if s.get (Reg.CONN_CFG.KIND c) = 0 then
          let l := s.connSlots c
          (List.range l.length).map fun i => s.personData (l.getD i 0) i
        else [s.statusData]
      let next := match x.cand with
        | some (q, _) => q
        | none => 0
      let msgs := (List.range datas.length).map fun i => safetyMsg (s.word (Reg.CONN_ID c)) (next + i) (datas.getD i [])
      let s0 := if s.takesInputs then s.sendSafety c msgs else s
      let s1 := s0.modConn c fun y => { y with at' := s.now, cand := some ((next + datas.length) % 65536, 0) }
      (s1.set (Reg.CONN_STAT.STATE c) conSending).set (Reg.CONN_STAT.SEQ c) ((next + datas.length + 65535) % 65536)
    else s

/-! ### LOAD and POWER_UP (R265, R286, R300) -/

/-- LOAD starts channel A's connections, stops and counters afresh (R265, R294, R300). -/
def State.chaLoad (s : State) : State :=
  let s1 := { s with conns := [], isas := [], cha := default }
  let s2 := forEach s.img.islandIds (fun s i => ((s.setWord (Reg.ISA_STAT i) 0).setWord (Reg.ISA_MARGIN i) f32Inf).setWord (Reg.ISA_SPEED i) 0) s1
  let s3 := forN 64 (fun s c =>
    let s' := (s.setWord (Reg.CONN_STAT c) 0).setWord (Reg.CONN_ERR c) 0
    if s.on (Reg.CONN_CFG.VALID c) then
      let s'' := s'.modConn c fun x => { x with at' := s.now }
      if s.on (Reg.CONN_CFG.DIR c) then s''.set (Reg.CONN_STAT.STATE c) conSending
      else if s.get (Reg.CONN_CFG.KIND c) = 1 then s''.permitDemand c else s''
    else s') s2
  s3.setWord Reg.CHA_STAT 0

/-- The age of a connection as CONN_AGE shows it, in ms (R300). -/
def State.connAge (s : State) (c : Nat) : Nat :=
  if s.on (Reg.CONN_CFG.VALID c) then satU 16 ((s.now - (s.conn c).at') / 1000000) else 0

/-- The SS1 time of a group as GRP_STAT shows it, in ms (R300). -/
def State.ss1Elapsed (s : State) (k : Nat) : Nat :=
  match tget none s.chb.ss1 k with
  | some (t0, _) => satU 16 ((s.now - t0) / 1000000)
  | none => 0

end Sys2Proof.Machine
end

