-- ==== Sys2Proof/Machine/Compare.lean ====
section
/-! DEFINITION. Compare channels (R175–R180), encoder emulation (R181–R184) and their pins (R185). -/

namespace Sys2Proof.Machine

/-- Emulation output `u`. -/
def State.emu (s : State) (u : Nat) : EmuSt := tget default s.emus u
/-- Change emulation output `u`. -/
def State.modEmu (s : State) (u : Nat) (f : EmuSt → EmuSt) : State := { s with emus := tput default s.emus u (f (s.emu u)) }

/-- The compare source is selected and healthy (R180, R34, R168). -/
def State.cmpHealthy (s : State) (c : Nat) : Bool :=
  let i := s.get (Reg.CMP_CFG.SRC_INDEX c)
  match s.get (Reg.CMP_CFG.SRC c) with
  | 1 => !s.on (Reg.ENC_STAT.FAULT (i % 8))
  | 2 => s.on (Reg.LINE_STAT.RUNNING (i % 8))
  | 3 => s.axState i != axFault && (s.fb i).seen
  | _ => false

/-- The position of the compare source in the format of R175 and its change per ring cycle, at the present cycle-start. -/
def State.cmpSource (s : State) (c : Nat) : Int × Int :=
  let i := s.get (Reg.CMP_CFG.SRC_INDEX c)
  match s.get (Reg.CMP_CFG.SRC c) with
  | 1 => (s.int64 (Reg.ENC_CNT_LO (i % 8)) * 65536, 0)
  | 2 => (s.int64 (Reg.LINE_POS_LO (i % 8)), sx 32 (s.word (Reg.LINE_VEL (i % 8))))
  | 3 => (s.uposAt i s.dev.cycleTsc, s.velPerCycle i)
  | _ => (0, 0)

/-- V, the compare point, as shown by CMP_VAL; a local encoder ignores its fraction (R175). -/
def State.cmpV (s : State) (c : Nat) : Int :=
  let v := s.int64 (Reg.CMP_VAL_LO c)
  if s.get (Reg.CMP_CFG.SRC c) = 1 then v / 65536 * 65536 else v

/-- S, the spacing, unsigned; a local encoder ignores its fraction (R175). -/
def State.cmpS (s : State) (c : Nat) : Nat :=
  let v := s.word64 (Reg.CMP_SPC_LO c)
  if s.get (Reg.CMP_CFG.SRC c) = 1 then v / 65536 * 65536 else v

/-- The distance from position `x` to the compare point, positive while the point lies ahead in the channel's direction (R32). -/
def State.cmpAhead (s : State) (c : Nat) (x : Int) : Int :=
  let d := wrapS 64 (s.cmpV c - x)
  if s.on (Reg.CMP_CFG.DIR c) then -d else d

/-- V advances by S in the channel's direction; with S = 0 the channel clears ARMED (R176). -/
def State.cmpAdvance (s : State) (c : Nat) : State :=
  if s.cmpS c = 0 then s.set (Reg.CMP_STAT.ARMED c) 0
  else s.setWord64 (Reg.CMP_VAL_LO c)
    (ux 64 (if s.on (Reg.CMP_CFG.DIR c) then s.cmpV c - s.cmpS c else s.cmpV c + s.cmpS c))

/-- The pulse width in ns: PW × 5, a PW of 0 acts as 1 (R179). -/
def State.cmpWidth (s : State) (c : Nat) : Nat :=
  let pw := s.get (Reg.CMP_CFG.PW c)
  5 * (if pw = 0 then 1 else pw)

/-- The active level by POL (R179). -/
def State.cmpActive (s : State) (c : Nat) : Bool := !s.on (Reg.CMP_CFG.POL c)

/-- The device is in a state whose pins stand low (R185). -/
def State.pinsLow (s : State) : Bool := s.devState == devPowerUp || s.devState == devLoad || s.devState == devUnconfigured

/-- The pin of channel `c` shows its level: low in the states of R185, else by POL and the pulse under way. -/
def State.cmpShow (s : State) (c : Nat) : State :=
  s.modCmp c fun y => { y with pin := !s.pinsLow && (if y.pulse.isSome then s.cmpActive c else !s.cmpActive c) }

/-- A pulse of channel `c` at instant `i` (R179): dropped where fewer than 20 ns have passed since the previous one ended. It
counts towards CMP_LIMIT, which closes the window (R178). No pulse where the pins stand at a fixed level (R185). -/
def State.cmpPulse (s : State) (c i : Nat) : State :=
  let x := s.cmp c
  let before := match x.pulse with
    | some e => some e
    | none => x.lastEnd
  let blocked := match before with
    | some e => decide (i < e + 20)
    | none => false
  if !s.pinsLive then s
  else if blocked then s.tally (Reg.CMP_SKIP.DROPS c) 1
  else
    let n := x.emitted + 1
    let s1 := (s.modCmp c fun y => { y with
      pulse := some (i + s.cmpWidth c), lastEnd := before, pin := s.cmpActive c, emitted := n }).addMod (Reg.CMP_PULSES.PULSES c) 1
    let lim := s.get (Reg.CMP_LIMIT.VALUE c)
    if lim ≠ 0 ∧ lim ≤ n then s1.set (Reg.CMP_STAT.OPEN c) 0 else s1

/-- The source crosses the compare point at instant `i` (R176): a pulse where the window is open, and V advances. -/
def State.cmpPoint (s : State) (c i : Nat) : State :=
  if !s.on (Reg.CMP_STAT.ARMED c) then s
  else if s.on (Reg.CMP_STAT.OPEN c) then (s.cmpPulse c i).cmpAdvance c else s.cmpAdvance c

/-- The window opens (R178). -/
def State.cmpOpen (s : State) (c : Nat) : State :=
  (s.modCmp c fun y => { y with emitted := 0 }).set (Reg.CMP_STAT.OPEN c) 1

/-- The window closes; a pulse under way completes (R178). -/
def State.cmpClose (s : State) (c : Nat) : State := s.set (Reg.CMP_STAT.OPEN c) 0

/-- What channel `c` evaluates: its source and its direction. -/
def State.cmpSelection (s : State) (c : Nat) : List Nat :=
  [s.get (Reg.CMP_CFG.SRC c), s.get (Reg.CMP_CFG.SRC_INDEX c), s.get (Reg.CMP_CFG.DIR c)]

/-- Writes that wait replace the registers at a ring-cycle start; a write of CMP_VAL arms the channel (R180). -/
def State.cmpTakeWrites (s : State) (c : Nat) : State :=
  let ws := (s.cmp c).writes
  if ws.isEmpty then s
  else
    let s1 := (forEach ws (fun s w => s.setWord w.1 w.2) (s.modCmp c fun y => { y with writes := [] })).cmpShow c
    let s2 := if s1.cmpSelection c = s.cmpSelection c then s1 else s1.modCmp c fun y => { y with jumped := true }
    if ws.any fun w => w.1 == Reg.CMP_VAL_LO c || w.1 == Reg.CMP_VAL_HI c then
      (s2.set (Reg.CMP_STAT.ARMED c) 1).modCmp c fun y => { y with newV := true }
    else s2

/-- R177 at the sample of this start, for a V that has taken effect: one behind the source advances to the first point ahead of it. -/
def State.cmpSkip (s : State) (c : Nat) : State :=
  let ahead := s.cmpAhead c (s.cmpSource c).1
  if 0 < ahead then s
  else if s.cmpS c = 0 then (s.set (Reg.CMP_STAT.ARMED c) 0).tally (Reg.CMP_SKIP.SKIPS c) 1
  else
    let k := (-ahead).toNat / s.cmpS c + 1
    let v := if s.on (Reg.CMP_CFG.DIR c) then s.cmpV c - (k * s.cmpS c : Nat) else s.cmpV c + (k * s.cmpS c : Nat)
    (s.setWord64 (Reg.CMP_VAL_LO c) (ux 64 v)).tally (Reg.CMP_SKIP.SKIPS c) k

/-- A V that has taken effect is judged by R177; it ends the loss of a source that is healthy again (R180). -/
def State.cmpJudge (s : State) (c : Nat) : State :=
  if (s.cmp c).newV then ((s.modCmp c fun y => { y with newV := false }).set (Reg.CMP_STAT.SRC_LOST c) 0).cmpSkip c else s

/-- The instants of the points that lie within the predicted travel `v` from position `x` (R175), at most `n` of them: of the
distance ahead of the first point, the spacing and the cycle-start instant. Distances are counted in the channel's direction. -/
def pointInstants (start : Nat) (v : Int) (sp : Nat) : Nat → Int → List Nat
  | 0, _ => []
  | n + 1, ahead =>
    if 0 < ahead ∧ v < ahead then []
    else
      let i := if ahead ≤ 0 then start else start + (15625 * ahead / v).toNat
      i :: (if sp = 0 then [] else pointInstants start v sp n (ahead + sp))

/-- The points a channel passes within the predicted travel. -/
def pointCount (v ahead : Int) (sp : Nat) : Nat := (max v 0 - ahead).toNat / max sp 1 + 1

/-- COMPARE_SCHEDULE (R175, R176): the points of a channel in this ring cycle. A point that lies behind the source without having been
crossed, after a jump of the source or a change of what is evaluated, fires only once the source has gone back and crosses it. -/
def State.cmpSchedule (s : State) (c : Nat) : State :=
  let s1 := s.cmpTakeWrites c
  let src := s1.get (Reg.CMP_CFG.SRC c)
  if src = 0 ∨ !s1.pinsLive then s1
  else if !s1.cmpHealthy c then s1.set (Reg.CMP_STAT.SRC_LOST c) 1
  else
    let s2 := s1.cmpJudge c
    if s2.on (Reg.CMP_STAT.SRC_LOST c) || !s2.on (Reg.CMP_STAT.ARMED c) || src == 1 then s2
    else
      let p := s2.cmpSource c
      let v := if s2.on (Reg.CMP_CFG.DIR c) then -p.2 else p.2
      let ahead := s2.cmpAhead c p.1
      s2.modCmp c fun y =>
        let passed := decide (ahead ≤ 0) && (y.jumped || y.passed)
        { y with
          jumped := false, passed := passed
          points := if passed then [] else pointInstants s2.dev.cycleTsc v (s2.cmpS c) (pointCount v ahead (s2.cmpS c)) ahead }

/-- The hardware evaluation of a local-encoder channel at a counted edge of encoder `k` by `d` (R175 SRC 1): the sample that counts V. -/
def State.cmpEncoder (s : State) (k : Nat) (d : Int) : State :=
  forN 16 (fun s c =>
    if s.cmpOn 1 k c ∧ s.pinsLive ∧ s.cmpHealthy c ∧ !s.on (Reg.CMP_STAT.SRC_LOST c)
        ∧ s.on (Reg.CMP_STAT.ARMED c) ∧ (if s.on (Reg.CMP_CFG.DIR c) then d = -1 else d = 1)
        ∧ wrapS 48 (s.cmpV c / 65536) = s.int64 (Reg.ENC_CNT_LO k) then s.cmpPoint c s.now
    else s) s

/-! ### Emulation -/

/-- The emulation source is selected and healthy (R184). -/
def State.emuHealthy (s : State) (u : Nat) : Bool :=
  let i := s.get (Reg.EMU_CFG.SRC_INDEX u)
  match s.get (Reg.EMU_CFG.SRC u) with
  | 1 => s.axState i != axFault && (s.fb i).seen
  | 2 => s.on (Reg.LINE_STAT.RUNNING (i % 8))
  | _ => false

/-- The target T of R181 as a 32-bit count. -/
def State.emuTarget (s : State) (u : Nat) : Nat :=
  let i := s.get (Reg.EMU_CFG.SRC_INDEX u)
  let n := s.word (Reg.EMU_N u)
  let m := s.word (Reg.EMU_M u)
  let t : Int := match s.get (Reg.EMU_CFG.SRC u) with
    | 1 => s.uposAt i s.dev.cycleTsc * n / (16777216 * (m : Int))
    | 2 => s.int64 (Reg.LINE_POS_LO (i % 8)) * n / (65536 * (m : Int))
    | _ => 0
  ux 32 (if s.on (Reg.EMU_CFG.INVERT u) then -t else t)

/-- The levels of A, B and Z at output count `o` (R173, R183). -/
def State.emuLevels (s : State) (u o : Nat) : Bool × Bool × Bool :=
  let q := o % 4
  let z := s.word (Reg.EMU_ZPER u)
  (q == 1 || q == 2, q == 2 || q == 3, z != 0 && o % z == 0)

/-- The pins show the output count, where the outputs are live (R183, R185). -/
def State.emuPins (s : State) (u : Nat) : State :=
  if s.pinsLive then
    let l := s.emuLevels u (s.word (Reg.EMU_OUT u))
    s.modEmu u fun x => { x with pinA := l.1, pinB := l.2.1, pinZ := l.2.2 }
  else s

/-- The output count takes the target without steps (R184). -/
def State.emuAlign (s : State) (u : Nat) : State :=
  ((s.setWord (Reg.EMU_OUT u) (s.emuTarget u)).modEmu u fun x => { x with align := false, steps := [] }).emuPins u

/-- The instants of `n` steps evenly spaced from cycle-start + 50 ns (R181). -/
def stepInstants (start n : Nat) : List Nat :=
  (List.range n).map fun j => start + 50 + j * (15625 / n / 5 * 5)

/-- EMU_TARGET (R181–R184): writes and aligns that wait are taken, then the demand of the ring cycle is formed; at most 156 steps
are placed and the rest is backlog. -/
def State.emuCycle (s : State) (u : Nat) : State :=
  let ws := (s.emu u).writes
  let s0 := forEach ws (fun s w => s.setWord w.1 w.2)
    (s.modEmu u fun x => { x with writes := [], align := x.align || !ws.isEmpty })
  let sel := s0.get (Reg.EMU_CFG.SRC u) = 1 ∨ s0.get (Reg.EMU_CFG.SRC u) = 2
  let h := s0.emuHealthy u
  let s1 := s0.setB (Reg.EMU_STAT.RUNNING u) h
  if !h then
    (s1.setB (Reg.EMU_STAT.SRC_LOST u) (decide sel)).modEmu u fun x => { x with steps := [] }
  else if !s1.pinsLive then s1.modEmu u fun x => { x with steps := [] }
  else
    let s2 := if s1.on (Reg.EMU_STAT.SRC_LOST u) then
        (s1.set (Reg.EMU_STAT.SRC_LOST u) 0).modEmu u fun x => { x with align := true }
      else s1
    let s3 := if (s2.emu u).align then s2.emuAlign u else s2
    let d := sx 32 (s3.emuTarget u + 2 ^ 32 - s3.word (Reg.EMU_OUT u))
    let n := min d.natAbs 156
    let back := d - (if d < 0 then -(n : Int) else n)
    let s4 := s3.set (Reg.EMU_STAT.BACKLOG u) (ux 16 (satS 16 back))
    let s5 := s4.modEmu u fun x => { x with steps := stepInstants s4.dev.cycleTsc n, up := decide (0 ≤ d) }
    if back = 0 then s5.set (Reg.EMU_STAT.LAGGING u) 0
    else if s5.get (Reg.EMU_CFG.LAG_MAX u) < back.natAbs ∧ !s5.on (Reg.EMU_STAT.LAGGING u) then
      (s5.set (Reg.EMU_STAT.LAGGING u) 1).log (Src.emulation u) Ev.EMU_LAG (ux 32 back) (s5.get (Reg.EMU_CFG.LAG_MAX u))
    else s5

/-- The pins at the entry of a device state (R185): low where they stand low, else a compare pin at its inactive level unless a pulse
completes; outside the live states a pulse under way ends, and the emulation pins hold. -/
def State.pinsEnter (s : State) : State :=
  let s1 := if s.pinsLow then { s with emus := s.emus.map fun e => (e.1, { e.2 with pinA := false, pinB := false, pinZ := false }) } else s
  let s2 := if s.pinsLive then s1
    else { s1 with cmps := s1.cmps.map fun e => (e.1, { e.2 with
      points := [], pulse := none, lastEnd := if e.2.pulse.isSome then some s.now else e.2.lastEnd }) }
  forN 16 State.cmpShow s2

/-! ### Meanings -/

/-- CMP_CTRL_OPEN (R178). -/
def State.wCmpCtrlOpen (s : State) (c : Fin 16) : State := s.cmpOpen c.val
/-- CMP_CTRL_OPEN. -/
def execCmpCtrlOpen (t : Time) (c : Fin 16) (s : State) : Out :=
  byHost t s (Reg.CMP_CTRL c.val) 1 (fun s => s.wCmpCtrlOpen c)

/-- CMP_CTRL_CLOSE (R178). -/
def State.wCmpCtrlClose (s : State) (c : Fin 16) : State := s.cmpClose c.val
/-- CMP_CTRL_CLOSE. -/
def execCmpCtrlClose (t : Time) (c : Fin 16) (s : State) : Out :=
  byHost t s (Reg.CMP_CTRL c.val) 2 (fun s => s.wCmpCtrlClose c)

/-- CMP_CTRL_PULSE (R178): one pulse whatever the state of the window; V does not move. -/
def State.wCmpCtrlPulse (s : State) (c : Fin 16) : State := s.cmpPulse c.val s.now
/-- CMP_CTRL_PULSE. -/
def execCmpCtrlPulse (t : Time) (c : Fin 16) (s : State) : Out :=
  byHost t s (Reg.CMP_CTRL c.val) 4 (fun s => s.wCmpCtrlPulse c)

/-- The registers whose writes a compare channel takes at the next ring-cycle start (R180), by number: CFG, VAL, SPC, LIMIT. -/
def cmpWriteAddr (c : Nat) (r : Fin 6) : Nat :=
  [Reg.CMP_CFG c, Reg.CMP_VAL_LO c, Reg.CMP_VAL_HI c, Reg.CMP_SPC_LO c, Reg.CMP_SPC_HI c, Reg.CMP_LIMIT c].getD r.val 0

/-- CMP_VALUE_WRITE (R180): a write to register `r` of channel `c` waits for the next ring-cycle start. -/
def State.wCmpValueWrite (s : State) (c : Fin 16) (r : Fin 6) (v : Word) : State :=
  let a := cmpWriteAddr c.val r
  s.modCmp c.val fun x => { x with writes := x.writes ++ [(a, s.mergeRw a v.toNat)] }
/-- CMP_VALUE_WRITE. -/
def execCmpValueWrite (t : Time) (c : Fin 16) (r : Fin 6) (v : Word) (s : State) : Out :=
  byHost t s (cmpWriteAddr c.val r) v.toNat (fun s => s.wCmpValueWrite c r v)

/-- COMPARE_PULSE_END (R179): PW × 5 ns after its start a pulse ends and the pin returns to its inactive level. -/
def execComparePulseEnd (t : Time) (c : Fin 16) (s : State) : Out :=
  live t s fun s =>
    match (s.cmp c.val).pulse with
    | some e =>
      if e ≤ s.now then s.modCmp c.val fun x => { x with pulse := none, lastEnd := some e, pin := !s.cmpActive c.val } else s
    | none => s

/-- EMU_ALIGN (R184): an align at the next ring-cycle start. -/
def State.wEmuAlign (s : State) (u : Fin 4) : State := s.modEmu u.val fun x => { x with align := true }
/-- EMU_ALIGN. -/
def execEmuAlign (t : Time) (u : Fin 4) (s : State) : Out :=
  byHost t s (Reg.EMU_CTRL u.val) 1 (fun s => s.wEmuAlign u)

/-- The registers whose writes an emulation output takes at the next ring-cycle start (R184): CFG, N, M, ZPER. -/
def emuWriteAddr (u : Nat) (r : Fin 4) : Nat := [Reg.EMU_CFG u, Reg.EMU_N u, Reg.EMU_M u, Reg.EMU_ZPER u].getD r.val 0

/-- EMU_CFG_WRITE (R184): a write to register `r` of output `u` waits for the next ring-cycle start; EMU_M = 0 is refused. -/
def State.wEmuCfgWrite (s : State) (u : Fin 4) (r : Fin 4) (v : Word) : State :=
  if r.val = 2 ∧ v = 0 then s.flag (Reg.EMU_STAT.CFG_REFUSED u.val)
  else
    let a := emuWriteAddr u.val r
    s.modEmu u.val fun x => { x with writes := x.writes ++ [(a, s.mergeRw a v.toNat)] }
/-- EMU_CFG_WRITE. -/
def execEmuCfgWrite (t : Time) (u : Fin 4) (r : Fin 4) (v : Word) (s : State) : Out :=
  byHost t s (emuWriteAddr u.val r) v.toNat (fun s => s.wEmuCfgWrite u r v)

/-- EMU_STEP (R181): the next step placed in this ring cycle is emitted at its instant; O follows and the pins show it. -/
def execEmuStep (t : Time) (u : Fin 4) (s : State) : Out :=
  live t s fun s =>
    match (s.emu u.val).steps with
    | i :: rest =>
      if i ≤ s.now ∧ s.pinsLive then
        let o := s.word (Reg.EMU_OUT u.val)
        let o' := if (s.emu u.val).up then (o + 1) % 2 ^ 32 else (o + 2 ^ 32 - 1) % 2 ^ 32
        ((s.modEmu u.val fun x => { x with steps := rest }).setWord (Reg.EMU_OUT u.val) o').emuPins u.val
      else s
    | [] => s

end Sys2Proof.Machine
end

