-- ==== Sys2Proof/Machine/Sched.lean ====
section
/-! DEFINITION. Planning cores and the hardware scheduler (R73–R85, R91–R92): admission, operands, dispatch, completion, the reorder
window, time-outs and the dependence counters. -/

namespace Sys2Proof.Machine

/-- The ENTRY of a core that runs a dependence counter's item (R92). -/
def counterEntry : Nat := 0x3FF

/-- Dependence counter `k`. -/
def State.dc (s : State) (k : Nat) : DcSt := tget default s.dcs k
/-- Change dependence counter `k`. -/
def State.modDc (s : State) (k : Nat) (f : DcSt → DcSt) : State := { s with dcs := tput default s.dcs k (f (s.dc k)) }

/-! ### Admission (R75–R77) -/

/-- The PROGRAM entry of a flow (R375, kind 9). -/
def Img.program? (g : Img) (f : Nat) : Option ProgDecl := g.programs.find? fun p => p.flow == f

/-- The slots that the SEGP section declares for a flow: slot, kind, queue. -/
def ProgDecl.slotList (p : ProgDecl) : List (Nat × OpSlot) :=
  p.slots.map fun w => (bits w 16 2, ⟨bits w 0 3, bits w 8 8, none⟩)

/-- The free entries of the matching store. -/
def State.freeEntries (s : State) : List Nat := (List.range 1024).filter fun e => (s.item? e).isNone

/-- A flow has room: fewer than 64 items in flight (R76). -/
def State.flowRoom (s : State) (f : Nat) : Bool := decide ((s.flowItems f).length < 64)

/-- An item is admitted to flow `f` (R76, R77): an entry, the order of admission, the slots; ready at once where none is open. Which
free entry it gets is a free value. -/
def State.admitItem (s : State) (f cls : Nat) (slots : List (Nat × OpSlot)) (desc payload : List Nat) (noted : List Nat) : State :=
  let fr := s.freeEntries
  let d := s.freeBelow 2 fr.length
  let e := fr.getD d.1 0
  let x : Item :=
    { flow := f, cls := cls, serial := s.serial, readyAt := 0, slots := slots, stage := .waiting, desc := desc, payload := payload
      noted := noted, plan := default, ran := 0, since := 0, timedOut := none, abandoned := false }
  let s1 := { (d.2.putItem e (some x)) with
    serial := s.serial + 1
    flowPrev := tput none s.flowPrev f (some ⟨s.serial, (parseDesc desc).blend, (parseDesc desc).seq, false⟩) }
  (s1.readyCheck e).syncFlow f

/-- The slots of an island-flow item (R77): PREV_END where the previous descriptor has BLEND 1 or 2 (filled where its planning has
completed), the narrows operand where NRW_ENTER is valid and names a narrows of the island's (R247), and what the SEGP section declares.
The spec does not say which declaration holds where the SEGP section declares a slot 0 or 2 that the scheduler declares too: the
scheduler's holds (DESIGN CHOICE 13). -/
def State.islandSlots (s : State) (f : Nat) (d : Desc) : List (Nat × OpSlot) :=
  let prev := match tget none s.flowPrev f with
    | some p => if p.blend = 1 ∨ p.blend = 2 then [(0, (⟨0, 0, if p.done then some [] else none⟩ : OpSlot))] else []
    | none => []
  let nrw := match d.nrwEnter with
    | some n => if (s.nrwMember? n f).isSome then [(2, (⟨2, 0, none⟩ : OpSlot))] else []
    | none => []
  let own := match s.img.program? f with
    | some p => p.slotList
    | none => []
  prev ++ nrw ++ own.filter fun p => !(prev ++ nrw).any fun q => q.1 == p.1

/-- Check 5 of R54 fails at admission (R76): SEQ does not follow that of the item admitted before, or the last accepted one where none is
in flight. None for the first descriptor of a numbering, nor while a rejection waits. -/
def State.seqBad (s : State) (i : Nat) (d : Desc) : Bool :=
  let due := if (s.flowItems i).isEmpty then (s.flow i).expect else (tget none s.flowPrev i).map fun p => (p.seq + 1) % 2 ^ 32
  !d.replace && !(s.flow i).rejecting && due.any fun q => q != d.seq

/-- A descriptor enters the flow of the island it names (R75, R76), with the checks made at admission. -/
def State.admitDesc (s : State) (l : List Nat) : State :=
  let d := parseDesc l
  let payload := mread 0 s.mem d.payloadAddr d.payloadLen
  let noted := s.admitReasons d.island l payload ++ (if s.seqBad d.island d then [5] else [])
  s.admitItem d.island 2 (s.islandSlots d.island d) l payload noted

/-- A submitted descriptor waits for room (R76): the program that submitted it is suspended and leaves its core. -/
def State.suspend (s : State) (c : Nat) (l : List Nat) : State :=
  let e := s.get (Reg.CORE_STAT.ENTRY c)
  match s.item? e with
  | some x =>
    if x.stage = .running c then
      { ((s.putItem e (some { x with stage := .suspended c, ran := x.ran + (s.now - x.since) })).coreFree c) with
        submitted := s.submitted ++ [(some e, l)] }
    else { s with submitted := s.submitted ++ [(none, l)] }
  | none => { s with submitted := s.submitted ++ [(none, l)] }

/-- A flow has room for a submission, and none of its earlier ones waits (R76). -/
def State.submitRoom (s : State) (before : List (Option Nat × List Nat)) (l : List Nat) : Bool :=
  !s.freeEntries.isEmpty && s.flowRoom (parseDesc l).island && before.all fun p => (parseDesc p.2).island != (parseDesc l).island

/-- The first waiting submission that has room, with its place. -/
def State.nextSubmit (s : State) : Option (Nat × Option Nat × List Nat) :=
  ((List.range s.submitted.length).filterMap fun k => (s.submitted[k]?).map fun p => (k, p)).find? fun e =>
    s.submitRoom (s.submitted.take e.1) e.2.2

/-- The program of a submission that is admitted goes on (R76): it is ready again, with its context on the core it left. -/
def State.unsuspend (s : State) (e : Option Nat) : State :=
  match e with
  | none => s
  | some k => match s.item? k with
    | some x => match x.stage with
      | .suspended c => { (s.putItem k (some { x with stage := .saved c, readyAt := s.serial })) with serial := s.serial + 1 }
      | _ => s
    | none => s

/-- The event flow bound to a queue's records (R75, R360). -/
def Img.queueFlow? (g : Img) (q : Nat) : Option ProgDecl := g.programs.find? fun p => p.trigger == 1 && p.source == q && 512 ≤ p.flow

/-- An event item (R75). -/
def State.admitEvent (s : State) (p : ProgDecl) : State := s.admitItem p.flow p.cls p.slotList [] [] []

/-- ITEM_ADMIT (R75, R76): the head record of a queue, a planning core's submission or a waiting trigger becomes an item, where an
entry is free and the flow has fewer than 64 items in flight; otherwise it stays at its source, and a submission waits, its program
suspended, until an ITEM_ADMIT finds room for it. -/
def execItemAdmit (t : Time) (src : ItemSource) (s : State) : Out :=
  live t s fun s =>
    let free := !s.freeEntries.isEmpty
    match src with
    | .queue q =>
      match s.get (Reg.Q_CFG.MODE q.val), s.headRecord q.val with
      | 1, some l =>
        let b := l.flatMap fun w => w.bytes
        if free && s.flowRoom (parseDesc b).island then (s.popWords q.val l.length).admitDesc b else s
      | 2, some l =>
        match s.img.queueFlow? q.val with
        | some p => if free && s.flowRoom p.flow then (s.modQueue q.val fun x => { x with taken := l.length }).admitEvent p else s
        | none => s
      | _, _ => s
    | .submit c b =>
      let l := natBytes b
      if l.length ≠ 64 then s
      else if s.submitRoom s.submitted l then s.admitDesc l
      else s.suspend c.val l
    | .waiting =>
      match s.nextSubmit with
      | some (k, e, l) => ({ s with submitted := s.submitted.take k ++ s.submitted.drop (k + 1) }.admitDesc l).unsuspend e
      | none => s
    | .event f =>
      let n := 512 + f.val
      match s.img.program? n with
      | some p =>
        if free && tget 0 s.trigs n ≠ 0 && s.flowRoom n then { s with trigs := tput 0 s.trigs n (tget 0 s.trigs n - 1) }.admitEvent p else s
      | none => s

/-- A trigger reaches the event flows bound to it (R75). -/
def State.trigger (s : State) (p : ProgDecl → Bool) : State :=
  forEach ((s.img.programs.filter fun d => 512 ≤ d.flow && p d).map (·.flow))
    (fun s f => { s with trigs := tput 0 s.trigs f (tget 0 s.trigs f + 1) }) s

/-! ### Operands (R78) -/

/-- OPERAND_DELIVER (R78): the head word of queue `q` goes to the oldest entry with an empty slot of kind 1 that names the queue. -/
def execOperandDeliver (t : Time) (q : Fin 32) (s : State) : Out :=
  live t s fun s =>
    match s.headOperand q.val with
    | none => s
    | some w =>
      let open' := fun (p : Nat × OpSlot) => p.2.kind == 1 && p.2.queue == q.val && p.2.word.isNone
      match least (fun p => p.2.serial) (s.itemList.filter fun p => p.2.slots.any open') with
      | none => s
      | some (e, x) =>
        let k := ((x.slots.find? open').map (·.1)).getD 0
        let s1 := s.modQueue q.val fun y => { y with taken := y.taken - 1 }
        (s1.popWords q.val 1).fillSlot e k ((w.valid + 64 * b2n w.last) :: w.bytes)

/-- SCHED_OPND (R78): the staged host word is delivered to a slot as kind 5; the outcome stands in SCHED_OPND_RESULT. -/
def State.wSchedOpnd (s : State) (e : Fin 1024) (k : Fin 4) (tag : BitVec 16) : State :=
  let w := (List.range 8).flatMap fun i => leBytes 4 (s.word (Reg.SCHED_OPND_DATA i))
  let code := s.placeCode e.val k.val 5
  let s1 := (s.set Reg.SCHED_OPND_RESULT.TAG tag.toNat).set Reg.SCHED_OPND_RESULT.STATUS code
  if code = 0 then s1.fillSlot e.val k.val w
  else s1.log Src.service Ev.OPERAND_REJECTED (e.val + 1024 * k.val) code
/-- SCHED_OPND. -/
def execSchedOpnd (t : Time) (e : Fin 1024) (k : Fin 4) (tag : BitVec 16) (s : State) : Out :=
  byHost t s Reg.SCHED_OPND (65536 * tag.toNat + 1024 * k.val + e.val) (fun s => s.wSchedOpnd e k tag)

/-! ### Dependence counters (R79) -/

/-- The item bound to counter `k` becomes ready. -/
def State.dcReady (s : State) (k : Nat) : State :=
  { (s.modDc k fun x => { x with ready := true, since := s.serial }) with serial := s.serial + 1 }

/-- The image binds an item to counter `k` (R79, R375 kind 10): without one its fields have no effect (R373). -/
def Img.bound (g : Img) (k : Nat) : Bool := g.counters.any fun c => c.1 == k

/-- Counter `k` is decreased by 1 (R79). -/
def State.dcDec (s : State) (k : Nat) : State :=
  let v := s.get (Reg.DC_VAL.VALUE k)
  if v = 0 ∨ !s.img.bound k then s
  else
    let s1 := s.set (Reg.DC_VAL.VALUE k) (v - 1)
    if v ≠ 1 then s1
    else
      match (s.dc k).core with
      | some c =>
        ((s1.flag (Reg.DC_STAT.OVERLAP k)).modDc k fun x => { x with held := true }).log
          (Src.core (s.get (Reg.CORE_STAT.PHYS c))) Ev.DC_OVERLAP k 0
      | none => s1.dcReady k

/-- A tick of kind `kd` (1 servo, 2 separation, 3 safety cycle) decreases the counters that select it. -/
def State.dcTick (s : State) (kd : Nat) : State :=
  forN 64 (fun s k => if s.get (Reg.DC_CFG.TICK k) = kd then s.dcDec k else s) s

/-! ### Dispatch (R80–R82) -/

/-- A segment at the motion `x` with the phases `l` left has passed its decision point (R57). -/
def pastDecision (g : Seg) (x : Pva) (l : List Phase) : Bool :=
  g.desc.kind != 4 && (l.isEmpty || (decide (0 < g.alim) && decide (0 < g.jlim) && decide (g.len - x.p < stopDist x.v x.a g.alim g.jlim)))

/-- The time of segments that follow each other, the first joined to its predecessor by `v`, and the BLEND of the last. -/
def chainTime : List Seg → Nat → Rat × Nat
  | [], v => (0, v)
  | g :: rest, v =>
    let r := chainTime rest g.desc.blend
    (segTime g v + r.1, r.2)

/-- The interpolator reaches the decision point of the last released segment of flow `i` within URGENT servo cycles (R80): of the running
one, or of the last one that waits behind it. A segment with BLEND 0 has none (R57). -/
def State.urgent (s : State) (i : Nat) : Bool :=
  match (s.flow i).run with
  | none => false
  | some r =>
    let l := (s.flow i).released
    let h := servoSec * (s.get Reg.SCHED_CFG.URGENT : Rat) * r.scale (s.sigma i)
    if r.stop.isSome ∨ l.any fun g => g.desc.gate then false
    else match l.getLast? with
      | none =>
        if r.seg.desc.blend = 0 then false
        else if r.follows then
          let m := s.stepMotion r
          pastDecision r.seg ⟨r.at'.p + m.v * h, m.v, 0⟩ [⟨1, 0⟩]
        else
          let x := runPhases r.phases h r.at'
          pastDecision r.seg x.1 x.2
      | some g =>
        let before := chainTime l.dropLast r.seg.desc.blend
        let left := h - phaseTime r.phases - before.1
        let x0 : Pva := ⟨0, if before.2 = 0 then 0 else g.start, 0⟩
        let x := runPhases (segPhases g x0 g.join) left x0
        g.desc.blend != 0 && decide (0 ≤ left) && pastDecision g x.1 x.2

/-- The class of a ready item (R80). -/
def State.itemClass (s : State) (e : Nat) (x : Item) : Nat :=
  if 512 ≤ x.flow then x.cls
  else if (s.nextItem x.flow).map (·.1) = some e ∧ s.urgent x.flow then 1 else 2

/-- A candidate for dispatch: an entry or a dependence counter. -/
inductive Cand where
  | entry (e : Nat)
  | counter (k : Nat)
  deriving DecidableEq, Repr

/-- The candidate that is dispatched first: the lowest class, the oldest ready within it. -/
def firstCand : List (Nat × Nat × Cand) → Option (Nat × Nat × Cand)
  | [] => none
  | x :: xs =>
    match firstCand xs with
    | some y => if y.1 < x.1 ∨ (y.1 = x.1 ∧ y.2.1 < x.2.1) then some y else some x
    | none => some x

/-- The ready items with their class and order of readiness. -/
def State.readyCands (s : State) : List (Nat × Nat × Cand) :=
  ((List.range 64).filterMap fun k => if (s.dc k).ready then some (0, (s.dc k).since, Cand.counter k) else none) ++
    (s.itemList.filter fun p => p.2.isReady).map fun p => (s.itemClass p.1 p.2, p.2.readyAt, Cand.entry p.1)

/-- Logical core `c` may take an item now. -/
def State.coreIdle (s : State) (c : Nat) : Bool := s.get (Reg.CORE_STAT.STATE c) = 0 && !s.on (Reg.CORE_STAT.ISOLATED c)

/-- The idle core a candidate goes to (R81): the core it left, the one that last ran its flow, else the lowest idle one; a timed-out
item runs on another core (R83). -/
def State.coreFor (s : State) (c : Cand) : Option Nat :=
  let idle := (List.range 16).filter s.coreIdle
  match c with
  | .counter _ => idle.head?
  | .entry e =>
    match s.item? e with
    | none => none
    | some x =>
      let ok := idle.filter fun c => x.timedOut != some c
      let left := match x.stage with
        | .saved c => ok.find? fun d => d == c
        | _ => none
      let last := ok.find? fun d => 1 + s.get (Reg.CORE_STAT.PHYS d) == tget 0 s.flowCore x.flow
      (left.or last).or ok.head?

/-- CORE_STAT of a core that runs an item. -/
def State.coreRuns (s : State) (c entry flow cls : Nat) : State :=
  (((s.set (Reg.CORE_STAT.STATE c) 1).set (Reg.CORE_STAT.ENTRY c) entry).set (Reg.CORE_STAT.FLOW c) flow).set (Reg.CORE_STAT.CLASS c) cls

/-- A candidate starts on core `c` (R79, R81). -/
def State.startOn (s : State) (cd : Cand) (c cls : Nat) : State :=
  match cd with
  | .counter k =>
    let s1 := (s.set (Reg.DC_VAL.VALUE k) (s.get (Reg.DC_CFG.INIT k))).addMod (Reg.DC_STAT.RUNS k) 1
    let s2 := (s1.set (Reg.DC_STAT.RUNNING k) 1).modDc k fun x => { x with ready := false, core := some c, since := s.now }
    (s2.coreRuns c counterEntry 0 0).syncBusy
  | .entry e =>
    match s.item? e with
    | none => s
    | some x =>
      let s1 := s.putItem e (some { x with stage := .running c, since := s.now })
      let s2 := { s1 with flowCore := tput 0 s1.flowCore x.flow (1 + s.get (Reg.CORE_STAT.PHYS c)) }
      (s2.coreRuns c e x.flow cls).syncBusy

/-- The logical core on which a candidate has timed out: it is dispatched again on another one (R83). -/
def State.barred (s : State) (cd : Cand) : Option Nat :=
  match cd with
  | .entry e => (s.item? e).bind fun x => x.timedOut
  | .counter _ => none

/-- The running item that a ready item of class `cls` pre-empts (R82): the lowest rank, the one dispatched last; never class 0, nor one
on the core `no`. -/
def State.victim (s : State) (cls : Nat) (no : Option Nat) : Option (Nat × Item) :=
  let run := s.itemList.filter fun p => match p.2.stage with
    | .running c => decide (cls < s.get (Reg.CORE_STAT.CLASS c)) && no != some c
    | _ => false
  let rank := fun (p : Nat × Item) => match p.2.stage with
    | .running c => s.get (Reg.CORE_STAT.CLASS c)
    | _ => 0
  let worst := run.foldl (fun m p => max m (rank p)) 0
  let last := (run.filter fun p => rank p == worst)
  let newest := last.foldl (fun m p => max m p.2.since) 0
  (last.filter fun p => p.2.since == newest).head?

/-- A core saves (code 2) or restores (code 3) a context for `d` ns from now on (R82, R92). -/
def State.swapCore (s : State) (c d code : Nat) : State := { s with coreSwap := tput (0, 0) s.coreSwap c (s.now + d, code) }

/-- A pre-empted item leaves core `c`: its context is saved within 2 µs, in a time that is free below that, and it is ready again (R82). -/
def State.saveItem (s : State) (e : Nat) (x : Item) (c : Nat) : State :=
  let d := s.freeBelow 13 2001
  let s1 := d.2.putItem e (some { x with stage := .saved c, ran := x.ran + (s.now - x.since), readyAt := s.serial })
  ({ s1 with serial := s1.serial + 1 }.coreFree c).swapCore c d.1 2

/-- A candidate is dispatched to core `c` (R81, R82): one whose context was saved is restored first, in a time that is free. -/
def State.dispatchTo (s : State) (cd : Cand) (c cls : Nat) : State :=
  let saved : Bool := match cd with
    | .entry e => (s.item? e).any fun x => match x.stage with
      | .saved _ => true
      | _ => false
    | .counter _ => false
  if saved then
    let d := s.freeBelow 14 (2 ^ 32)
    (d.2.startOn cd c cls).swapCore c d.1 3
  else s.startOn cd c cls

/-- ITEM_DISPATCH (R80–R83): the first ready item goes to a core; with none idle it pre-empts a running item of lower rank, whose
context is saved and which becomes ready again. The spec does not say what happens where the only idle core is the one on which the first
ready item has timed out: nothing is dispatched, later ready items wait behind it (DESIGN CHOICE 13). -/
def execItemDispatch (t : Time) (s : State) : Out :=
  live t s fun s =>
    match firstCand s.readyCands with
    | none => s
    | some (cls, _, cd) =>
      match s.coreFor cd with
      | some c => s.dispatchTo cd c cls
      | none =>
        if (List.range 16).any s.coreIdle then s
        else
          match s.victim cls (s.barred cd) with
          | some (e, x) =>
            match x.stage with
            | .running c => (s.saveItem e x c).startOn cd c cls
            | _ => s
          | none => s

/-! ### Completion and release (R79, R83, R84) -/

/-- The completed items of flow `f` that follow each other from the oldest without a gap are released, in order; a rejection frees
what remains (R84). At most `n` items. -/
def State.release (s : State) (f : Nat) : Nat → State
  | 0 => s
  | n + 1 =>
    match s.nextItem f with
    | none => s
    | some (e, x) =>
      if x.stage ≠ .done then s
      else
        let s1 := s.putItem e none
        if 512 ≤ f then s1.release f n
        else
          let s2 := s1.releaseDesc f x
          if (s2.flow f).rejecting then s2.freeFlow f else s2.release f n

/-- The completion of planning of the item of flow `f` and order `sn` reaches the slots that wait for it (R77 kinds 0 and 4) and the
event flows it triggers (R75). The spec does not say how many entries one completion fills where several name the flow: of kind 4 the
oldest waiting entry with an empty slot (DESIGN CHOICE 13). -/
def State.announce (s : State) (f sn : Nat) : State :=
  let s1 := match tget none s.flowPrev f with
    | some p => if p.serial = sn then { s with flowPrev := tput none s.flowPrev f (some { p with done := true }) } else s
    | none => s
  let s2 := match least (fun p => p.2.serial) ((s1.flowItems f).filter fun p => sn < p.2.serial) with
    | some (e, x) =>
      match x.slots.find? fun (p : Nat × OpSlot) => p.2.kind == 0 && p.2.word.isNone with
      | some p => s1.fillSlot e p.1 []
      | none => s1
    | none => s1
  let names := fun (x : Item) => match s.img.program? x.flow with
    | some p => p.trigFlow == f && x.flow != f
    | none => false
  let s3 := match least (fun p => p.2.serial) (s2.itemList.filter fun p =>
      names p.2 && p.2.slots.any fun q => q.2.kind == 4 && q.2.word.isNone) with
    | some (e, x) =>
      match x.slots.find? fun (q : Nat × OpSlot) => q.2.kind == 4 && q.2.word.isNone with
      | some q => s2.fillSlot e q.1 []
      | none => s2
    | none => s2
  s3.trigger fun d => d.trigger == 3 && d.trigFlow == f

/-- A counter item ends on core `c`: one held instance becomes ready (R79). -/
def State.counterEnds (s : State) (c : Nat) : State :=
  let s1 := (s.coreFree c)
  match (List.range 64).find? fun k => (s.dc k).core == some c with
  | none => s1
  | some k =>
    let s2 := (s1.set (Reg.DC_STAT.RUNNING k) 0).modDc k fun x => { x with core := none, held := false }
    if (s.dc k).held then s2.dcReady k else s2

/-- ITEM_COMPLETE (R74, R79, R84): the item on logical core `c` completes: its writes become visible, its counter is decreased, the
slots that wait for it are filled, and the reorder window releases what may go. -/
def execItemComplete (t : Time) (c : Fin 16) (r : ItemResult) (s : State) : Out :=
  live t s fun s =>
    if s.get (Reg.CORE_STAT.STATE c.val) ≠ 1 then s
    else
      let s0 := forEach r.writes (fun s w => s.fabWrite w.addr.toNat (natBytes w.data)) s
      let dec := fun (s : State) => match r.counter with
        | some k => s.dcDec k.val
        | none => s
      let e := s.get (Reg.CORE_STAT.ENTRY c.val)
      if e = counterEntry ∧ (s.item? e).all (fun x => x.stage != .running c.val) then dec (s0.counterEnds c.val)
      else
        match s0.item? e with
        | none => (s0.coreFree c.val)
        | some x =>
          let s1 := ((s0.coreFree c.val)).putItem e (some { x with stage := .done, plan := r.plan })
          let s2 := (dec s1).announce x.flow x.serial
          (s2.release x.flow 1024).syncFlow x.flow

/-- The item of a dependence counter has run for ITEM_MAX on core `c` (R83): it is not repeated, its counter goes on. The spec gives no
flow and no outcome code for it: ITEM_TIMEOUT carries entry 0x3FF, flow 0 and, as for a discard, 1 (DESIGN CHOICE 13). -/
def State.counterTimeout (s : State) (c lim : Nat) : State :=
  match (List.range 64).find? fun k => (s.dc k).core == some c with
  | some k =>
    if (s.dc k).since + lim ≤ s.now then
      (s.log (Src.core (s.get (Reg.CORE_STAT.PHYS c))) Ev.ITEM_TIMEOUT counterEntry 1).counterEnds c
    else s
  | none => s

/-- The item `x` of entry `e` has run for ITEM_MAX on core `c` (R83): dispatched once more from its start, or discarded. -/
def State.itemTimeout (s : State) (c e : Nat) (x : Item) : State :=
  let s1 := (s.coreFree c).log (Src.core (s.get (Reg.CORE_STAT.PHYS c))) Ev.ITEM_TIMEOUT (e + 65536 * x.flow) (b2n x.timedOut.isSome)
  if x.timedOut.isNone then
    { (s1.putItem e (some { x with stage := .ready, ran := 0, readyAt := s1.serial, timedOut := some c })) with serial := s1.serial + 1 }
  else
    let s2 := s1.putItem e (if 512 ≤ x.flow then none else some { x with stage := .done, abandoned := true })
    (s2.release x.flow 1024).syncFlow x.flow

/-- ITEM_TIMEOUT (R83): the item on logical core `c` has run for ITEM_MAX: dispatched once more from its start, or discarded the
second time; nothing where it has not. -/
def execItemTimeout (t : Time) (c : Fin 16) (s : State) : Out :=
  live t s fun s =>
    let lim := s.get Reg.SCHED_CFG.ITEM_MAX * 10000
    let e := s.get (Reg.CORE_STAT.ENTRY c.val)
    if s.get (Reg.CORE_STAT.STATE c.val) ≠ 1 then s
    else
      match (s.item? e).filter fun x => x.stage == .running c.val with
      | some x => if x.ran + (s.now - x.since) < lim then s else s.itemTimeout c.val e x
      | none => s.counterTimeout c.val lim

end Sys2Proof.Machine
end

