-- ==== Sys2Proof/Machine/Fabric.lean ====
section
/-! DEFINITION. The memory fabric (R86–R92): arbitration, hints, the high-class quota, the watchdog and isolation. -/

namespace Sys2Proof.Machine

/-- Fabric target `t`. -/
def State.tgt (s : State) (t : Nat) : TgtSt := tget default s.tgts t
/-- Change fabric target `t`. -/
def State.modTgt (s : State) (t : Nat) (f : TgtSt → TgtSt) : State := { s with tgts := tput default s.tgts t (f (s.tgt t)) }

/-- The high class of R86: the loop-engine transfer engines and the separation engine. -/
def highClass (r : Nat) : Bool := decide (18 ≤ r) && decide (r ≤ 36)

/-- The event source of a requester (R86). -/
def requesterSrc (r : Nat) : Nat :=
  if r ≤ 17 then Src.core r else if r ≤ 35 then Src.engine (r - 18) else if r = 36 then Src.separation
  else if r ≤ 52 then Src.ring (r - 37) else if r ≤ 54 then Src.eth (r - 53) else if r = 55 then Src.archipelago
  else if r = 56 then Src.duplex else if r = 57 then Src.queue 0 else if r = 58 then Src.service else Src.configuration

/-- Requester `r` is isolated (R90). -/
def State.isolated (s : State) (r : Nat) : Bool :=
  if r < 32 then bitAt (s.word Reg.FAB_ISO_LO) r else bitAt (s.word Reg.FAB_ISO_HI) (r - 32)

/-- The window of R89 that an instant lies in. -/
def quotaWindow (t : Nat) : Nat := t / 1000

/-- The grants to the high class of a target are counted in the present window only (R89). -/
def State.rollQuota (s : State) (t : Nat) : State :=
  let w := quotaWindow s.now
  if (s.tgt t).window = w then s
  else (s.modTgt t fun x => { x with window := w, highs := 0 }).set (Reg.FAB_TGT_STAT.HIGH_MASKED t) 0

/-- The requesters of a class in ascending number after the last one granted, wrapping from 63 to 0 (R87). -/
def afterLast (last : Option Nat) (l : List Nat) : List Nat :=
  match last with
  | none => l
  | some k => (l.filter fun r => k < r) ++ l.filter fun r => r ≤ k

/-- The requesters of a decision in the order of R87: the unmasked high class, then the normal one, then the masked high class. -/
def State.fabricOrder (s : State) (t : Nat) (reqs : List Nat) : List Nat :=
  let l := (List.range 64).filter fun r => reqs.contains r && !s.isolated r && decide (r < 60)
  let x := s.tgt t
  let hi := afterLast x.lastHigh (l.filter highClass)
  let no := afterLast x.lastNormal (l.filter fun r => !highClass r)
  if s.on (Reg.FAB_TGT_STAT.HIGH_MASKED t) then no ++ hi else hi ++ no

/-- The longest grant of a target since CLR_MAX (R92). -/
def State.noteHold (s : State) (t n : Nat) : State :=
  s.set (Reg.FAB_TGT_STAT.MAX_HOLD t) (max (s.get (Reg.FAB_TGT_STAT.MAX_HOLD t)) (satU 16 n))

/-- The hints of the losers (R88): the beats left in the owner's declared length plus the lengths that precede, saturating. -/
def hintList (declared : Nat → Nat) : Nat → List Nat → List (Nat × Nat)
  | _, [] => []
  | n, r :: rs => (r, satU 16 n) :: hintList declared (n + declared r) rs

/-- FABRIC_GRANT (R87–R89): the owner of target `k` drops its request in its last beat, with the requests `reqs` (requester, declared
beats) raised; the winner owns the target from the next cycle and each loser gets a hint, masked ones too. -/
def execFabricGrant (t : Time) (k : Fin 33) (reqs : List (Fin 64 × Fin 257)) (s : State) : Out :=
  live t s fun s =>
    let s0 := s.rollQuota k.val
    let x := s0.tgt k.val
    let owned := s0.on (Reg.FAB_TGT_STAT.OWNED k.val)
    let held := s0.now + 1 - x.since
    let s1 := if owned then s0.noteHold k.val held else s0
    let ofReq := fun (r : Nat) => ((reqs.find? fun e => e.1.val == r).map fun e => e.2.val).getD 0
    let left := if owned then x.declared - held else 0
    let order := s1.fabricOrder k.val (reqs.map fun e => e.1.val)
    let hints := hintList ofReq left order
    match order with
    | [] => (s1.modTgt k.val fun y => { y with hints := [] }).set (Reg.FAB_TGT_STAT.OWNED k.val) 0
    | w :: _ =>
      if s1.on (Reg.FAB_TGT_STAT.HIGH_MASKED k.val) && highClass w then
        (s1.modTgt k.val fun y => { y with hints := hints }).set (Reg.FAB_TGT_STAT.OWNED k.val) 0
      else
        let hints := hints.drop 1
        let n := if highClass w then x.highs + 1 else x.highs
        let s2 := s1.modTgt k.val fun y => { y with
          declared := ofReq w, since := s1.now + 1, hints := hints, highs := n
          lastHigh := if highClass w then some w else y.lastHigh
          lastNormal := if highClass w then y.lastNormal else some w }
        let s3 := (s2.set (Reg.FAB_TGT_STAT.OWNER k.val) w).set (Reg.FAB_TGT_STAT.OWNED k.val) 1
        if s3.get (Reg.FAB_TGT_CFG.QUOTA k.val) ≤ n ∧ n ≠ 0 then s3.set (Reg.FAB_TGT_STAT.HIGH_MASKED k.val) 1 else s3

/-- FABRIC_QUOTA_WINDOW (R89): a new 1 µs window begins and the high class is unmasked at every target. -/
def execFabricQuotaWindow (t : Time) (s : State) : Out := live t s fun s => forN 33 State.rollQuota s

/-- The islands with an axis on ring `k` start SS1 (R90). -/
def State.ss1Ring (s : State) (k : Nat) : State :=
  forEach (s.img.islandIds.filter fun i => (s.img.ownAxes i).any fun a => s.ringOf a == k) State.ss1 s

/-- A planning core's port is isolated (R90): the islands of its items start SS1, the items are dispatched again from their start. -/
def State.isolateCore (s : State) (phys : Nat) : State :=
  match (List.range 16).find? fun c => s.get (Reg.CORE_STAT.PHYS c) == phys with
  | none => s
  | some c =>
    let on := s.itemList.filter fun p => p.2.stage == .running c || p.2.stage == .saved c || p.2.stage == .suspended c
    let s1 := forEach on (fun s p =>
      let s1 := { (s.putItem p.1 (some { p.2 with stage := .ready, ran := 0, readyAt := s.serial })) with
        serial := s.serial + 1, submitted := s.submitted.filter fun x => x.1 != some p.1 }
      if p.2.flow < 512 then s1.ss1 p.2.flow else s1) s
    let s2 := match (List.range 64).find? fun k => (s1.dc k).core == some c with
      | some k => ((s1.set (Reg.DC_STAT.RUNNING k) 0).modDc k fun x => { x with core := none }).dcReady k
      | none => s1
    ((s2.coreFree c).set (Reg.CORE_STAT.ISOLATED c) 1).set (Reg.CORE_STAT.STATE c) 4

/-- What an isolation stops, by the table of R90. -/
def State.isolationStops (s : State) (r : Nat) : State :=
  if r ≤ 17 then s.isolateCore r
  else if r ≤ 35 then
    match (List.range 16).find? fun e => s.get (Reg.LE_STAT.PHYS e) == r - 18 with
    | some e => s.ss1Ring (s.get (Reg.LE_CFG.RING e))
    | none => s
  else if r = 36 then s.ss1All
  else if r ≤ 52 then s.ss1Ring (r - 37)
  else s

/-- Requester `r` loses its port (R90): its grants end, and every transfer in progress gets an error. -/
def State.cutPort (s : State) (r : Nat) : State :=
  let s1 := if r < 32 then s.setWord Reg.FAB_ISO_LO (withBit (s.word Reg.FAB_ISO_LO) r true)
    else s.setWord Reg.FAB_ISO_HI (withBit (s.word Reg.FAB_ISO_HI) (r - 32) true)
  forN 33 (fun s k =>
    if s.on (Reg.FAB_TGT_STAT.OWNED k) && s.get (Reg.FAB_TGT_STAT.OWNER k) == r then
      { ((s.noteHold k (s.now - (s.tgt k).since)).set (Reg.FAB_TGT_STAT.OWNED k) 0) with fabErr := s.fabErr ++ [r] }
    else s) s1

/-- FABRIC_HANG (R90): a grant of target `k` has been held for 20 µs: the owner's port is isolated, FABRIC_HANG is logged and the
islands that depend on the port start SS1; nothing where no grant has been held so long. -/
def execFabricHang (t : Time) (k : Fin 33) (s : State) : Out :=
  live t s fun s =>
    let held := s.now - (s.tgt k.val).since
    if !s.on (Reg.FAB_TGT_STAT.OWNED k.val) || decide (held < 20000) then s
    else
      let r := s.get (Reg.FAB_TGT_STAT.OWNER k.val)
      ((s.cutPort r).log (requesterSrc r) Ev.FABRIC_HANG (r + 256 * k.val) held).isolationStops r

/-- FAB_CLR_MAX (R92): MAX_HOLD of every target becomes 0. -/
def State.wFabClrMax (s : State) : State :=
  forN 33 (fun s k => s.set (Reg.FAB_TGT_STAT.MAX_HOLD k) 0) s
/-- FAB_CLR_MAX. -/
def execFabClrMax (t : Time) (s : State) : Out :=
  byHost t s Reg.FAB_CTRL 1 State.wFabClrMax

end Sys2Proof.Machine
end

