-- ==== Sys2Proof/Machine/ImageCheck.lean ====
section
/-! DEFINITION. The configuration image as bytes: header, section table, entries (R371–R375), the checks of R377 in their order up
to reason 12, with the rules that other chapters give to the image checker, and the tables an accepted image loads. -/

namespace Sys2Proof.Machine

/-! ### Header, sections and entries (R371–R374) -/

/-- A failed check (R377, R381): its reason, the TAG and the byte offset of the failing entry, 0 where the check has none. -/
structure Rej where
  reason : Nat
  tag : Nat
  ofs : Nat
  deriving DecidableEq, Repr

/-- An entry of the section table (R372) and its place. -/
structure Sect where
  tag : Nat
  ofs : Nat
  len : Nat
  crc : Nat
  place : Nat
  deriving DecidableEq, Repr

/-- An entry of a section body (R373): its section, its place in the image, KIND and body. -/
structure Ent where
  tag : Nat
  place : Nat
  kind : Nat
  body : List Nat
  deriving DecidableEq, Repr

/-- A row of the table of R374. -/
structure SecRow where
  tag : Nat
  required : Bool
  blocks : List (Nat × Nat)
  kinds : List Nat
  deriving DecidableEq, Repr

/-- TAGs as numbers, bytes in little-endian order (R381). -/
def tagGLBL : Nat := 0x4C424C47
def tagISLD : Nat := 0x444C5349
def tagAXES : Nat := 0x53455841
def tagRING : Nat := 0x474E4952
def tagLAWS : Nat := 0x5357414C
def tagSEGP : Nat := 0x50474553
def tagSEPA : Nat := 0x41504553
def tagNRWS : Nat := 0x5357524E
def tagSAFE : Nat := 0x45464153
def tagDPLX : Nat := 0x584C5044
def tagFEDN : Nat := 0x4E444546
def tagNETW : Nat := 0x5754454E
def tagQUES : Nat := 0x53455551
def tagCMPE : Nat := 0x45504D43
def tagLINE : Nat := 0x454E494C

/-- The sections, the blocks their REG entries may address (first and last address), and their other kinds (R374). -/
def secRows : List SecRow :=
  [ ⟨tagGLBL, true, [], [20, 21]⟩
  , ⟨tagISLD, true, [(0x48000, 0x4FFFF)], [3]⟩
  , ⟨tagAXES, true, [(0x100000, 0x11FFFF), (0x124000, 0x127FFF), (0x161000, 0x161FFF)], [4]⟩
  , ⟨tagRING, true, [(0x140000, 0x14FFFF)], [5]⟩
  , ⟨tagLAWS, true, [(0x80000, 0xC7FFF)], [2, 6, 7, 8]⟩
  , ⟨tagSEGP, true, [(0x40000, 0x47FFF)], [2, 9, 10]⟩
  , ⟨tagSEPA, true, [(0x180000, 0x19FFFF)], [11, 12, 13, 14]⟩
  , ⟨tagNRWS, false, [(0x1A0000, 0x1BFFFF)], []⟩
  , ⟨tagSAFE, true, [(0x1C0000, 0x1DFFFF)], [11, 12, 15, 16, 17, 18, 19, 22]⟩
  , ⟨tagDPLX, false, [], [23]⟩
  , ⟨tagFEDN, false, [(0x200000, 0x21FFFF)], [24, 25]⟩
  , ⟨tagNETW, false, [(0x220000, 0x23FFFF)], [26]⟩
  , ⟨tagQUES, false, [(0x240000, 0x25FFFF)], []⟩
  , ⟨tagCMPE, false, [(0x120000, 0x123FFF)], []⟩
  , ⟨tagLINE, false, [(0x10000, 0x1FFFF)], []⟩ ]

/-- The row of a TAG. -/
def secRow? (tag : Nat) : Option SecRow := secRows.find? fun r => r.tag == tag

/-- The size of an image copy, 32 MiB (R370). -/
def imgMax : Nat := 0x2000000

/-- LENGTH of an image (R371). -/
def imgLength (img : List Nat) : Nat := leAt img 0x0C 4

/-- The section table of an image (R372). -/
def imgSects (img : List Nat) : List Sect :=
  (List.range (leAt img 0x14 2)).map fun i =>
    let o := 0x100 + 16 * i
    ⟨leAt img o 4, leAt img (o + 4) 4, leAt img (o + 8) 4, leAt img (o + 12) 4, o⟩

/-- The bytes of a section. -/
def Sect.bytes (img : List Nat) (x : Sect) : List Nat := (img.drop x.ofs).take x.len

/-- The number that four bytes or a longer run of an entry's body give. -/
def Ent.u (e : Ent) (o n : Nat) : Nat := leAt e.body o n
/-- The `k` 32-bit words of an entry's body from offset `o`. -/
def Ent.words (e : Ent) (o k : Nat) : List Nat := (List.range k).map fun j => e.u (o + 4 * j) 4

/-- Is LEN right for the KIND (R373, R375; reason 7)? -/
def Ent.lenOk (e : Ent) : Bool :=
  let n := e.body.length
  match e.kind with
  | 1 => n % 8 == 0
  | 2 => decide (8 ≤ n)
  | 3 => decide (4 ≤ n) && n == 4 + (2 * e.u 3 1 + 3) / 4 * 4
  | 4 => n == 44
  | 5 => n == 8
  | 6 => n == 260
  | 7 => decide (32 ≤ n) && n == 32 + 4 * e.u 28 2
  | 8 => n == 132
  | 9 => decide (12 ≤ n) && n == 12 + 4 * e.u 3 1
  | 10 => n == 8
  | 11 => n == 92
  | 12 => n == 56
  | 13 => n == 32
  | 14 => n == 44
  | 15 => n == 20
  | 16 => n == 44
  | 17 => n == 60
  | 18 => n == 256
  | 19 => n == 52
  | 20 => n == 16
  | 21 => true
  | 22 => n == 8
  | 23 => n == 8
  | 24 => n == 8
  | 25 => true
  | 26 => n == 20
  | _ => false

/-- The entries of a section body from offset `o` of the image (R373), and the offset of the first one that breaks reason 7. -/
def entriesFrom (row : SecRow) (tag : Nat) : Nat → Nat → List Nat → List Ent × Option Nat
  | 0, _, _ => ([], none)
  | n + 1, o, l =>
    if l.isEmpty then ([], none)
    else
      let e : Ent := ⟨tag, o, leAt l 0 2, (l.drop 8).take (leAt l 4 4)⟩
      let ok := decide (8 ≤ l.length) && leAt l 2 2 == 0 && leAt l 4 4 % 4 == 0 && decide (8 + leAt l 4 4 ≤ l.length) &&
        (e.kind == 1 || row.kinds.contains e.kind) && e.lenOk
      if !ok then ([], some o)
      else
        let rest := entriesFrom row tag n (o + 8 + e.body.length) (l.drop (8 + e.body.length))
        (e :: rest.1, rest.2)

/-- The entries of a section, and the offset of its first bad one. -/
def sectEntries (img : List Nat) (x : Sect) : List Ent × Option Nat :=
  match secRow? x.tag with
  | some row => entriesFrom row x.tag (x.len + 1) x.ofs (x.bytes img)
  | none => ([], none)

/-! ### What the entries load (R375) -/

/-- The register pairs of a REG entry: address, value. -/
def Ent.pairs (e : Ent) : List (Nat × Nat) := (List.range (e.body.length / 8)).map fun j => (e.u (8 * j) 4, e.u (8 * j + 4) 4)

/-- The entries of one kind, all sections or one. -/
def ofKind (es : List Ent) (k : Nat) : List Ent := es.filter fun e => e.kind == k
def ofKindIn (es : List Ent) (tag k : Nat) : List Ent := es.filter fun e => e.kind == k && e.tag == tag

/-- ISLAND. -/
def Ent.island (e : Ent) : IslandDecl :=
  { island := e.u 0 2, toolPoint := bitAt (e.u 2 1) 0
    members := (List.range (e.u 3 1)).map fun j => let w := e.u (4 + 2 * j) 2; ⟨bitAt w 15, bits w 0 9⟩ }
/-- AXIS. -/
def Ent.axis (e : Ent) : AxisDecl :=
  { axis := e.u 0 1, kind := e.u 1 1, polePairs := e.u 2 1, nbits := e.u 3 1, absolute := bitAt (e.u 4 1) 0
    brake := bitAt (e.u 4 1) 1, encLines := e.u 8 4, encCpr := e.u 12 4, commOfs := e.u 16 4, perStep := e.u 20 4
    posOfs := sx 64 (e.u 24 8), zero := sx 64 (e.u 32 8), scale := e.u 40 4 }
/-- NODEMAP. -/
def Ent.nodeMap (e : Ent) : NodeMap := ⟨e.u 0 1, e.u 1 1, e.u 2 1, e.u 3 1, e.u 4 4⟩
/-- LAWDECL. -/
def Ent.law (e : Ent) : LawDecl :=
  { engine := e.u 0 1, slot := e.u 1 1, iBase := e.u 4 4, uBase := e.u 8 4, pBase := e.u 12 4, wBase := e.u 16 4
    rates := e.u 20 8, words := e.words 32 (e.u 28 2) }
/-- IMPORT. -/
def Ent.import' (e : Ent) : ImportDecl := ⟨e.u 0 1, e.words 4 32⟩
/-- PROGRAM. -/
def Ent.program (e : Ent) : ProgDecl :=
  { flow := e.u 0 2, cls := e.u 2 1, entry := e.u 4 4, trigger := e.u 8 1, source := e.u 9 1, trigFlow := e.u 10 2
    slots := e.words 12 (e.u 3 1) }
/-- LINK. -/
def Ent.link (e : Ent) : LinkDecl :=
  { island := e.u 0 2, link := e.u 2 1, parent := e.u 3 1, axis := e.u 4 2, m := e.words 8 12, screw := e.words 56 6
    zero := sx 64 (e.u 80 8), scale := e.u 88 4 }
/-- ISLBASE. -/
def Ent.base (e : Ent) : BaseDecl := ⟨e.u 0 2, e.u 2 2, e.u 4 1, e.words 8 12⟩
/-- CAPSULE (7 numbers) and SPHERE (4 numbers). -/
def Ent.bodyDecl (e : Ent) : BodyDecl := ⟨e.u 0 2, e.u 2 1, e.words 4 ((e.body.length - 4) / 4)⟩
/-- MASK. -/
def Ent.mask (e : Ent) : MaskDecl := ⟨e.u 0 2, e.u 4 8, e.u 12 32⟩
/-- SHOAL. -/
def Ent.shoal (e : Ent) : ShoalDecl := ⟨e.u 0 1, e.words 4 10⟩
/-- SAFEISL. -/
def Ent.safeIsl (e : Ent) : SafeIsl := ⟨e.u 0 2, e.u 4 4, e.u 8 4, e.u 12 4, e.u 16 4, e.u 20 8, e.u 28 32⟩
/-- PCONN. -/
def Ent.pconn (e : Ent) : PConn := ⟨e.u 0 1, e.u 1 1, e.u 2 1, e.words 4 12⟩
/-- NETADDR. -/
def Ent.net (e : Ent) : NetAddr := ⟨e.u 0 1, bitAt (e.u 1 1) 0, e.u 2 2, e.u 4 6, e.u 12 4, e.u 16 4⟩

/-- The tables that the entries of an image load, its header fields and the sections it has. -/
def imgOf (img : List Nat) (secs : List Nat) (es : List Ent) : Img :=
  { islands := (ofKind es 3).map Ent.island
    axes := (ofKind es 4).map Ent.axis
    nodeMaps := (ofKind es 5).map Ent.nodeMap
    laws := (ofKind es 7).map Ent.law
    imports := (ofKind es 8).map Ent.import'
    programs := (ofKind es 9).map Ent.program
    counters := (ofKind es 10).map fun e => (e.u 0 1, e.u 4 4)
    links := (ofKindIn es tagSEPA 11).map Ent.link
    bases := (ofKindIn es tagSEPA 12).map Ent.base
    capsules := (ofKind es 13).map Ent.bodyDecl
    masks := (ofKind es 14).map Ent.mask
    safeLinks := (ofKindIn es tagSAFE 11).map Ent.link
    safeBases := (ofKindIn es tagSAFE 12).map Ent.base
    spheres := (ofKind es 15).map Ent.bodyDecl
    safeShoals := (ofKind es 16).map Ent.shoal
    safeIsls := (ofKind es 17).map Ent.safeIsl
    sbits := ((ofKind es 18).flatMap Ent.body).take 256
    pconns := (ofKind es 19).map Ent.pconn
    autoStart := (ofKind es 20).any fun e => bitAt (e.u 0 1) 0
    lineMap := (ofKind es 21).flatMap fun e => e.words 0 (e.body.length / 4)
    signature := ((ofKind es 22).map fun e => e.u 0 8).headD 0
    shoalsUsed := (List.range 256).filter fun k =>
      (ofKindIn es tagSEPA 1).any fun e => e.pairs.any fun p => p.1 == Reg.SH_CFG k
    duplex := secs.contains tagDPLX
    regions := (ofKind es 23).map fun e => (e.u 0 4, e.u 4 4)
    federation := secs.contains tagFEDN
    ranks := ((ofKind es 24).map fun e => (List.range 4).map fun j => e.u (2 * j) 2).headD []
    exports := ((ofKind es 25).flatMap fun e => (List.range (e.body.length / 2)).map fun j => e.u (2 * j) 2).filter (· != 0xFFFF)
    net := (ofKind es 26).map Ent.net
    hdrCrc := leAt img 0xFC 4
    seq := some (leAt img 8 4) }

/-- An image whose entries have been read: the entries, the section TAGs, the loaded register words by address with the TAG and
place of the pair that loads them, and the tables. -/
structure Parsed where
  ents : List Ent
  secs : List Nat
  regs : Tbl (Nat × Nat × Nat)
  g : Img
  deriving DecidableEq, Repr

/-- Read the entries (R373): a later pair for the same address replaces an earlier one. -/
def parse (img : List Nat) (secs : List Nat) (es : List Ent) : Parsed :=
  { ents := es, secs := secs, g := imgOf img secs es
    regs := (ofKind es 1).foldl (fun t e => e.pairs.foldl (fun t p => tins p.1 (e.tag, e.place, p.2) t) t) [] }

/-- A register word as the image loads it; an image field that no pair loads holds 0 (R373). -/
def Parsed.word (p : Parsed) (a : Nat) : Nat := match tget? a p.regs with | some x => x.2.2 | none => 0
/-- A register field as the image loads it. -/
def Parsed.get (p : Parsed) (f : Fld) : Nat := bits (p.word f.addr) f.lo f.width
/-- Is a field of the image non-zero? -/
def Parsed.on (p : Parsed) (f : Fld) : Bool := p.get f ≠ 0
/-- The value of a binary32 register. -/
def Parsed.f (p : Parsed) (a : Nat) : Rat := f32 (p.word a)

/-- One check of a list: the TAG and place it is reported with, and whether it holds. -/
abbrev Chk := Nat × Nat × Bool

/-- A check on an entry. -/
def Ent.chk (e : Ent) (ok : Bool) : Chk := (e.tag, e.place, ok)
/-- A check on a register. -/
def Parsed.chk (p : Parsed) (a : Nat) (ok : Bool) : Chk :=
  match tget? a p.regs with
  | some x => (x.1, x.2.1, ok)
  | none => (0, 0, ok)
/-- A field lies within a range. -/
def Parsed.within (p : Parsed) (f : Fld) (lo hi : Nat) : Chk := p.chk f.addr (decide (lo ≤ p.get f) && decide (p.get f ≤ hi))

/-- The first check of a list that fails, with its reason. -/
def firstBad (reason : Nat) (l : List Chk) : Option Rej :=
  (l.find? fun c => !c.2.2).map fun c => ⟨reason, c.1, c.2.1⟩

/-! ### Instances in use (R373) -/

/-- Islands and axis channels declared. -/
def Parsed.islands (p : Parsed) : List Nat := p.g.islandIds
def Parsed.axes (p : Parsed) : List Nat := p.g.axisIds
/-- Rings with RING_CFG.EN = 1. -/
def Parsed.rings (p : Parsed) : List Nat := (List.range 16).filter fun k => p.on (Reg.RING_CFG.EN k)
/-- Loop-engine slots with LAW_AXIS.VALID = 1. -/
def Parsed.slots (p : Parsed) : List (Nat × Nat) :=
  ((List.range 16).flatMap fun e => (List.range 24).map fun sl => (e, sl)).filter fun x => p.on (Reg.LAW_AXIS.VALID x.1 x.2)
/-- Task entries with TASK_ENTRY.VALID = 1. -/
def Parsed.tasks (p : Parsed) : List (Nat × Nat) :=
  ((List.range 16).flatMap fun e => (List.range 32).map fun k => (e, k)).filter fun x => p.on (Reg.TASK_ENTRY.VALID x.1 x.2)
/-- Safety inputs, connections, narrows, pair entries, line axes, local encoders, time domains in use. -/
def Parsed.inputs (p : Parsed) : List Nat := (List.range 8).filter fun i => p.on (Reg.IN_CFG.FUNC i)
def Parsed.conns (p : Parsed) : List Nat := (List.range 64).filter fun c => p.on (Reg.CONN_CFG.VALID c)
def Parsed.narrows (p : Parsed) : List Nat := (List.range 128).filter fun n => p.on (Reg.NRW_CFG.VALID n)
def Parsed.pairs (p : Parsed) : List Nat := (List.range 1024).filter fun n => p.on (Reg.PAIR_CFG.VALID n)
def Parsed.lines (p : Parsed) : List Nat := (List.range 8).filter fun k => p.on (Reg.LINE_CFG.SOURCE k)
def Parsed.encs (p : Parsed) : List Nat := (List.range 8).filter fun k => p.on (Reg.ENC_CFG.EN k)
def Parsed.domains (p : Parsed) : List Nat := (List.range 4).filter fun d => p.on (Reg.TD_CFG.EN d)
/-- The members of a narrows in use. -/
def Parsed.members (p : Parsed) (n : Nat) : List Nat := (List.range 16).filter fun m => p.on (Reg.NRW_MEMBER.VALID n m)
/-- The person slots in the range of a consumed PERSON connection (R233, R235). -/
def Parsed.ranged (p : Parsed) (slot : Nat) : Bool :=
  p.g.pconns.any fun c => decide (c.first ≤ slot) && decide (slot < c.first + c.count)

/-! ### Reason 8: REG targets and bits, MEM within the space (R373, R412) -/

/-- A REG pair addresses a block of its section, a register with an image field, and keeps every other bit at its reset value. -/
def pairOk (row : SecRow) (q : Nat × Nat) : Bool :=
  (row.blocks.any fun b => decide (b.1 ≤ q.1) && decide (q.1 ≤ b.2)) &&
  match Regs.find q.1 with
  | some (r, _, _) =>
    r.img != 0 && q.2 - Nat.land q.2 r.img == (Regs.resetWord q.1).toNat - Nat.land (Regs.resetWord q.1).toNat r.img
  | none => false

/-- The data words of a MEM entry. -/
def Ent.memWords (e : Ent) : List Nat := e.words 8 ((e.body.length - 8) / 4)

/-- A MEM entry lies within its space (R373, R412). -/
def Ent.memOk (e : Ent) : Bool :=
  let sp := e.u 0 4
  let a := e.u 4 4
  let n := e.memWords.length
  if sp = 0 then
    a % 4 == 0 &&
      ((decide (0x20000000 ≤ a) && decide (a + 4 * n ≤ 0x21800000)) || (decide (0x40000000 ≤ a) && decide (a + 4 * n ≤ 0xBFE00000)))
  else if 0x100 ≤ sp ∧ sp < 0x110 then decide (a + n ≤ 0x4000)
  else if 0x200 ≤ sp ∧ sp < 0x210 then decide (a + n ≤ 0x10000)
  else false

/-- The checks of reason 8. -/
def Parsed.reason8 (p : Parsed) : List Chk :=
  p.ents.flatMap fun e =>
    if e.kind = 1 then
      match secRow? e.tag with
      | some row => [e.chk (e.pairs.all (pairOk row))]
      | none => []
    else if e.kind = 2 then [e.chk e.memOk] else []

/-! ### Reason 9: ranges of R375 and of the register tables -/

/-- A binary32 word is positive and finite. -/
def posFinite (w : Nat) : Bool := f32Finite w && decide (0 < f32 w)

/-- The fields of an entry lie within the ranges R375 gives them; a byte it gives as 0 is 0. -/
def Ent.rangeOk (e : Ent) : Bool :=
  let isl := decide (e.u 0 2 < 512)
  let slot := decide (e.u 0 1 < 16) && decide (e.u 1 1 < 24)
  match e.kind with
  | 3 =>
    isl && decide (e.u 2 1 < 2) && decide (1 ≤ e.u 3 1) &&
    ((List.range (e.u 3 1)).all fun j =>
      let w := e.u (4 + 2 * j) 2
      bits w 9 6 == 0 && (bitAt w 15 || decide (bits w 0 9 < 256))) && leAt e.body (4 + 2 * e.u 3 1) 2 == 0
  | 4 =>
    decide (e.u 1 1 ≤ 2) && decide (8 ≤ e.u 3 1) && decide (e.u 3 1 ≤ 40) && decide (e.u 4 1 < 4) && e.u 5 3 == 0 &&
    e.u 24 3 == 0 && f32Finite (e.u 40 4) && decide (f32 (e.u 40 4) ≠ 0)
  | 5 => decide (e.u 0 1 < 16) && decide (e.u 1 1 ≤ 1) && decide (e.u 3 1 < 25)
  | 6 => slot && decide (e.u 2 1 ≤ 1) && e.u 3 1 == 0
  | 7 =>
    slot && e.u 2 2 == 0 && e.u 30 2 == 0 && decide (e.u 28 2 ≤ 64) && (e.words 4 4).all posFinite
  | 8 =>
    decide (e.u 0 1 < 16) && e.u 1 3 == 0 && ((e.words 4 32).all fun w => !bitAt w 31 || decide (bits w 8 8 < 0x20))
  | 9 =>
    decide (e.u 0 2 ≤ 575) && decide (e.u 3 1 ≤ 4) && (decide (e.u 0 2 < 512) || (decide (1 ≤ e.u 2 1) && decide (e.u 2 1 ≤ 3))) &&
    decide (e.u 8 1 ≤ 3) && (e.u 8 1 != 1 || decide (e.u 9 1 < 32)) && (e.u 8 1 != 2 || decide (e.u 9 1 < 8)) &&
    (e.u 8 1 != 3 || decide (e.u 10 2 ≤ 575)) &&
    ((e.words 12 (e.u 3 1)).all fun w => decide (bits w 0 3 ≤ 5) && (bits w 0 3 != 1 || decide (bits w 8 8 < 32)))
  | 10 => decide (e.u 0 1 < 64) && e.u 1 3 == 0
  | 11 => isl && (decide (e.u 4 2 < 256) || e.u 4 2 == 0xFFFF) && e.u 6 2 == 0
  | 12 => isl && (decide (e.u 2 2 < 512) || e.u 2 2 == 0xFFFF) && e.u 5 3 == 0
  | 13 => isl && e.u 3 1 == 0
  | 14 => isl && e.u 2 2 == 0
  | 15 => isl && e.u 3 1 == 0
  | 16 => e.u 1 3 == 0
  | 17 => isl && e.u 2 2 == 0
  | 18 => e.body.all fun b => b == 0 || (decide (8 ≤ b) && decide (b ≤ 40))
  | 19 => decide (e.u 0 1 < 64) && decide (e.u 1 1 + e.u 2 1 ≤ 64) && e.u 3 1 == 0
  | 20 => decide (e.u 0 1 < 2) && (e.body.drop 1).all (· == 0)
  | 24 => (List.range 4).all fun j => decide (e.u (2 * j) 2 < 512) || e.u (2 * j) 2 == 0xFFFF
  | 25 => (List.range (e.body.length / 2)).all fun j => decide (e.u (2 * j) 2 < 4096) || e.u (2 * j) 2 == 0xFFFF
  | 26 => decide (e.u 0 1 ≤ 1) && decide (e.u 1 1 < 2) && decide (e.u 2 2 < 4096) && e.u 10 2 == 0
  | _ => true

/-- The checks of reason 9: entries, then image fields, device-wide and of instances in use (R373). -/
def Parsed.reason9 (p : Parsed) : List Chk :=
  p.ents.map (fun e => e.chk e.rangeOk) ++
  [p.within Reg.SCHED_CFG.ITEM_MAX 10 10000, p.within Reg.SCHED_CFG.URGENT 1 255, p.within Reg.SEP_CFG.HASH_CELL 16 65535] ++
  (List.range 18).map (fun e => p.within (Reg.LE_CFG.AXES e) 0 24) ++
  p.g.counters.map (fun c => p.within (Reg.DC_CFG.INIT c.1) 1 65535) ++
  p.islands.map (fun i => p.within (Reg.ISL_CFG.AXES i) 1 256) ++
  p.slots.flatMap (fun x => [p.within (Reg.BAND_CFG.DWELL x.1 x.2) 1 65535, p.within (Reg.BAND_CFG.N_OUT x.1 x.2) 1 255]) ++
  p.axes.flatMap (fun a =>
    [p.within (Reg.AX_CFG.KIND a) 0 2, p.within (Reg.DRV_SEQ0.PRECHG_T a) 1 65535, p.within (Reg.FB_CFG.BITS a) 8 40,
     p.within (Reg.LIFE_CFG.STOP a) 128 255]) ++
  p.encs.map (fun k => p.within (Reg.ENC_CFG.ILL_WIN k) 1 65535) ++
  p.rings.flatMap (fun k => [p.within (Reg.RING_CFG.NODES k) 0 25, p.within (Reg.GRP_CFG.SS1_T k) 1 65535]) ++
  p.narrows.flatMap (fun n => [p.within (Reg.NRW_CFG.ROLE n) 0 2, p.within (Reg.NRW_CFG.WAIT_MAX n) 1 255]) ++
  p.inputs.flatMap (fun i => [p.within (Reg.IN_TIME.DISC_T i) 10 1000, p.within (Reg.IN_TIME.TP_PER i) 1 100]) ++
  p.conns.flatMap (fun c => [p.within (Reg.CONN_CFG.KIND c) 0 2, p.within (Reg.CONN_CFG.SEQ_WIN c) 1 255]) ++
  p.domains.map (fun d => p.within (Reg.TD_CFG.ROLE d) 0 2) ++
  p.lines.map (fun k => p.chk (Reg.LINE_CFG k) (decide (p.get (Reg.LINE_CFG.SOURCE k) ≤ 4) && (p.get (Reg.LINE_CFG.SOURCE k) != 1 ||
    decide (p.get (Reg.LINE_CFG.SRC_INDEX k) < 8))))

/-! ### Reason 10: the rules other chapters give to the image checker, and references between entries -/

/-- How often a list holds a value. -/
def timesIn (l : List Nat) (x : Nat) : Nat := (l.filter (· == x)).length

/-- The hierarchy (R45): every member declared, one owner, one parent, no cycle, no empty island. -/
def Parsed.hierarchy (p : Parsed) : List Chk :=
  let all := p.g.islands.flatMap (·.members)
  let owned := (all.filter fun m => !m.isIsland).map (·.number)
  let kids := (all.filter fun m => m.isIsland).map (·.number)
  ((ofKind p.ents 4).map fun e => e.chk (timesIn p.axes (e.u 0 1) == 1)) ++
  (ofKind p.ents 3).map fun e =>
    let d := e.island
    e.chk (timesIn p.islands d.island == 1 &&
      (d.members.all fun m =>
        if m.isIsland then p.islands.contains m.number && timesIn kids m.number == 1
        else p.axes.contains m.number && timesIn owned m.number == 1) &&
      !(p.g.ancestors d.island).contains d.island && !(p.g.axesOf d.island).isEmpty)

/-- The FEDN section names shared line `n` (R28): a FED_PUB word that it loads carries the number, whether or not EN makes this device its
home (DEDUCED 10: no other entry of the section has a place for one). -/
def Parsed.sharedNamed (p : Parsed) (n : Nat) : Bool :=
  (List.range 8).any fun l => (tget? (Reg.FED_PUB l) p.regs).isSome && p.get (Reg.FED_PUB.SHARED l) == n

/-- Line axes (R28), the fabric quota (R89), soft windows (R64), topology (R189), the TAP entry of a pair (R301), inputs (R275). -/
def Parsed.plain (p : Parsed) : List Chk :=
  ((List.range 8).map fun k =>
    let src := p.get (Reg.LINE_CFG.SOURCE k)
    let ix := p.get (Reg.LINE_CFG.SRC_INDEX k)
    p.chk (Reg.LINE_CFG k) (decide (src ≤ 4) && (src != 1 || p.on (Reg.ENC_CFG.EN ix)) && (src != 2 || p.axes.contains ix) &&
      (src != 3 || p.sharedNamed ix))) ++
  (List.range 33).map (fun t => p.chk (Reg.FAB_TGT_CFG t) (p.on (Reg.FAB_TGT_CFG.QUOTA t))) ++
  p.axes.map (fun a => p.chk (Reg.AX_SOFT_CFG a) (!(p.on (Reg.FB_CPR.CPR a) && p.on (Reg.AX_SOFT_CFG.EN a)))) ++
  p.rings.map (fun k => p.chk (Reg.RING_CFG k) (p.get (Reg.RING_CFG.TOPOLOGY k) != 3 &&
    (!p.g.duplex || p.get (Reg.RING_CFG.TOPOLOGY k) == 0))) ++
  (if p.g.duplex then p.rings.map fun k => p.chk (Reg.RING_CFG k)
      (((List.range 32).filter fun i => p.get (Reg.SCHED_ACT.KIND k i) == 4).length == 1) else []) ++
  p.inputs.map (fun i => p.chk (Reg.IN_CFG i) (decide (p.get (Reg.IN_CFG.FUNC i) ≤ 4)))

/-- Queues (R360, R362), where the QUES section is present. -/
def Parsed.queueRules (p : Parsed) : List Chk :=
  if !p.secs.contains tagQUES then []
  else (List.range 32).map fun q =>
    let m := p.get (Reg.Q_CFG.MODE q)
    let l := p.get (Reg.Q_CFG.LWM q)
    let h := p.get (Reg.Q_CFG.HWM q)
    p.chk (Reg.Q_CFG q) (m != 3 && (m != 1 || decide (16 ≤ q)) && decide (1 ≤ l) && decide (l < h) && decide (h ≤ 511))

/-- Safety connections (R291) and the person ranges (R232, R291). -/
def Parsed.connRules (p : Parsed) : List Chk :=
  let same := fun c d => p.word (Reg.CONN_ID c) == p.word (Reg.CONN_ID d) && p.get (Reg.CONN_CFG.DIR c) == p.get (Reg.CONN_CFG.DIR d)
  (p.conns.map fun c =>
    let dir := p.get (Reg.CONN_CFG.DIR c)
    let ex := p.get (Reg.CONN_TIME.EXPECT c)
    let st := p.get (Reg.CONN_TIME.SEND_T c)
    p.chk (Reg.CONN_CFG c) (p.word (Reg.CONN_ID c) != 0 && (p.conns.filter (same c)).length == 1 &&
      (if dir = 0 then decide (4 ≤ ex) && decide (ex ≤ 1000) && p.get (Reg.CONN_CFG.KIND c) != 2
       else decide (1 ≤ st) && decide (st ≤ 500)))) ++
  (ofKind p.ents 19).map fun e =>
    let d := e.pconn
    e.chk (p.on (Reg.CONN_CFG.VALID d.conn) && p.get (Reg.CONN_CFG.DIR d.conn) == 0 && p.get (Reg.CONN_CFG.KIND d.conn) == 0 &&
      ((List.range d.count).all fun j =>
        (p.g.pconns.filter fun c => decide (c.first ≤ d.first + j) && decide (d.first + j < c.first + c.count)).length == 1))

/-- The link trees (R228, R229, R458): islands, axes and parents declared, one entry for each link, ZERO and SCALE of the AXIS entry. -/
def Parsed.treeRules (p : Parsed) (tag : Nat) (links : List LinkDecl) : List Chk :=
  ((ofKindIn p.ents tag 11).map fun e =>
    let d := e.link
    e.chk (p.islands.contains d.island && (links.filter fun x => x.island == d.island && x.link == d.link).length == 1 &&
      (d.parent == 0xFF || links.any fun x => x.island == d.island && x.link == d.parent) &&
      (d.axis == 0xFFFF || match p.g.axis? d.axis with
        | some a => a.zero == d.zero && a.scale == d.scale && (p.g.islandOf? d.axis).isSome
        | none => false))) ++
  (ofKindIn p.ents tag 12).map fun e =>
    let d := e.base
    e.chk (p.islands.contains d.island &&
      (d.parent == 0xFFFF || (p.islands.contains d.parent && links.any fun x => x.island == d.parent && x.link == d.mount)))

/-- The least natural number whose square is at least `x`, by bisection between `lo` and `hi`. -/
def sqrtUp (x : Rat) : Nat → Nat → Nat → Nat
  | 0, _, hi => hi
  | n + 1, lo, hi =>
    let mid := (lo + hi) / 2
    if hi ≤ lo then hi else if x ≤ ((mid * mid : Nat) : Rat) then sqrtUp x n lo mid else sqrtUp x n (mid + 1) hi

/-- The square root of `x`, rounded to binary64 towards +∞ (R282): the least multiple of the last place that is not below it. -/
def sqrtUp64 (x : Rat) : Rat :=
  if x ≤ 0 then 0
  else
    let l : Int := (x.num.natAbs.log2 : Int) - x.den.log2
    let l' := if x < pow2 l then l - 1 else if pow2 (l + 1) ≤ x then l + 1 else l
    let k : Int := l' / 2 - 52
    (sqrtUp (x / (pow2 k * pow2 k)) 54 (2 ^ 52) (2 ^ 53) : Rat) * pow2 k

/-- Capsules, spheres, masks and channel A's values (R228, R240, R282). -/
def Parsed.bodyRules (p : Parsed) : List Chk :=
  let linkIn := fun (l : List LinkDecl) (d : BodyDecl) => l.any fun x => x.island == d.island && x.link == d.link
  ((ofKind p.ents 15).map fun e => e.chk (linkIn p.g.safeLinks e.bodyDecl)) ++
  ((ofKind p.ents 13).map fun e =>
    let d := e.bodyDecl
    let c := d.capsule
    e.chk (linkIn p.g.links d && decide (0 < c.r) && decide (p.g.capsules.length ≤ 768) &&
      decide ((p.g.capsules.filter fun x => x.island == d.island && x.link == d.link).length ≤ 4) &&
      match p.g.spheres.find? fun x => x.island == d.island && x.link == d.link with
      | some s => [c.a, c.b].all fun q => decide (sqrtUp64 (q.sub (v3Of s.nums 0)).norm2 + c.r ≤ f32 (s.nums.getD 3 0))
      | none => false)) ++
  (((ofKind p.ents 14) ++ (ofKind p.ents 17)).map fun e => e.chk (p.islands.contains (e.u 0 2))) ++
  (p.islands.flatMap fun i =>
    let masked := (p.g.shoalMask i).any p.g.shoalUsed
    [ p.chk (Reg.SEPI_SH_STOP i)
        (!masked || (decide (0 ≤ p.f (Reg.SEPI_SH_STOP i)) && decide (p.f (Reg.SEPI_SH_STOP i) < p.f (Reg.SEPI_SH_SLOW i))))
    , p.chk (Reg.ISA_DEC i)
        ((p.g.spheres.all fun d => d.island != i) ||
          (decide (p.f (Reg.ISA_DEC i) ≤ p.f (Reg.ISL_STOP_DEC i)) && decide (p.f (Reg.ISA_JERK i) ≤ p.f (Reg.ISL_STOP_JERK i)) &&
           decide ((2 : Rat) / 1000 ≤ p.f (Reg.ISA_TR i)))) ]) ++
  (ofKind p.ents 17).map fun e =>
    let d := e.safeIsl
    e.chk (decide (p.f (Reg.SEPI_C d.island) ≤ f32 d.ca) && decide (p.f (Reg.SEPI_ZR d.island) ≤ f32 d.zra) &&
      decide (p.f (Reg.SEPI_VHMIN d.island) ≤ f32 d.vhMin))

/-- The unculled count N_u of R235. -/
def Parsed.unculled (p : Parsed) : Nat :=
  let own := (p.islands.map fun i =>
    (p.g.capsules.filter fun b => b.island == i).length * (4 * ((p.g.personMask i).filter p.ranged).length + ((p.g.shoalMask i).filter p.g.shoalUsed).length)).sum
  let pairs := (p.pairs.map fun n => p.g.entryPairs (p.get (Reg.PAIR_CFG.ISL_A n)) (p.get (Reg.PAIR_CFG.ISL_B n))).sum
  17 * (own + pairs)

/-- The pair table (R240) and the bound on N_u (R235). -/
def Parsed.pairRules (p : Parsed) : List Chk :=
  (p.pairs.map fun n => p.chk (Reg.PAIR_CFG n)
    (p.islands.contains (p.get (Reg.PAIR_CFG.ISL_A n)) && p.islands.contains (p.get (Reg.PAIR_CFG.ISL_B n)) &&
      decide (0 ≤ p.f (Reg.PAIR_STOP n)) && decide (p.f (Reg.PAIR_STOP n) < p.f (Reg.PAIR_SLOW n)))) ++
  [(tagSEPA, 0, decide (p.unculled ≤ 4505600))]

/-- Narrows (R246): a box each, no member twice, one priority for a local island, the watchdog's range, islands declared. -/
def Parsed.narrowsRules (p : Parsed) : List Chk :=
  let who := fun n m => (p.get (Reg.NRW_MEMBER.REMOTE n m), p.get (Reg.NRW_MEMBER.REMOTE n m) * p.get (Reg.NRW_MEMBER.NODE n m),
    p.get (Reg.NRW_MEMBER.ISLAND n m))
  let prio := fun n m => p.get (Reg.NRW_MEMBER.PRIO n m)
  let all := p.narrows.flatMap fun n => (p.members n).map fun m => (n, m)
  (p.narrows.map fun n => p.chk (Reg.NRW_CFG n)
    (decide (p.get (Reg.NRW_CFG.WD n) ≤ 60000) &&
      (List.range 512).any fun b => p.on (Reg.BOX_CFG.VALID b) && p.get (Reg.BOX_CFG.NARROWS b) == n)) ++
  (all.map fun x => p.chk (Reg.NRW_MEMBER x.1 x.2)
    (((p.members x.1).filter fun m => who x.1 m == who x.1 x.2).length == 1 &&
      (p.on (Reg.NRW_MEMBER.REMOTE x.1 x.2) ||
        (p.islands.contains (p.get (Reg.NRW_MEMBER.ISLAND x.1 x.2)) &&
          all.all fun y => who y.1 y.2 != who x.1 x.2 || prio y.1 y.2 == prio x.1 x.2)))) ++
  ((List.range 512).filter fun b => p.on (Reg.BOX_CFG.VALID b)).map fun b =>
    p.chk (Reg.BOX_CFG b) (p.narrows.contains (p.get (Reg.BOX_CFG.NARROWS b)))

/-- Per-unit bases for every slot that holds an axis (R375), and the slots, engines and axes that entries and registers name. -/
def Parsed.lawRules (p : Parsed) : List Chk :=
  (p.slots.map fun x => p.chk (Reg.LAW_AXIS x.1 x.2)
    ((p.g.laws.filter fun d => d.engine == x.1 && d.slot == x.2).length == 1 &&
      p.axes.contains (p.get (Reg.LAW_AXIS.AXIS x.1 x.2)))) ++
  (((ofKind p.ents 6) ++ (ofKind p.ents 7)).map fun e => e.chk (p.slots.contains (e.u 0 1, e.u 1 1))) ++
  ((ofKind p.ents 8).map fun e => e.chk ((e.words 4 32).all fun w => !bitAt w 31 || p.axes.contains (bits w 0 8))) ++
  (p.tasks.map fun x => p.chk (Reg.TASK_SLOTS x.1 x.2)
    ((onesBelow 24 (p.get (Reg.TASK_SLOTS.SLOTS x.1 x.2))).all fun sl => p.slots.contains (x.1, sl))) ++
  (p.rings.flatMap fun k => (List.range 32).map fun i =>
    p.chk (Reg.SCHED_ACT k i) (p.get (Reg.SCHED_ACT.KIND k i) != 1 || p.axes.contains (p.get (Reg.SCHED_ACT.AXIS k i)))) ++
  (p.axes.map fun a => p.chk (Reg.AX_CFG a) (!p.on (Reg.AX_CFG.IN_ISLAND a) || p.islands.contains (p.get (Reg.AX_CFG.ISLAND a)))) ++
  ((List.range 16).map fun c => p.chk (Reg.CMP_CFG c)
    (p.get (Reg.CMP_CFG.SRC c) != 3 || p.axes.contains (p.get (Reg.CMP_CFG.SRC_INDEX c)))) ++
  ((List.range 4).map fun u => p.chk (Reg.EMU_CFG u)
    (p.get (Reg.EMU_CFG.SRC u) != 1 || p.axes.contains (p.get (Reg.EMU_CFG.SRC_INDEX u)))) ++
  (ofKind p.ents 9).map fun e =>
    e.chk ((decide (512 ≤ e.u 0 2) || p.islands.contains (e.u 0 2)) &&
      (e.u 8 1 != 3 || decide (512 ≤ e.u 10 2) || p.islands.contains (e.u 10 2)))

/-- Publications of the archipelago (R328), domains (R345), and the one SIGNATURE entry (R376). -/
def Parsed.otherRules (p : Parsed) : List Chk :=
  [(tagFEDN, 0, decide (((List.range 8).filter fun k => p.on (Reg.FED_PUB.EN k)).length ≤ 4))] ++
  (p.domains.map fun d => p.chk (Reg.TD_CFG d) ((p.domains.filter fun c =>
    p.get (Reg.TD_CFG.PORT c) == p.get (Reg.TD_CFG.PORT d) && p.get (Reg.TD_CFG.DOMAIN c) == p.get (Reg.TD_CFG.DOMAIN d)).length == 1)) ++
  [(tagSAFE, 0, (ofKind p.ents 22).length == 1)]

/-- The checks of reason 10. -/
def Parsed.reason10 (p : Parsed) : List Chk :=
  p.hierarchy ++ p.plain ++ p.queueRules ++ p.connRules ++ p.treeRules tagSEPA p.g.links ++ p.treeRules tagSAFE p.g.safeLinks ++
  p.bodyRules ++ p.pairRules ++ p.narrowsRules ++ p.lawRules ++ p.otherRules

/-! ### Reason 11: loop engines (R129–R133, R136, R140) -/

/-- Is an instruction word a legal encoding (R136, cause 1)? -/
def legalWord (w : Nat) : Bool :=
  match bits w 30 2 with
  | 0 =>
    let opc := bits w 24 6
    decide (opc < 0x2F) && !(opc == 0x24 && bitAt w 19) && !(opc == 0x2C && decide (29 ≤ bits w 19 5)) &&
      !(opc == 0x2D && decide (29 ≤ bits w 14 5))
  | 1 => true
  | 2 => decide (bits w 26 4 < 10) && !(bits w 26 4 == 2 && decide (29 ≤ bits w 21 5))
  | _ => bits w 28 2 == 3 || !(bitAt w 27 && bitAt w 24)

/-- The checks of reason 11; a TASK_ENTRY address of 14 bits always lies in program memory. -/
def Parsed.reason11 (p : Parsed) : List Chk :=
  ((ofKind p.ents 2).map fun e =>
    e.chk (decide (e.u 0 4 < 0x100) || decide (0x110 ≤ e.u 0 4) || e.memWords.all legalWord)) ++
  (List.range 16).map fun e => p.chk (Reg.LE_BUDGET e) (decide (p.get (Reg.LE_BUDGET.DECLARED e) ≤ 13281))

/-! ### Reason 12: the safety signature (R376) -/

/-- The SAFE section's bytes with the body of its SIGNATURE entry taken as 0. -/
def signedBytes (img : List Nat) (x : Sect) (es : List Ent) : List Nat :=
  (ofKind es 22).foldl (fun l e =>
    let o := e.place + 8 - x.ofs
    l.take o ++ List.replicate 8 0 ++ l.drop (o + 8)) (x.bytes img)

/-- The safety signature of R376. -/
def safetySignature (l : List Nat) : Nat := crc32c l + 2 ^ 32 * crcSafety l

/-! ### The checks in order (R377) -/

/-- Reason 2: the header's fields; the stepping is B1 (R22). -/
def headerOk (img : List Nat) : Bool :=
  leAt img 0 4 == 0x4D49514B && leAt img 4 2 == 1 && leAt img 6 2 == 256 && leAt img 0x18 4 == 0x4B510256 &&
  leAt img 0x0C 4 % 16 == 0 && decide (leAt img 0x0C 4 ≤ imgMax) && decide (leAt img 0x1C 2 ≤ 0x4201)

/-- Reason 4: the section table (R372). -/
def tableBad (img : List Nat) : Option Rej :=
  let n := leAt img 0x14 2
  let len := imgLength img
  let tend := 0x100 + 16 * n
  let secs := imgSects img
  if n = 0 ∨ 15 < n ∨ len < tend then some ⟨4, 0, 0⟩
  else
    let apart := fun (x y : Sect) => x.place == y.place || decide (x.ofs + x.len ≤ y.ofs) || decide (y.ofs + y.len ≤ x.ofs)
    match secs.find? fun x =>
        !((secRow? x.tag).isSome && timesIn (secs.map (·.tag)) x.tag == 1 && x.ofs % 16 == 0 && x.len % 4 == 0 &&
          decide (tend ≤ x.ofs) && decide (x.ofs + x.len ≤ len) && secs.all (apart x)) with
    | some x => some ⟨4, x.tag, x.place⟩
    | none =>
      if ((List.range len).zip img).all fun j => decide (j.1 < tend) || j.2 == 0 ||
          secs.any fun x => decide (x.ofs ≤ j.1) && decide (j.1 < x.ofs + x.len)
      then none else some ⟨4, 0, 0⟩

/-- Reason 5: IMAGE_CRC, then each section CRC. -/
def crcBad (img : List Nat) : Option Rej :=
  if crc32c (img.drop 0x100) ≠ leAt img 0x10 4 then some ⟨5, 0, 0⟩
  else ((imgSects img).find? fun x => crc32c (x.bytes img) != x.crc).map fun x => ⟨5, x.tag, x.place⟩

/-- Reason 7: the entries of every section. -/
def entriesBad (img : List Nat) : Option Rej :=
  (imgSects img).findSome? fun x => (sectEntries img x).2.map fun o => ⟨7, x.tag, o⟩

/-- An image read entry by entry. -/
def parseImage (img : List Nat) : Parsed :=
  parse img ((imgSects img).map (·.tag)) ((imgSects img).flatMap fun x => (sectEntries img x).1)

/-- Reason 12. -/
def signatureBad (img : List Nat) (p : Parsed) : Option Rej :=
  match (imgSects img).find? fun x => x.tag == tagSAFE with
  | some x =>
    if safetySignature (signedBytes img x (ofKindIn p.ents tagSAFE 22)) = p.g.signature then none
    else some ⟨12, tagSAFE, ((ofKind p.ents 22).map (·.place)).headD 0⟩
  | none => none

/-- Reasons 2–12 of R377 in their order, on the bytes of a copy; `raw` holds at least the header. -/
def checkImage (raw : List Nat) : Option Rej :=
  let img := raw.take (imgLength raw)
  if !headerOk raw then some ⟨2, 0, 0⟩
  else if crc32c (raw.take 0xFC) ≠ leAt raw 0xFC 4 then some ⟨3, 0, 0⟩
  else
    match tableBad img with
    | some r => some r
    | none =>
      match crcBad img with
      | some r => some r
      | none =>
        match secRows.find? fun r => r.required && !((imgSects img).any fun x => x.tag == r.tag) with
        | some r => some ⟨6, r.tag, 0⟩
        | none =>
          match entriesBad img with
          | some r => some r
          | none =>
            let p := parseImage img
            match firstBad 8 p.reason8 with
            | some r => some r
            | none =>
              match firstBad 9 p.reason9 with
              | some r => some r
              | none =>
                match firstBad 10 p.reason10 with
                | some r => some r
                | none =>
                  match firstBad 11 p.reason11 with
                  | some r => some r
                  | none => signatureBad img p

end Sys2Proof.Machine
end

