-- ==== Sys2Proof/Machine/Ring.lean ====
section
/-! DEFINITION. The ring masters: cycle-start frames and loop delays (R192, R198, R209), the schedule tables, swaps and landings
(R200–R205, R225), muting (R199), modes, folding and healing (R207), bring-up (R210), service transactions (R211). -/

namespace Sys2Proof.Machine

/-- RING_STAT.MODE codes (R213). -/
def ringOff : Nat := 0
def ringStarting : Nat := 1
def ringClosed : Nat := 2
def ringFolded : Nat := 3
def ringLine : Nat := 4

/-- The mode of ring `k`. -/
def State.ringMode (s : State) (k : Nat) : Nat := s.get (Reg.RING_STAT.MODE k)

/-- The enabled rings. -/
def State.ringIds (s : State) : List Nat := (List.range 16).filter fun k => s.on (Reg.RING_CFG.EN k)

/-- The rings that send. -/
def State.liveRings (s : State) : List Nat := s.ringIds.filter fun k => s.ringMode k != ringOff

/-- Ring `k` enters a mode of R207. -/
def State.setRingMode (s : State) (k m : Nat) : State :=
  (s.set (Reg.RING_STAT.MODE k) m).modRing k fun r => { r with healed := false }

/-- Set the entry word of slot `i` in both tables of ring `k` (R201, R203). -/
def State.putEntry (s : State) (k i w : Nat) : State := (s.setWord (Reg.SCHED_ACT k i) w).setWord (Reg.SCHED_SHD k i) w

/-- An entry word (R200). -/
def entWord (typ ax n kind : Nat) : Nat := kind + 8 * n + 256 * ax + 65536 * typ

/-! ### Nodes and their addresses -/

/-- The serial number of node `n` of ring `k`. -/
def State.nodeSerial (s : State) (k n : Nat) : Nat := s.word (Reg.NODE_SERIAL_LO k n) + 2 ^ 32 * s.word (Reg.NODE_SERIAL_HI k n)

/-- A serial is on an addressed node of the device other than node `n0` of ring `k0`. -/
def State.serialInUse (s : State) (serial k0 n0 : Nat) : Bool :=
  (List.range 16).any fun k => (List.range 25).any fun n =>
    s.addressed k n && !(k == k0 && n == n0) && s.nodeSerial k n == serial

/-- The axes of a node that comes or goes have no accepted cartridge (R203, R217). -/
def State.dropAxis (s : State) (a : Nat) : State :=
  (s.set (Reg.LIFE_STAT.ACCEPTED a) 0).set (Reg.DRV_STAT.PWM_SET a) 0

/-- Node `n` of ring `k` takes its address: serial, type, origin, hop and slot set (R203, R210). -/
def State.giveAddress (s : State) (k n serial typ origin hop slots : Nat) : State :=
  let s0 := forEach (s.nodeAxes k n) State.dropAxis s
  let s1 := ((s0.set (Reg.NODE_INFO.ADDRESSED k n) 1).set (Reg.NODE_INFO.TYPE k n) typ).set (Reg.NODE_INFO.ORIGIN k n) origin
  let s2 := ((s1.set (Reg.NODE_INFO.HOP k n) hop).setWord (Reg.NODE_SERIAL_LO k n) (serial % 2 ^ 32)).setWord
    (Reg.NODE_SERIAL_HI k n) (serial / 2 ^ 32)
  (s2.setWord (Reg.NODE_SLOTS k n) slots).modNode k n fun _ => default

/-- Node `n` of ring `k` gives up its address, its mute and its records (R205, R225). -/
def State.freeAddress (s : State) (k n : Nat) : State :=
  let s1 := (forEach (s.nodeAxes k n) State.dropAxis s).setWord (Reg.NODE_INFO k n) 0
  let s2 := s1.set (Reg.RING_MUTE.MUTE k) (withBit (s1.get (Reg.RING_MUTE.MUTE k)) n false)
  let s3 := (s2.setWord (Reg.NODE_SERIAL_LO k n) 0).setWord (Reg.NODE_SERIAL_HI k n) 0
  (s3.setWord (Reg.NODE_SLOTS k n) 0).modNode k n fun _ => default

/-! ### The ring at the device's state changes (R207, R210) -/

/-- Every ring sends idle sets only: mode OFF and nothing addressed (R207). -/
def State.ringsOff (s : State) : State :=
  forEach s.ringIds
    (fun s k =>
      let s1 := (forN 25 (fun s n => if s.addressed k n then s.freeAddress k n else s) s).modRing k fun _ => default
      ((s1.set (Reg.RING_STAT.MODE k) ringOff).set (Reg.RING_STAT.VALID k) 0).set (Reg.RING_STAT.VALID_RUN k) 0) s

/-- Every enabled ring starts: mode STARTING; it sends on SPk_A, with TOPOLOGY 2 on both ports (R189, R207, R210). -/
def State.ringsStart (s : State) : State :=
  forEach (s.ringIds.filter fun k => s.ringMode k == ringOff)
    (fun s k => (s.setRingMode k ringStarting).modRing k fun _ =>
      { (default : RingSt) with both := s.get (Reg.RING_CFG.TOPOLOGY k) == 2 }) s

/-! ### Service transactions (R211) -/

/-- The start of slot `i` of a ring cycle at the master (R12). -/
def slotStart (c : RingCyc) (i : Nat) : Nat := c.start + 160 + 480 * i

/-- Slot `i` of ring cycle `c` of ring `k` carries the transaction in the SERVICE slots. -/
def State.carriesTxn (s : State) (k i : Nat) (c : RingCyc) : Bool :=
  entKind (c.table.getD i 0) == 2 && match (s.ring k).txn with
    | some x => x.resp.isNone && (x.op == 3 || x.op == 5 || !s.nodeMuted k x.node) && match x.since with
      | some t => decide (t ≤ slotStart c i)
      | none => false
    | none => false

/-- The next transaction goes to the SERVICE slots: own work and the host's in turn when both wait (R211). -/
def State.svcPick (s : State) (k : Nat) : State :=
  let r := s.ring k
  if r.txn.isSome then s
  else
    let host := match r.hostTxn with
      | some x => if x.since.isNone then some x else none
      | none => none
    match host, r.ownTxns with
    | none, [] => s
    | some x, [] => s.modRing k fun r => { r with txn := some { x with since := some s.now } }
    | none, x :: rest => s.modRing k fun r => { r with txn := some { x with since := some s.now }, ownTxns := rest }
    | some x, y :: rest =>
      if r.hostTurn then s.modRing k fun r => { r with txn := some { x with since := some s.now }, hostTurn := false }
      else s.modRing k fun r => { r with txn := some { y with since := some s.now }, ownTxns := rest, hostTurn := true }

/-- A transaction is sent without an accepted response (R211). -/
def State.svcMissed (s : State) (k : Nat) : State :=
  s.modRing k fun r => { r with txn := r.txn.map fun x => { x with tries := x.tries + 1 } }

/-- The ring cycle that the ASSIGN of bring-up names as EFFECTIVE in the poll of ring cycle `c`: 8 ring cycles ahead, as for a swap
(DESIGN CHOICE 23). -/
def giveCycle (c : Nat) : Nat := c + 8

/-- DATA of a transaction in the poll of ring cycle `c` (R195). -/
def Txn.dataAt (x : Txn) (c : Nat) : List Nat :=
  match x.owner with
  | .give g => leBytes 8 g.serial ++ [g.node, 0] ++ leBytes 4 g.slots ++ leBytes 2 (giveCycle c % 65536)
  | _ => x.data

/-- An accepted service response of ring cycle `c`: it ends the transaction, but STATUS 3 repeats it (R211). The node that has taken a
PROBE loops its onward port in the next ring cycle (R209). -/
def State.svcAnswer (s : State) (k c : Nat) (body : List Nat) : State :=
  let st := leAt body 4 1
  s.modRing k fun r => { r with
    probing := match r.txn with
      | some x => (match x.owner with
        | .probe n => if st = 0 then some (n, c + 1) else r.probing
        | _ => r.probing)
      | none => r.probing
    txn := r.txn.map fun x =>
      if st = 3 then { x with busy := x.busy + 1 }
      else { x with
        resp := some (st, (body.drop 14).take 32)
        owner := match x.owner with
          | .give g => .give { g with cycle := giveCycle c }
          | o => o } }

/-- The outcome of the transaction in the slots of ring `k`, once it has one (R211, R213): SVC_RESULT.STATUS and NODE_STATUS. -/
def State.svcOutcome (s : State) (k : Nat) : Option (Nat × Nat) :=
  match (s.ring k).txn with
  | none => none
  | some x =>
    match x.resp with
    | some a => some (1, a.1)
    | none =>
      if x.op ≠ 3 ∧ x.op ≠ 5 ∧ s.nodeMuted k x.node then some (3, 0)
      else if 3 ≤ x.tries ∨ 64 ≤ x.busy then some (2, 0) else none

/-- SVC_RESULT of ring `k`. -/
def State.svcResult (s : State) (k tag status nst : Nat) : State :=
  ((s.set (Reg.SVC_RESULT.TAG k) tag).set (Reg.SVC_RESULT.STATUS k) status).set (Reg.SVC_RESULT.NODE_STATUS k) nst

/-- PWM_SET of the axes of node `n` of ring `k`: both frequencies taken and the record accepted (R217). -/
def State.syncPwm (s : State) (k n : Nat) : State :=
  let x := s.node k n
  forEach (s.nodeAxes k n) (fun s a =>
    s.setB (Reg.DRV_STAT.PWM_SET a) (x.pwmQ == 2 && x.pwmS == 2 && s.on (Reg.LIFE_STAT.ACCEPTED a))) s

/-- ENUM of hop `h` on origin `o` (R195, R210). -/
def enumTxn (o h : Nat) : Txn :=
  { (default : Txn) with owner := .enum o h, op := 3, node := 31, hops := h, origin := o }

/-- An ENUM ends (R210): an answer from a hop that the RING section lists has its node assigned, and the next hop is asked; a hop that goes
unanswered ends the origin. -/
def State.enumEnd (s : State) (k o h : Nat) (answered : Bool) (nst : Nat) (d : List Nat) : State :=
  if !answered then s.modRing k fun r => { r with enumsEnded := r.enumsEnded ++ [o] }
  else
    let s1 := match s.img.nodeMaps.find? fun m => m.ring == k && m.origin == o && m.hop == h with
      | some m =>
        let serial := leAt d 0 8
        if nst ≠ 0 ∨ 25 ≤ m.node ∨ s.addressed k m.node ∨ s.serialInUse serial k m.node then s
        else
          let g : Give := { node := m.node, serial := serial, typ := leAt d 8 2, origin := o, hop := h, slots := m.slots
                            turn := leAt d 11 1, cycle := 0 }
          s.queueOwn k { (default : Txn) with op := 4, node := 31, owner := .give g }
      | none => s
    if h < 0xFE then s1.queueOwn k (enumTxn o (h + 1)) else s1.modRing k fun r => { r with enumsEnded := r.enumsEnded ++ [o] }

/-- Part `p` of the reading of node `n`'s records ends (R219): after the last of the 72 the reading is complete; one that fails ends it. -/
def State.identEnd (s : State) (k n p : Nat) (ok : Bool) (d : List Nat) : State :=
  if !ok ∨ !(s.node k n).reading then s
  else
    let s1 := s.modNode k n fun x => { x with readBuf := x.readBuf ++ d.take 32, readDone := p == 71 }
    if p < 71 then s1.queueOwn k (identTxn n (p + 1)) else s1

/-- Part `p` of a life record write to node `n` ends (R220), with SVC_RESULT.STATUS `st`: the next part follows, until one fails. -/
def State.lifeEnd (s : State) (k n p st : Nat) (ok : Bool) (d : List Nat) : State :=
  match (s.node k n).writing with
  | none => s
  | some w =>
    let w1 := { w with status := st, back := if p < 3 then w.back else w.back ++ d.take 32, ended := !ok || decide (4 ≤ p) }
    let s1 := s.modNode k n fun x => { x with writing := some w1 }
    if w1.ended then s1 else s1.queueOwn k (lifeTxn n (p + 1) w1)

/-- The end of the transaction in the slots of ring `k`, with its outcome (R201, R210, R211, R217, R219, R220). -/
def State.svcEnd (s : State) (k : Nat) : State :=
  match s.svcOutcome k, (s.ring k).txn with
  | some (st, nst), some x =>
    let s0 := s.modRing k fun r => { r with txn := none }
    let data := match x.resp with
      | some a => a.2
      | none => []
    let s1 := if st = 2 then s0.log (Src.ring k) Ev.SVC_FAILED (x.op + 256 * x.node) x.addr else s0
    let s2 := match x.owner with
      | .host =>
        let s2 := (s1.modRing k fun r => { r with hostTxn := none }).svcResult k x.tag st nst
        if st = 1 ∧ x.op = 1 ∧ nst = 0 then
          forN ((x.len + 3) / 4) (fun s w => s.setWord (Reg.SVC_DATA k w) (leAt (data.take x.len) (4 * w) 4)) s2
        else s2
      | .pwm w =>
        let v := if st = 1 ∧ nst = 0 then 2 else 3
        (s1.modNode k x.node fun y => if w = 0 then { y with pwmQ := v } else { y with pwmS := v }).syncPwm k x.node
      | .assign =>
        if st = 1 ∧ nst = 0 ∧ ((s.ring k).swapAt.any fun c => c % 65536 == leAt x.data 14 2) then
          let sl := leAt x.data 10 4
          (s1.modRing k fun r => { r with assigns := r.assigns.filter fun p => p.1 != x.node }).setWord (Reg.NODE_SLOTS k x.node) sl
        else s1
      | .enum o h => s1.enumEnd k o h (st == 1) nst data
      | .give g => if st = 1 ∧ nst = 0 then s1.modRing k fun r => { r with gives := r.gives ++ [g] } else s1
      | .probe _ => s1
      | .ident p => s1.identEnd k x.node p (st == 1 && nst == 0) data
      | .life p => s1.lifeEnd k x.node p st (st == 1 && nst == 0) data
    s2.svcPick k
  | _, _ => s

/-! ### Swaps (R201, R202, R225) -/

/-- Muted nodes that the shadow leaves without an AXIS entry are no longer addressed (R225). -/
def State.freeMuted (s : State) (k : Nat) : State :=
  let t := s.shadowTable k
  forN 24 (fun s n => if s.addressed k n && s.nodeMuted k n && (nodeSlots t n).isEmpty then s.freeAddress k n else s) s

/-- The slots of the shadow of ring `k` that break rule `r` of R202, lowest first. -/
def State.swapFaults (s : State) (k r : Nat) : List Nat :=
  let old := s.activeTable k
  let new := s.shadowTable k
  let slot := List.range 32
  let isAx := fun (t : List Nat) i => entKind (t.getD i 0) == 1
  let busy := fun a =>
    let st := s.axState a
    st == axPrecharge || st == axBrakeRelease || st == axEnabled || st == axDisabling
  match r with
  | 1 => slot.filter fun i => isAx old i && busy (entAxis (old.getD i 0)) &&
      !(isAx new i && entAxis (new.getD i 0) == entAxis (old.getD i 0) && entNode (new.getD i 0) == entNode (old.getD i 0))
  | 2 => slot.filter fun i => (isAx new i || entKind (new.getD i 0) == 3) &&
      ((slot.any fun j => j != i && (isAx new j || entKind (new.getD j 0) == 3) &&
          entAxis (new.getD j 0) == entAxis (new.getD i 0)) ||
       (s.ringIds.any fun q => q != k && (s.activeTable q).any fun w =>
          (entKind w == 1 || entKind w == 3 || entKind w == 5) && entAxis w == entAxis (new.getD i 0)))
  | 3 => slot.filter fun i =>
      let w := new.getD i 0
      (entKind w == 1 && !s.addressed k (entNode w)) || (entKind w == 3 && s.addressed k (entNode w))
  | 4 => slot.filter fun i => 5 ≤ entKind (new.getD i 0)
  | 6 => slot.filter fun i => isAx new i && decide (4 < (nodeSlots new (entNode (new.getD i 0))).length)
  | _ => []

/-- The first reason of R202 for which the swap of ring `k` is refused, with its lowest slot. -/
def State.swapRefusal (s : State) (k : Nat) : Option (Nat × Nat) :=
  [1, 2, 3, 4, 6].findSome? fun r => (s.swapFaults k r).head?.map fun i => (r, i)

/-- The swap of ring `k` is refused (R202). -/
def State.refuseSwap (s : State) (k reason slot : Nat) : State :=
  let s1 := (((s.flag (Reg.RSCHED_STAT.SWAP_REFUSED k)).set (Reg.RSCHED_STAT.REASON k) reason).set (Reg.RSCHED_STAT.SLOT k) slot).set
    (Reg.RSCHED_STAT.SWAP_PENDING k) 0
  s1.modRing k fun r => { r with swapAt := none, assigns := [], assigned := false }

/-- The bit set of a list of slots. -/
def slotMask (l : List Nat) : Nat := l.foldl (fun m i => withBit m i true) 0

/-- The addressed nodes of ring `k` whose slot set the shadow changes, with their new sets (R201). -/
def State.swapChanges (s : State) (k : Nat) : List (Nat × Nat) :=
  let old := s.activeTable k
  let new := s.shadowTable k
  ((List.range 24).filter fun n => s.addressed k n && (nodeSlots old n != nodeSlots new n)).map
    fun n => (n, slotMask (nodeSlots new n))

/-- ASSIGNs to the nodes whose slot set the swap changes, with a swap cycle 8 ring cycles ahead; they replace earlier ones (R195, R201). -/
def State.sendAssigns (s : State) (k : Nat) (l : List (Nat × Nat)) : State :=
  let eff := s.dev.cycle.toNat + 1 + 8
  let s1 := s.modRing k fun r => { r with
    swapAt := some eff, assigns := l, assigned := true, ownTxns := r.ownTxns.filter fun x => !decide (x.owner = .assign) }
  forEach l (fun s p => s.queueOwn k
    { (default : Txn) with owner := .assign, op := 4, node := p.1, data := leBytes 8 (s.nodeSerial k p.1) ++ [p.1, 0] ++ leBytes 4 p.2 ++ leBytes 2 (eff % 65536) }) s1

/-- The ring slot of each axis of the active table of ring `k` shows in AX_CFG. -/
def State.showSlots (s : State) (k : Nat) : State :=
  forN 32 (fun s i =>
    let w := s.word (Reg.SCHED_ACT k i)
    if entKind w = 1 then s.set (Reg.AX_CFG.SLOT (entAxis w)) i else s) s

/-- The swap of ring `k` at a cycle-start (R201): both tables exchange, TBL_GEN goes up. -/
def State.doSwap (s : State) (k : Nat) : State :=
  let new := s.shadowTable k
  let s1 := forN 32 (fun s i => s.setWord (Reg.SCHED_ACT k i) (new.getD i 0)) s
  let s2 := ((s1.addMod (Reg.RING_STAT.TBL_GEN k) 1).set (Reg.RSCHED_STAT.SWAP_PENDING k) 0).showSlots k
  s2.modRing k fun r => { r with swapAt := none, assigns := [], assigned := false }

/-- RING_SWAP (R201): a swap is requested for the next cycle-start. -/
def State.wRingSwap (s : State) (k : Fin 16) : State :=
  if s.on (Reg.RSCHED_STAT.SWAP_PENDING k.val) then s
  else (s.set (Reg.RSCHED_STAT.SWAP_PENDING k.val) 1).modRing k.val fun r =>
    { r with swapFrom := s.dev.cycle.toNat, swapAt := some (s.dev.cycle.toNat + 1), assigns := [], assigned := false }
/-- RING_SWAP. -/
def execRingSwap (t : Time) (k : Fin 16) (s : State) : Out :=
  byHost t s (Reg.RING_CTRL k.val) 1 (fun s => s.wRingSwap k)

/-- SWAP_EXECUTE (R201, R202, R225): the cycle-start for which a swap waits has come. -/
def execSwapExecute (t : Time) (k : Fin 16) (s : State) : Out :=
  live t s fun s =>
    let r := s.ring k.val
    match r.swapAt with
    | none => s
    | some c =>
      if s.dev.nextCycle ≤ s.now ∧ c ≤ s.dev.cycle.toNat + 1 then
        let s1 := s.freeMuted k.val
        match s1.swapRefusal k.val with
        | some p => s1.refuseSwap k.val p.1 p.2
        | none =>
          match s1.swapChanges k.val with
          | [] => s1.doSwap k.val
          | l => if r.assigned ∧ r.assigns.isEmpty then s1.doSwap k.val else s1.sendAssigns k.val l
      else s

/-- SWAP_TIMEOUT (R202): an ASSIGN is not acknowledged within 64 ring cycles. -/
def execSwapTimeout (t : Time) (k : Fin 16) (s : State) : Out :=
  live t s fun s =>
    let r := s.ring k.val
    match r.assigns with
    | p :: _ =>
      if r.swapAt.isSome ∧ r.swapFrom + 64 ≤ s.dev.cycle.toNat then
        s.refuseSwap k.val 5 ((nodeSlots (s.shadowTable k.val) p.1).head?.getD ((nodeSlots (s.activeTable k.val) p.1).head?.getD 0))
      else s
    | [] => s

/-! ### Muting (R199) -/

/-- Node `n` of ring `k` is muted for a reason: from the next cycle-start; its axes fault with cause 3. -/
def State.muteNode (s : State) (k n reason : Nat) : State :=
  let s1 := (s.set (Reg.NODE_INFO.MUTE_REASON k n) reason).modRing k fun r => { r with reqMute := r.reqMute ++ [n] }
  let s2 := s1.log (Src.ring k) Ev.NODE_MUTED n reason
  forEach (s2.nodeAxes k n) (fun s a => s.axisFault a 3) s2

/-- NODE_MUTED (R199): 3 consecutive ring cycles with a response of the node outside its window, or with every AXIS slot of it
missing where the landing release of R205 does not apply. -/
def execNodeMuted (t : Time) (k : Fin 16) (n : Fin 24) (s : State) : Out :=
  live t s fun s =>
    let x := s.node k.val n.val
    let released := x.landing && (s.nodeAxes k.val n.val).all fun a => s.axState a == axOff
    if s.ringMode k.val == ringOff || !s.addressed k.val n.val || s.nodeMuted k.val n.val || (s.ring k.val).reqMute.contains n.val then s
    else if 3 ≤ x.edgeRun then s.muteNode k.val n.val 1
    else if 3 ≤ x.missRun ∧ !released then s.muteNode k.val n.val 2
    else s

/-- RING_MUTE (R199, R213): the named node is muted with reason 3. -/
def State.wRingMute (s : State) (k : Fin 16) (n : Fin 32) : State :=
  if 24 ≤ n.val ∨ s.nodeMuted k.val n.val ∨ (s.ring k.val).reqMute.contains n.val then s else s.muteNode k.val n.val 3
/-- RING_MUTE. -/
def execRingMute (t : Time) (k : Fin 16) (n : Fin 32) (s : State) : Out :=
  byHost t s (Reg.RING_CTRL k.val) (8 + 256 * n.val) (fun s => s.wRingMute k n)

/-- RING_UNMUTE (R199, R213): the mute of the named node is cleared at the next cycle-start. -/
def State.wRingUnmute (s : State) (k : Fin 16) (n : Fin 32) : State :=
  s.modRing k.val fun r => { r with reqUnmute := r.reqUnmute ++ [n.val] }
/-- RING_UNMUTE. -/
def execRingUnmute (t : Time) (k : Fin 16) (n : Fin 32) (s : State) : Out :=
  byHost t s (Reg.RING_CTRL k.val) (4 + 256 * n.val) (fun s => s.wRingUnmute k n)

/-- The mutes and unmutes that wait take effect at a cycle-start (R199). -/
def State.takeMutes (s : State) (k : Nat) : State :=
  let r := s.ring k
  let s1 := forEach r.reqMute (fun s n =>
    (s.set (Reg.RING_MUTE.MUTE k) (withBit (s.get (Reg.RING_MUTE.MUTE k)) n true)).set (Reg.NODE_INFO.MUTED k n) 1) s
  let s2 := forEach (r.reqUnmute.filter (· < 25)) (fun s n =>
    (((s.set (Reg.RING_MUTE.MUTE k) (withBit (s.get (Reg.RING_MUTE.MUTE k)) n false)).set (Reg.NODE_INFO.MUTED k n) 0).set
      (Reg.NODE_INFO.MUTE_REASON k n) 0).modNode k n fun x => { x with edgeRun := 0, missRun := 0 }) s1
  s2.modRing k fun r => { r with reqMute := [], reqUnmute := [] }

/-! ### Landings (R203, R205) -/

/-- A claim moves on at the cycle-start that follows ring cycle `c` (R203). -/
def State.landingStep (s : State) (k i : Nat) (c : RingCyc) : State :=
  let w := c.table.getD i 0
  if s.word (Reg.SCHED_ACT k i) ≠ w then s
  else
    let n := entNode w
    match entKind w with
    | 3 =>
      match c.claims.filter fun x => x.1 == i with
      | [x] =>
        if (entType w = 0 ∨ entType w = x.2.2) ∧ !s.serialInUse x.2.1 16 0 then
          (s.putEntry k i (entWord (entType w) (entAxis w) n 5)).modRing k fun r =>
            { r with offers := (r.offers.filter fun o => o.1 != i) ++ [x] }
        else s
      | _ => s
    | 5 =>
      let s1 := s.modRing k fun r => { r with offers := r.offers.filter fun o => o.1 != i }
      match (s.ring k).offers.find? fun o => o.1 == i with
      | some o =>
        if c.confirms.contains i then
          let s2 := ((s1.putEntry k i (entWord (entType w) (entAxis w) n 1)).giveAddress k n o.2.1 o.2.2 0 0 (slotMask [i])).modNode k n
            fun x => { x with landing := true }
          (s2.set (Reg.AX_CFG.SLOT (entAxis w)) i).log (Src.ring k) Ev.LANDING_CLAIMED
            (i + 256 * n + 65536 * o.2.2) (o.2.1 % 2 ^ 32)
        else s1.putEntry k i (entWord (entType w) (entAxis w) n 3)
      | none => s1.putEntry k i (entWord (entType w) (entAxis w) n 3)
    | _ => s

/-- The landing of node `n` is released at a cycle-start (R205): its entries return to LANDING, the address is freed, the event logged. -/
def State.releaseLanding (s : State) (k n : Nat) : State :=
  if !(s.node k n).release then s
  else
    let typ := s.get (Reg.NODE_INFO.TYPE k n)
    let ser := s.word (Reg.NODE_SERIAL_LO k n)
    let s1 := s.freeAddress k n
    forEach (nodeSlots (s.activeTable k) n) (fun s i =>
      let w := s.word (Reg.SCHED_ACT k i)
      (s.putEntry k i (entWord (entType w) (entAxis w) n 3)).log (Src.ring k) Ev.LANDING_RELEASED (i + 256 * n + 65536 * typ) ser) s1

/-- LANDING_RELEASED (R205): every AXIS slot of a node that holds a claimed landing is missing for 3 consecutive ring cycles while
all its axes are OFF: the landing is released at the next cycle-start. -/
def execLandingReleased (t : Time) (k : Fin 16) (n : Fin 24) (s : State) : Out :=
  live t s fun s =>
    let x := s.node k.val n.val
    if x.landing ∧ 3 ≤ x.missRun ∧ ((s.nodeAxes k.val n.val).all fun a => s.axState a == axOff) then
      s.modNode k.val n.val fun x => { x with release := true }
    else s

/-! ### The end of a ring cycle (R198, R199, R207) -/

/-- Every expected slot of the cycle has its response or its missing mark. -/
def RingCyc.settled (c : RingCyc) : Bool := c.expect.all fun i => c.accepted.contains i || c.closed.contains i

/-- The node that loops on a side: the addressed node of that origin that reports LOOPED, 31 where none (R212). -/
def State.loopNode (s : State) (k origin : Nat) : Nat :=
  ((List.range 25).find? fun n => s.addressed k n && s.on (Reg.NODE_INFO.LOOPED k n) &&
    s.get (Reg.NODE_INFO.ORIGIN k n) == origin).getD 31

/-- The consecutive counts of a node after ring cycle `c` (R199). -/
def State.judgeNode (s : State) (k n : Nat) (c : RingCyc) : State :=
  let sl := (nodeSlots c.table n).filter c.expect.contains
  if sl.isEmpty then
    if c.edges.contains n then s.modNode k n fun x => { x with edgeRun := x.edgeRun + 1 }
    else if (s.node k n).edgeRun = 0 then s
    else s.modNode k n fun x => { x with edgeRun := 0 }
  else
    let all := sl.all c.accepted.contains && !c.edges.contains n
    let noneIn := !(sl.any c.accepted.contains)
    s.modNode k n fun x =>
      if all then { x with edgeRun := 0, missRun := 0, answers := true }
      else { x with edgeRun := if c.edges.contains n then x.edgeRun + 1 else 0, missRun := if noneIn then x.missRun + 1 else 0
                    answers := sl.all c.accepted.contains }

/-- A copy of the cycle-start of ring cycle `c` returned on every port whose link is up (R207). With the stream on SPk_A alone, a ring that
is whole returns it on SPk_B, a line on SPk_A (DEDUCED 22). -/
def State.copiesBack (s : State) (k : Nat) (c : RingCyc) : Bool :=
  let a := c.okA || !s.on (Reg.RING_STAT.LINK_A k)
  let b := c.okB || !s.on (Reg.RING_STAT.LINK_B k)
  if c.both then a && b
  else if s.get (Reg.RING_CFG.TOPOLOGY k) = 0 && s.on (Reg.RING_STAT.LINK_B k) then c.okB else c.okA

/-- A ring cycle all of whose slots are settled is judged (R199, R207): the counts of its nodes, VALID and VALID_RUN, RING_HEALED. -/
def State.judgeCycle (s : State) (k : Nat) (c : RingCyc) : State :=
  let s1 := forN 25 (fun s n => s.judgeNode k n c) s
  let full := c.expect.all c.accepted.contains
  let valid := full && s1.copiesBack k c
  let run := if valid then satU 8 (s1.get (Reg.RING_STAT.VALID_RUN k) + 1) else 0
  let s2 := (s1.setB (Reg.RING_STAT.VALID k) valid).set (Reg.RING_STAT.VALID_RUN k) run
  let s3 := if s2.ringMode k = ringFolded ∧ full ∧ !(s2.ring k).healed ∧ c.both then
      (s2.modRing k fun r => { r with healed := true }).log (Src.ring k) Ev.RING_HEALED
        (s2.loopNode k 0 + 256 * s2.loopNode k 1) (s2.ring k).holes
    else s2
  s3.modRing k fun r => { r with holes := if full then 0 else r.holes + 1 }

/-- The 16th consecutive valid cycle ends STARTING, at a cycle-start (R207). -/
def State.endStarting (s : State) (k : Nat) : State :=
  if s.ringMode k = ringStarting ∧ 16 ≤ s.get (Reg.RING_STAT.VALID_RUN k) then
    s.setRingMode k (if s.get (Reg.RING_CFG.TOPOLOGY k) ≠ 0 then ringLine else if (s.ring k).both then ringFolded else ringClosed)
  else s

/-- Judge the ring cycles of ring `k` that are settled and not judged yet, the older first. -/
def State.settle (s : State) (k : Nat) : State :=
  let s1 := match (s.ring k).prev with
    | some c => if c.settled ∧ !c.judged then
        (s.modRing k fun r => { r with prev := some { c with judged := true } }).judgeCycle k c
      else s
    | none => s
  match (s1.ring k).prev, (s1.ring k).cur with
  | some p, some c => if p.judged ∧ c.settled ∧ !c.judged ∧ c.start + ringNs ≤ s1.now then
      (s1.modRing k fun r => { r with cur := some { c with judged := true } }).judgeCycle k c
    else s1
  | none, some c => if c.settled ∧ !c.judged ∧ c.start + ringNs ≤ s1.now then
      (s1.modRing k fun r => { r with cur := some { c with judged := true } }).judgeCycle k c
    else s1
  | _, _ => s1

/-- RING_LOOP of a port after a ring cycle: LOOP shows C_P or 0xFFFF (R213). -/
def State.showLoop (s : State) (f : Fld) (c : Option Nat) : State :=
  s.set f (match c with
    | some d => satU 16 d
    | none => 0xFFFF)

/-- The path delay of the node that looped its onward port in ring cycle `c` for its PROBE (R209): (C_P - F) / 2 on its origin's port. -/
def State.probeDelay (s : State) (k : Nat) (c : RingCyc) : State :=
  match (s.ring k).probing with
  | some (n, m) =>
    if c.cycle < m then s
    else
      let d := if s.get (Reg.NODE_INFO.ORIGIN k n) = 0 then (if c.okA then c.cA else none) else (if c.okB then c.cB else none)
      let s1 := s.modRing k fun r => { r with probing := none }
      match d with
      | some x => if c.cycle = m then (s1.set (Reg.NODE_DELAY.DELAY k n) (satU 16 ((x - (s.node k n).turn) / 2))).set (Reg.NODE_DELAY.ESTIMATED k n) 0 else s1
      | none => s1
  | none => s

/-- What the end of ring cycle `c` leaves in the registers of ring `k` (R198, R209, R213). A ring cycle in which a node loops its onward port
for a PROBE is no break of the ring (DEDUCED 22). -/
def State.ringEnd (s : State) (k : Nat) (c : RingCyc) : State :=
  let s1 := (s.setB (Reg.RING_STAT.RX_A k) c.okA).setB (Reg.RING_STAT.RX_B k) c.okB
  let s2 := (s1.showLoop (Reg.RING_LOOP_A.LOOP k) (if c.okA then c.cA else none)).showLoop
    (Reg.RING_LOOP_B.LOOP k) (if c.okB then c.cB else none)
  let r := s2.ring k
  let w := if r.late then 0 else r.within + 1
  let s3 := if 16 ≤ w then s2.set (Reg.RING_STAT.OVER_BUDGET k) 0 else s2
  let single := s.get (Reg.RING_CFG.TOPOLOGY k) == 0 && !c.both
  let probe := match r.probing with
    | some p => p.2 == c.cycle
    | none => false
  (s3.probeDelay k c).modRing k fun r => { r with
    within := w, late := false, unreturned := single && !c.ret0 && !probe
    lastA := if c.okA then c.cA else none, lastB := if c.okB then c.cB else none
    loop := if single && c.ret0 then c.cB else r.loop }

/-! ### The start of a ring cycle (R201, R207, R208) -/

/-- A re-close requested in FOLDED (R207): EXTEND in this cycle-start where every looped node reports LOOP_LINK, else refused. -/
def State.takeReclose (s : State) (k : Nat) : State :=
  let r := s.ring k
  if !r.reqReclose then s
  else
    let s1 := s.modRing k fun r => { r with reqReclose := false }
    if s.ringMode k ≠ ringFolded then s1
    else if (List.range 25).all fun n =>
        !(s.addressed k n && s.on (Reg.NODE_INFO.LOOPED k n)) || (s.node k n).loopLink then
      (s1.setRingMode k ringClosed).modRing k fun r => { r with recloseAt := some s.dev.cycle.toNat }
    else s1.flag (Reg.RING_STAT.RECLOSE_REFUSED k)

/-- The origins on which ring `k` sends. -/
def State.origins (s : State) (k : Nat) : List Nat := if (s.ring k).both then [0, 1] else [0]

/-- The enumeration of an origin begins with hop 0 (R210 phase 3). -/
def State.enumBegin (s : State) (k o : Nat) : State :=
  if (s.ring k).enums.contains o then s
  else (s.modRing k fun r => { r with enums := r.enums ++ [o] }).queueOwn k (enumTxn o 0)

/-- A node takes the address whose ASSIGN has named the ring cycle that begins (R195, R210). -/
def State.takeGives (s : State) (k : Nat) : State :=
  let n := s.dev.cycle.toNat
  let now := (s.ring k).gives.filter fun g => decide (g.cycle ≤ n)
  forEach now (fun s g => (s.giveAddress k g.node g.serial g.typ g.origin g.hop g.slots).modNode k g.node fun x => { x with turn := g.turn })
    (s.modRing k fun r => { r with gives := r.gives.filter fun g => !decide (g.cycle ≤ n) })

/-- A transaction of bring-up that assigns or probes is waiting or in the slots. -/
def State.bringing (s : State) (k : Nat) : Bool :=
  let own := fun (x : Txn) => match x.owner with
    | .give _ => true
    | .probe _ => true
    | _ => false
  (s.ring k).ownTxns.any own || (match (s.ring k).txn with
    | some x => own x
    | none => false) || !(s.ring k).gives.isEmpty || (s.ring k).probing.isSome

/-- The addressed nodes of ring `k` that bring-up has not probed, lowest hop first (R210 phase 4). -/
def State.toProbe (s : State) (k : Nat) : List Nat :=
  (List.range 255).flatMap fun h => (List.range 25).filter fun n =>
    s.addressed k n && s.get (Reg.NODE_INFO.HOP k n) == h && !(s.node k n).landing && !(s.ring k).probed.contains n

/-- Bring-up goes on at a cycle-start (R210): the enumeration of an origin that has come into use; once every origin is enumerated, one PROBE
after the other; then the reading of the records of each node with axes, and of a landing's. -/
def State.bringStep (s : State) (k : Nat) : State :=
  let s1 := if (s.ring k).enums.isEmpty ∨ s.ringMode k ≠ ringStarting then s else forEach (s.origins k) (fun s o => s.enumBegin k o) s
  let r := s1.ring k
  if !(r.enums.all r.enumsEnded.contains) || s1.bringing k then s1
  else
    match s1.toProbe k with
    | n :: _ =>
      if r.enums.isEmpty then s1
      else (s1.modRing k fun r => { r with probed := r.probed ++ [n] }).queueOwn k
        { (default : Txn) with owner := .probe n, op := 5, node := 31, hops := s1.get (Reg.NODE_INFO.HOP k n), origin := s1.get (Reg.NODE_INFO.ORIGIN k n) }
    | [] => forN 24 (fun s n =>
        if s.addressed k n && !(s.nodeAxes k n).isEmpty && !(s.node k n).reading then s.startRead k n else s) s1

/-- Ring `k` begins the ring cycle that the timer has begun: what the last cycle leaves, claims and releases, addresses, mutes, the modes, and
the new cycle's table, fixed for the whole of it (R201). -/
def State.ringStart (s : State) (k : Nat) : State :=
  let s0 := s.settle k
  let s1 := match (s0.ring k).cur with
    | some c => forEach (List.range 32) (fun s i => s.landingStep k i c) (s0.ringEnd k c)
    | none => s0
  let s2 := ((((forN 24 (fun s n => s.releaseLanding k n) s1).takeGives k).takeMutes k).endStarting k).takeReclose k
  let s2 := s2.bringStep k
  let n := s.dev.cycle.toNat
  let r := s2.ring k
  let both := match r.recloseAt with
    | some m => if n = m + 1 then false else r.both
    | none => r.both
  let extend := s2.get (Reg.RING_CFG.TOPOLOGY k) != 0 || r.recloseAt == some n
  let t := s2.activeTable k
  let expect := (List.range 32).filter fun i =>
    entKind (t.getD i 0) == 1 && s2.addressed k (entNode (t.getD i 0)) && !s2.nodeMuted k (entNode (t.getD i 0))
  let c : RingCyc := { (default : RingCyc) with
    cycle := n, start := s.dev.cycleTsc, table := t, expect := expect, both := both, extend := extend }
  (s2.modRing k fun r => { r with prev := r.cur, cur := some c, both := both }).svcPick k

/-- RING_RECLOSE (R207): a re-close is requested, taken at the next cycle-start. -/
def State.wRingReclose (s : State) (k : Fin 16) : State := s.modRing k.val fun r => { r with reqReclose := true }
/-- RING_RECLOSE. -/
def execRingReclose (t : Time) (k : Fin 16) (s : State) : Out :=
  byHost t s (Reg.RING_CTRL k.val) 2 (fun s => s.wRingReclose k)

/-- RING_FOLD (R207): the last cycle-start sent on SPk_A only did not return on SPk_B with RETURN 0: the master sends on both ports
from this ring cycle on, and a CLOSED ring is FOLDED. -/
def execRingFold (t : Time) (k : Fin 16) (s : State) : Out :=
  live t s fun s =>
    let r := s.ring k.val
    let m := s.ringMode k.val
    if r.unreturned ∧ !r.both ∧ (m = ringStarting ∨ m = ringClosed) then
      let s1 := s.modRing k.val fun r => { r with
        both := true, unreturned := false, recloseAt := none, cur := r.cur.map fun c => { c with both := true } }
      if m = ringClosed then s1.setRingMode k.val ringFolded else s1
    else s

/-- RING_CLR (R213): the loop-delay maxima and every NODE_CNT become 0. -/
def State.wRingClr (s : State) (k : Fin 16) : State :=
  forN 25 (fun s n => s.setWord (Reg.NODE_CNT k.val n) 0)
    ((s.set (Reg.RING_LOOP_A.MAX k.val) 0).set (Reg.RING_LOOP_B.MAX k.val) 0)
/-- RING_CLR. -/
def execRingClr (t : Time) (k : Fin 16) (s : State) : Out :=
  byHost t s (Reg.RING_CTRL k.val) 16 (fun s => s.wRingClr k)

/-- Change a port of the unit as a node (`b`: SPk_B). -/
def State.modPort (s : State) (k : Nat) (b : Bool) (f : NodePort → NodePort) : State :=
  s.modRing k fun r => if b then { r with portB := f r.portB } else { r with portA := f r.portA }
/-- A port of the unit as a node. -/
def RingSt.port (r : RingSt) (b : Bool) : NodePort := if b then r.portB else r.portA

/-- The unit is a node of the pair's rings: neither SOLO nor ACTIVE (R302). -/
def State.isNode (s : State) : Bool := s.get Reg.DPX_STAT.ROLE != 0 && s.get Reg.DPX_STAT.ROLE != 1

/-- The link of a port of ring `k` (`b`: SPk_B) is up. -/
def State.linkUp (s : State) (k : Nat) (b : Bool) : Bool := s.on (if b then Reg.RING_STAT.LINK_B k else Reg.RING_STAT.LINK_A k)

/-- RING_LINK_DOWN (R188, R206): the link of a port goes down (`b`: SPk_B). As a node, the unit goes into loop-back there and sends the
remote-fault set on the port. -/
def execRingLinkDown (t : Time) (k : Fin 16) (b : Bool) (s : State) : Out :=
  live t s fun s =>
    let s1 := if b then s.set (Reg.RING_STAT.LINK_B k.val) 0 else s.set (Reg.RING_STAT.LINK_A k.val) 0
    if s1.isNode then s1.modPort k.val b fun _ => { looped := true, remoteFault := true, upRun := 0 } else s1

/-- RING_LINK_UP (R188): the link of a port comes up. A node's port stays in loop-back until R208 ends it. -/
def execRingLinkUp (t : Time) (k : Fin 16) (b : Bool) (s : State) : Out :=
  live t s fun s =>
    let s1 := if b then s.set (Reg.RING_STAT.LINK_B k.val) 1 else s.set (Reg.RING_STAT.LINK_A k.val) 1
    if s1.isNode then s1.modPort k.val b fun p => { p with remoteFault := false, upRun := 0 } else s1

/-! ### Loop delays (R198, R209) -/

/-- A loop delay over 6 000 ns (R209). -/
def State.overBudget (s : State) (k : Nat) (b : Bool) (d : Nat) : State :=
  if d ≤ 6000 then s
  else
    let s1 := (s.modRing k fun r => { r with late := true }).set (Reg.RING_STAT.OVER_BUDGET k) 1
    if s.on (Reg.RING_STAT.OVER_BUDGET k) then s1 else s1.log (Src.ring k) Ev.RING_DELAY (b2n b) d

/-- A valid copy of this cycle's cycle-start arrives on a port `d` ns after the instant, with its RETURN bit. -/
def State.copyBack (s : State) (k : Nat) (b : Bool) (d : Nat) (ret : Bool) : State :=
  let s1 := s.modRing k fun r => { r with cur := r.cur.map fun c =>
    if b then { c with cB := some d, okB := true, ret0 := c.ret0 || !ret, thru := c.thru || !ret }
    else { c with cA := some d, okA := true, thru := c.thru || !ret } }
  let f := if b then Reg.RING_LOOP_B.MAX k else Reg.RING_LOOP_A.MAX k
  let s2 := (s1.set f (max (s1.get f) (satU 16 d))).overBudget k b d
  match (s2.ring k).recloseAt with
  | some m =>
    if b ∧ !ret ∧ s2.dev.cycle.toNat = m + 1 then
      (s2.modRing k fun r => { r with recloseAt := none }).log (Src.ring k) Ev.RING_CLOSED d 0
    else s2
  | none => s2

/-- A received frame is well formed: its length, no code violation, its CRC-32C (R191). -/
def frameOk (len : Nat) (f : List Nat) (clean : Bool) : Bool :=
  clean && f.length == len + 4 && crc32c (f.take len) == leAt f len 4

/-- CYCLE_START_RETURN (R198): a copy of the cycle-start returns on a port (`b`: SPk_B), body and CRC in `frame`, `clean` without a
code violation. -/
def execCycleStartReturn (t : Time) (k : Fin 16) (b : Bool) (frame : List Byte) (clean : Bool) (s : State) : Out :=
  live t s fun s =>
    let f := natBytes frame
    match (s.ring k.val).cur with
    | none => s
    | some c =>
      let d := s.now - c.start
      if 12000 < d ∨ (if b then c.okB else c.okA) then s
      else if frameOk 18 f clean then
        if leAt f 0 8 = c.cycle then s.copyBack k.val b d (bitAt (leAt f 8 1) 6) else s
      else
        s.modRing k.val fun r => { r with cur := r.cur.map fun c =>
          if b then { c with cB := r.lastB } else { c with cA := r.lastA } }

/-! ### Bring-up (R210) -/

/-- RING_BRING_UP (R210): the ports of an enabled ring have trained, and its cycle-starts run: the enumeration of each origin in use begins
in the SERVICE slots; addresses, PROBEs and the reading of the records follow from its answers. -/
def execRingBringUp (t : Time) (k : Fin 16) (s : State) : Out :=
  live t s fun s =>
    if !s.on (Reg.RING_CFG.EN k.val) ∨ s.ringMode k.val = ringOff then s
    else (forEach (s.origins k.val) (fun s o => s.enumBegin k.val o) s).svcPick k.val

/-! ### Service commands of the host (R211, R213) -/

/-- SVC_CMD with OP READ or WRITE. -/
def State.hostTxn (s : State) (k op tag node len : Nat) : State :=
  if (s.ring k).hostTxn.isSome then s.svcResult k tag 5 0
  else if 25 ≤ node ∨ len = 0 ∨ (if op = 1 then 32 else 24) < len then s.svcResult k tag 4 0
  else
    let d := (List.range 8).flatMap fun w => leBytes 4 (s.word (Reg.SVC_DATA k w))
    let x := { (default : Txn) with owner := .host, op := op, node := node, addr := s.word (Reg.SVC_ADDR k), len := len
                                    data := if op = 2 then d.take len else [], tag := tag }
    ((s.modRing k fun r => { r with hostTxn := some x }).svcResult k tag 0 0).svcPick k

/-- SVC_READ (R211). -/
def State.wSvcRead (s : State) (k : Fin 16) (tag : BitVec 16) (node : Fin 32) (len : Fin 64) : State := s.hostTxn k.val 1 tag.toNat node.val len.val
/-- SVC_READ. -/
def execSvcRead (t : Time) (k : Fin 16) (tag : BitVec 16) (node : Fin 32) (len : Fin 64) (s : State) : Out :=
  byHost t s (Reg.SVC_CMD k.val) (65536 * tag.toNat + 256 * node.val + 4 * len.val + 1) (fun s => s.wSvcRead k tag node len)

/-- SVC_WRITE (R211). -/
def State.wSvcWrite (s : State) (k : Fin 16) (tag : BitVec 16) (node : Fin 32) (len : Fin 64) : State := s.hostTxn k.val 2 tag.toNat node.val len.val
/-- SVC_WRITE. -/
def execSvcWrite (t : Time) (k : Fin 16) (tag : BitVec 16) (node : Fin 32) (len : Fin 64) (s : State) : Out :=
  byHost t s (Reg.SVC_CMD k.val) (65536 * tag.toNat + 256 * node.val + 4 * len.val + 2) (fun s => s.wSvcWrite k tag node len)

/-- SERVICE_TRANSACTION_END (R211): the transaction in the SERVICE slots of a ring has ended DONE, TIMEOUT or MUTED. -/
def execServiceTransactionEnd (t : Time) (k : Fin 16) (s : State) : Out :=
  live t s fun s => s.svcEnd k.val

end Sys2Proof.Machine
end

