-- ==== Sys2Proof/Machine/Life.lean ====
section
/-! DEFINITION. Cartridges: identity records (R218, R219), life records and their write credit (R220, R221), life accounting and its
thresholds (R222, R223), and the mirror in flash (R224). -/

namespace Sys2Proof.Machine

/-! ### Life records (R220) -/

/-- The record that 64 bytes spell, where its CRC holds. -/
def lifeRec? (b : List Nat) : Option LifeRec :=
  if b.length = 64 ∧ crc32c (b.take 0x3C) = leAt b 0x3C 4 then
    some { seq := leAt b 0 4, consumed := leAt b 4 8, onTime := leAt b 0xC 4, peaks := leAt b 0x10 4, tempPeak := leAt b 0x14 2
           hist := (List.range 8).map fun i => leAt b (0x18 + 4 * i) 4, writes := leAt b 0x38 4 }
  else none

/-- The current record of the 32 slots: the valid one whose SEQ is greatest modulo 2^32 (R220). -/
def currentLife (slots : List Nat) : Option LifeRec :=
  (List.range 32).foldl (fun best j =>
    match lifeRec? ((slots.drop (64 * j)).take 64), best with
    | some r, some b => if 0 < sx 32 (ux 32 ((r.seq : Int) - b.seq)) then some r else best
    | some r, none => some r
    | none, _ => best) none

/-- A blank record: nothing consumed. -/
def LifeRec.blank : LifeRec := { (default : LifeRec) with hist := List.replicate 8 0 }

/-- Event source of a node: its lowest axis channel (R226). -/
def State.nodeSrc (s : State) (k n : Nat) : Nat := (s.nodeAxes k n).head?.getD (Src.ring k)

/-! ### The mirror (R224) -/

/-- The mirror entry of a serial: its index. -/
def State.mirrorFind (s : State) (serial : Nat) : Option (Nat × MirrorEntry) :=
  s.cartMirror.findSome? fun e => match e.2 with
    | some m => if m.serial = serial then some (e.1, m) else none
    | none => none

/-- The index a new serial takes: the lowest free one, else the least recently seen (R224). -/
def State.mirrorSlot (s : State) : Nat :=
  match (List.range 4096).find? fun i => (tget none s.cartMirror i).isNone with
  | some i => i
  | none =>
    (s.cartMirror.foldl (fun best e => match e.2, best with
      | some m, some (_, seen) => if m.seen < seen then some (e.1, m.seen) else best
      | some m, none => some (e.1, m.seen)
      | none, _ => best) (none : Option (Nat × Nat))).elim 0 (·.1)

/-- Write the mirror entry of a serial: its flash write is under way, MIR_STAT.USED follows (R224). -/
def State.mirrorPut (s : State) (serial : Nat) (ident : List Nat) (life : LifeRec) : State :=
  let put := fun (s : State) (i : Nat) =>
    let m : MirrorEntry := ⟨serial, ident, life, s.mirrorSeen⟩
    { s with cartMirror := tput none s.cartMirror i (some m), mirrorSeen := s.mirrorSeen + 1
             mirrorBusy := if s.mirrorBusy.contains i then s.mirrorBusy else s.mirrorBusy ++ [i] }
  match s.mirrorFind serial with
  | some e => put s e.1
  | none =>
    let i := s.mirrorSlot
    let s1 := match tget none s.cartMirror i with
      | some old => s.log Src.configuration Ev.MIRROR_EVICTED (old.serial % 2 ^ 32) (old.serial / 2 ^ 32)
      | none => s.addSat Reg.MIR_STAT.USED 1
    put s1 i

/-- The mirror entry of a serial is seen without a change. -/
def State.mirrorTouch (s : State) (serial : Nat) : State :=
  match s.mirrorFind serial with
  | some e => { s with cartMirror := tput none s.cartMirror e.1 (some { e.2 with seen := s.mirrorSeen }), mirrorSeen := s.mirrorSeen + 1 }
  | none => s

/-- The 80 words that MIR_DATA presents of entry `i` (R227). -/
def State.mirrorWord (s : State) (i w : Nat) : Nat :=
  match tget none s.cartMirror i with
  | some m => if w < 64 then leAt m.ident (4 * w) 4 else leAt m.life.bytes (4 * (w - 64)) 4
  | none => 0

/-! ### Credit and writes (R221) -/

/-- 60 minutes in ns. -/
def hourNs : Nat := 3600000000000

/-- The write credit of a node now: 6 minus its writes of the last 60 minutes. -/
def State.credit (s : State) (k n : Nat) : Nat :=
  6 - ((s.node k n).history.filter fun t => decide (s.now < t + hourNs)).length

/-- LIFE_STAT of the node's axes: WRITES, DUE, CREDIT (R227). -/
def State.showLife (s : State) (k n : Nat) : State :=
  let x := s.node k n
  forEach (s.nodeAxes k n) (fun s a =>
    ((s.set (Reg.LIFE_STAT.WRITES a) (satU 24 x.life.writes)).setB (Reg.LIFE_STAT.DUE a) x.due).set
      (Reg.LIFE_STAT.CREDIT a) (s.credit k n)) s

/-- A write of `r` begins: SEQ `seq`, one write more, into slot `seq` mod 32; it counts in the history (R220, R221). Its first WRITE waits
for the SERVICE slots. -/
def State.startLifeWrite (s : State) (k n : Nat) (r : LifeRec) (seq : Nat) (again : Bool) : State :=
  let q := seq % 2 ^ 32
  let r1 := { r with seq := q, writes := (r.writes + 1) % 2 ^ 32 }
  let w : LifeWrite := { (default : LifeWrite) with record := r1, slot := q % 32, again := again }
  let s1 := s.modNode k n fun x => { x with
    writing := some w, due := false, onLast := r.onTime
    history := if again then x.history else (x.history ++ [s.now]).drop ((x.history.length + 1) - 6) }
  ((s1.showLife k n).queueOwn k (lifeTxn n 0 w)).svcPick k

/-- A due write is made where the credit allows it, else it waits (R221). -/
def State.lifeDueNow (s : State) (k n : Nat) : State :=
  let x := s.node k n
  if x.writing.isSome ∨ s.credit k n = 0 then (s.modNode k n fun x => { x with due := true }).showLife k n
  else s.startLifeWrite k n x.life (x.life.seq + 1) false

/-- LIFE_WRITE_DUE (R221): ten minutes of ON_TIME since the last write, or a disable of an axis of the cartridge. -/
def execLifeWriteDue (t : Time) (k : Fin 16) (n : Fin 24) (s : State) : Out :=
  live t s fun s =>
    let x := s.node k.val n.val
    let axs := s.nodeAxes k.val n.val
    if x.ident.isEmpty then s
    else if x.onLast + 600 ≤ x.life.onTime ∨ (s.lifeDue.any fun a => axs.contains a) then
      { s with lifeDue := s.lifeDue.filter fun a => !axs.contains a }.lifeDueNow k.val n.val
    else s

/-- LIFE_CREDIT_RETURN (R221): the oldest counted write leaves the 60-minute window, and a waiting write is made. -/
def execLifeCreditReturn (t : Time) (k : Fin 16) (n : Fin 24) (s : State) : Out :=
  live t s fun s =>
    match (s.node k.val n.val).history with
    | w :: rest =>
      if w + hourNs ≤ s.now then
        let s1 := s.modNode k.val n.val fun x => { x with history := rest }
        if (s1.node k.val n.val).due ∧ (s1.node k.val n.val).writing.isNone then s1.lifeDueNow k.val n.val
        else s1.showLife k.val n.val
      else s
    | [] => s

/-- LIFE_RECORD_WRITE (R220): the WRITEs of a slot and its read-back have ended; what was read is compared. A mismatch repeats the write
once into the next slot; a second is logged, with SVC_RESULT.STATUS of the last attempt. -/
def execLifeRecordWrite (t : Time) (k : Fin 16) (n : Fin 24) (s : State) : Out :=
  live t s fun s =>
    let x := s.node k.val n.val
    match x.writing with
    | none => s
    | some w =>
      if !w.ended then s
      else
        let done := fun (s : State) (r : LifeRec) =>
          let s1 := s.modNode k.val n.val fun x => { x with writing := none, life := { x.life with seq := r.seq, writes := r.writes } }
          let s2 := s1.mirrorPut (s1.nodeSerial k.val n.val) x.ident { (s1.node k.val n.val).life with
            onTime := r.onTime, consumed := r.consumed, peaks := r.peaks, tempPeak := r.tempPeak, hist := r.hist }
          let s3 := s2.showLife k.val n.val
          if (s3.node k.val n.val).due then s3.lifeDueNow k.val n.val else s3
        if w.back = w.record.bytes then done s w.record
        else if w.again then
          done (s.log (s.nodeSrc k.val n.val) Ev.LIFE_WRITE_FAILED w.slot w.status) w.record
        else s.startLifeWrite k.val n.val w.record (w.record.seq + 1) true

/-! ### Thresholds (R223) -/

/-- The life fraction of a cartridge: CONSUMED / RATED_LIFE. -/
def State.lifeFraction (s : State) (k n : Nat) : Rat :=
  let x := s.node k n
  let r := f64 (leAt x.ident 0x40 8)
  if r = 0 then 0 else f64 x.life.consumed / r

/-- A life event of a cartridge serial is logged once (R223). -/
def State.logLife (s : State) (k n kind code d0 d1 : Nat) : State :=
  let key := (s.nodeSerial k n, kind)
  if s.lifeLogged.contains key then s
  else { s with lifeLogged := s.lifeLogged ++ [key] }.log (s.nodeSrc k n) code d0 d1

/-- The thresholds of axis `a` of node `n` (R223): LIFE_FRAC, LIFE_STAT.STATE and the records. -/
def State.lifeCheck (s : State) (k n a : Nat) : State :=
  let f := s.lifeFraction k n
  let d := toF32 f
  let cont := s.on (Reg.LIFE_CFG.CONT_USE a)
  let warn := decide ((s.get (Reg.LIFE_CFG.WARN a) : Rat) / 128 ≤ f)
  let derate := decide (1 ≤ f)
  let stop := decide ((s.get (Reg.LIFE_CFG.STOP a) : Rat) / 128 ≤ f)
  let st := if stop && !cont then 3 else if derate then 2 else if warn then 1 else 0
  let s1 := (s.setWord (Reg.LIFE_FRAC a) d).set (Reg.LIFE_STAT.STATE a) st
  let s2 := if warn then s1.logLife k n 0 Ev.LIFE_WARN d 0 else s1
  let s3 := if derate then s2.logLife k n 1 Ev.LIFE_DERATED d 0 else s2
  if stop then s3.logLife k n 2 Ev.LIFE_REFUSED d (b2n cont) else s3

/-! ### Accounting (R222) -/

/-- |i| of the accounting by the channel kind: iq, √(iA² + iB²), or |ia| (R222). -/
def State.lifeCurrent (s : State) (a : Nat) (u : Uplink) : Rat :=
  let fs := s.identF32 a 0x14
  let ia := (u.ia : Rat) / 32768 * fs
  let ib := (u.ib : Rat) / 32768 * fs
  match s.get (Reg.AX_CFG.KIND a) with
  | 0 => rabs (Config.iq a (s.upos a) ia ib)
  | 1 => rsqrt (ia * ia + ib * ib)
  | _ => rabs ia

/-- The band of TEMP_HIST of a temperature in 1/128 °C (R220). -/
def tempBand (t : Int) : Nat :=
  if t < 40 * 128 then 0 else if 130 * 128 ≤ t then 7 else 1 + ((t - 40 * 128) / (15 * 128)).toNat

/-- CONSUMED grows by the wear of axis `a` since its last accounted position `p0`, in revolutions times the cubed relative load. -/
def State.wear (s : State) (k n a : Nat) (u : Uplink) (p0 : Int) : State :=
  let x := s.node k n
  let cpr := leAt x.ident 0x38 4
  let th : Rat := if cpr = 0 then 0 else rabs ((s.upos a - p0 : Int) : Rat) / 16777216 / cpr
  let tr := s.identF32 a 0x2C
  let l := if tr = 0 then 0 else s.identF32 a 0x28 * s.lifeCurrent a u / tr
  let c := toF64 (f64 x.life.consumed + th * (l * l * l))
  s.modNode k n fun x => { x with life := { x.life with consumed := c } }

/-- The part of a second counted in ring cycles: 64 000 make one. -/
def secondCarry (p : Nat) : Nat × Nat := if 64000 ≤ p + 1 then (0, 1) else (p + 1, 0)

/-- ON_TIME, TEMP_PEAK and TEMP_HIST of a node for one ring cycle with an accepted uplink `u` (R220, R222). The times count once in a ring
cycle (`first`), the temperature of the band being that of the first uplink; the peak is over every uplink (DEDUCED 24). -/
def State.lifeTimes (s : State) (k n : Nat) (u : Uplink) (first : Bool) : State :=
  let x := s.node k n
  let pk := if sx 16 x.life.tempPeak < u.temp then ux 16 u.temp else x.life.tempPeak
  if !first then s.modNode k n fun x => { x with life := { x.life with tempPeak := pk } }
  else
  let on := (s.nodeAxes k n).any fun a => s.axState a != axOff
  let o := if on then secondCarry x.onPart else (x.onPart, 0)
  let b := tempBand u.temp
  let p := secondCarry (x.bandPart.getD b 0)
  s.modNode k n fun x => { x with
    timed := some s.dev.cycle.toNat, onPart := o.1
    bandPart := (List.range 8).map fun i => if i = b then p.1 else x.bandPart.getD i 0
    life := { x.life with
      onTime := satU 32 (x.life.onTime + o.2), tempPeak := pk
      hist := (List.range 8).map fun i => (x.life.hist.getD i 0 + if i = b then p.2 else 0) % 2 ^ 32 } }

/-- LIFE_ACCOUNTING of axis `a` for a ring cycle with an accepted uplink (R222); the first axis of its node to come counts the times. -/
def State.lifeAccount (s : State) (a : Nat) : State :=
  let k := s.ringOf a
  let n := s.nodeOf a
  match (s.axis a).uplink with
  | some u =>
    if (s.node k n).ident.isEmpty then s.modAxis a fun x => { x with lifePos := some (s.upos a) }
    else
      let s1 := match (s.axis a).lifePos with
        | some p => s.wear k n a u p
        | none => s
      let s2 := s1.modAxis a fun x => { x with lifePos := some (s.upos a) }
      let s3 := s2.lifeTimes k n u ((s2.node k n).timed != some s2.dev.cycle.toNat)
      forEach (s3.nodeAxes k n) (fun s b => s.lifeCheck k n b) s3
  | none => s

/-- A peak event of the cartridge of axis `a`: LIMITING has been set (R152, R220). -/
def State.lifePeak (s : State) (a : Nat) : State :=
  s.modNode (s.ringOf a) (s.nodeOf a) fun x => { x with life := { x.life with peaks := (x.life.peaks + 1) % 2 ^ 32 } }

/-! ### Identity (R219) -/

/-- A binary32 field that is zero, negative, infinite or NaN (R219 reason 7). -/
def badF32 (w : Nat) : Bool := !f32Finite w || decide (f32 w ≤ 0)

/-- The lowest reason of R219 for which an identity record of node `n` is rejected; 0 accepts it. -/
def State.identityReason (s : State) (k n : Nat) (r : List Nat) : Nat :=
  let t := s.activeTable k
  let sl := nodeSlots t n
  let typ := leAt r 0x10 2
  let ofAxes := fun (p : Nat → Bool) => sl.any fun i => p (t.getD i 0)
  if r.length ≠ 256 ∨ crc32c (r.take 0xFC) ≠ leAt r 0xFC 4 then 1
  else if r.take 4 ≠ [0x4B, 0x51, 0x49, 0x44] ∨ leAt r 4 2 ≠ 1 ∨ leAt r 6 2 ≠ 256 then 2
  else if ofAxes fun w => entType w != 0 && entType w != typ then 3
  else if ofAxes fun w => s.get (Reg.AX_CFG.KIND (entAxis w)) != leAt r 0x12 1 then 4
  else if ofAxes fun w => match s.img.axis? (entAxis w) with
      | some d => d.nbits != leAt r 0x31 1 || d.encLines != leAt r 0x34 4 || d.encCpr != leAt r 0x38 4 ||
          d.absolute != bitAt (leAt r 0x13 1) 1 || d.polePairs != leAt r 0x30 1
      | none => false then 5
  else if leAt r 8 8 = 0 ∨ s.serialInUse (leAt r 8 8) k n then 6
  else if leAt r 0x3D 1 < leAt r 0x3C 1 ∨
      ([0x14, 0x18, 0x1C, 0x20, 0x24, 0x28, 0x2C, 0x4C].any fun o => badF32 (leAt r o 4)) then 7
  else 0

/-- The magnitude of the difference of two CONSUMED patterns, binary32 (R226). -/
def lifeDiff (x y : Nat) : Nat := toF32 (rabs (f64 x - f64 y))

/-- The mirror comparison at an acceptance (R224): the record that accounting resumes from, and what is written. -/
def State.mirrorCompare (s : State) (k n serial : Nat) (ident : List Nat) (cart : Option LifeRec) : State :=
  let use := fun (s : State) (r : LifeRec) => s.modNode k n fun x => { x with life := r, onLast := r.onTime }
  match cart, (s.mirrorFind serial).map (·.2) with
  | some c, none => (use s c).mirrorPut serial ident c
  | none, none => (use s LifeRec.blank).startLifeWrite k n LifeRec.blank 0 false
  | some c, some m =>
    if f64 c.consumed = f64 m.life.consumed then (use s c).mirrorTouch serial
    else
      let mirrorWins := decide (f64 c.consumed < f64 m.life.consumed)
      let s1 := s.log (s.nodeSrc k n) Ev.LIFE_RECORD_MISMATCH (b2n mirrorWins) (lifeDiff c.consumed m.life.consumed)
      if mirrorWins then (use s1 { m.life with seq := c.seq }).startLifeWrite k n m.life (c.seq + 1) false
      else (use s1 c).mirrorPut serial ident c
  | none, some m =>
    let s1 := s.log (s.nodeSrc k n) Ev.LIFE_RECORD_MISMATCH 1 (lifeDiff m.life.consumed 0)
    (use s1 m.life).startLifeWrite k n m.life (m.life.seq + 1) false

/-- IDENTITY_ACCEPT (R219, R217, R223, R224): the reading of a node's identity record and its 32 life record slots is complete. -/
def execIdentityAccept (t : Time) (k : Fin 16) (n : Fin 24) (s : State) : Out :=
  live t s fun s =>
    let k := k.val
    let n := n.val
    if !s.addressed k n || !(s.node k n).readDone then s
    else
      let r := (s.node k n).readBuf.take 256
      let life := (s.node k n).readBuf.drop 256
      let axs := s.nodeAxes k n
      let why := s.identityReason k n r
      let serial := leAt r 8 8
      if why ≠ 0 then
        ((forEach axs State.dropAxis s).modNode k n fun x => { x with readDone := false, readBuf := [] }).log (s.nodeSrc k n)
          Ev.IDENTITY_REJECTED why (serial % 2 ^ 32)
      else
        let s1 := s.modNode k n fun x => { (default : NodeSt) with
          ident := r, answers := x.answers, landing := x.landing, loopLink := x.loopLink, edgeRun := x.edgeRun, missRun := x.missRun
          turn := x.turn, reading := true, release := x.release }
        let s2 := forEach axs (fun s a =>
          ((s.set (Reg.LIFE_STAT.ACCEPTED a) 1).setWord (Reg.LIFE_SERIAL a) (serial % 2 ^ 32)).takeRatings a 1) s1
        let s3 := (s2.mirrorCompare k n serial r (currentLife life)).showLife k n
        let s4 := forEach axs (fun s a => s.lifeCheck k n a) s3
        match axs with
        | a :: _ => ((s4.queuePwm a 0).queuePwm a 1).syncPwm k n |>.svcPick k
        | [] => s4

end Sys2Proof.Machine
end

