-- ==== Sys2Proof/Machine/Image.lean ====
section
/-! DEFINITION. The flash (R369, R370), the choice and application of an image copy at LOAD (R373, R377, R378), the image write session
(R379, R380) and flash access (R381). -/

namespace Sys2Proof.Machine

/-! ### The flash (R369, R370, R381) -/

/-- Bytes of the flash from an address. -/
def State.flashRead (s : State) (a n : Nat) : List Nat := mread 0xFF s.flash a n

/-- Program bytes into the flash. -/
def State.flashProgram (s : State) (a : Nat) (l : List Nat) : State := { s with flash := mwrite 0xFF s.flash a l }

/-- Erase `n` bytes of the flash from an address. -/
def State.flashErase (s : State) (a n : Nat) : State :=
  { s with flash := s.flash.filter fun c => decide (c.1 < a) || decide (a + n ≤ c.1) }

/-- The flash is present and holds at least 128 MiB (R369). -/
def State.flashOk (s : State) : Bool := s.on Reg.FL_INFO.PRESENT && decide (128 ≤ s.get Reg.FL_INFO.SIZE_MIB)

/-- Cartridge mirror or event archive writes are pending (R380). -/
def State.flashPending (s : State) : Bool :=
  !s.mirrorBusy.isEmpty || s.arc.flush || decide (127 ≤ s.arc.buf.length) ||
    (!s.arc.buf.isEmpty && decide (s.arc.since + 10000000000 ≤ s.now))

/-- Base address of an image copy: 0 A, 1 B (R370). -/
def copyBase (c : Nat) : Nat := imgMax * c

/-- The word of the flash at an address (R370, R381): the mirror area shows the mirror's entries; past the end of the flash, and without
a flash, the word is free (tag 12). -/
def State.flashWord (s : State) (a : Nat) : Nat :=
  if !s.on Reg.FL_INFO.PRESENT || decide (s.get Reg.FL_INFO.SIZE_MIB * 0x100000 < a + 4) then Config.free 12 s.freeCount % 2 ^ 32
  else if 0x04020000 ≤ a ∧ a < 0x04220000 ∧ a % 4 = 0 then s.mirrorWord ((a - 0x04020000) / 512) ((a - 0x04020000) % 512 / 4)
  else leVal (s.flashRead a 4)

/-- The read of FL_DATA (R381): the word at FL_ADDR, and FL_ADDR advanced by 4. -/
def State.flData (s : State) : Nat × State :=
  let s1 := s.set Reg.FL_ADDR.VALUE (s.get Reg.FL_ADDR.VALUE + 4)
  (s.flashWord (s.get Reg.FL_ADDR.VALUE), { s1 with freeCount := s1.freeCount + 1 })

/-! ### Checking a copy (R377, R381) -/

/-- Put a check's result into IMG_SEQ, IMG_CHK, IMG_REJ_TAG and IMG_REJ_OFS (R381). -/
def State.showCheck (s : State) (c : Nat) (seq : Option Nat) (r : Option Rej) : State :=
  let s1 := match seq with
    | some q => s.setWord (if c = 0 then Reg.IMG_SEQ_A else Reg.IMG_SEQ_B) q
    | none => s
  let s2 := s1.set (if c = 0 then Reg.IMG_CHK.REASON_A else Reg.IMG_CHK.REASON_B) (r.elim 0 (·.reason))
  match r with
  | some x => (s2.setWord Reg.IMG_REJ_TAG x.tag).setWord Reg.IMG_REJ_OFS x.ofs
  | none => s2

/-- The bytes of a copy: its header and what LENGTH covers. -/
def State.copyBytes (s : State) (c : Nat) : List Nat :=
  let n := imgLength (s.flashRead (copyBase c) 256)
  s.flashRead (copyBase c) (if n ≤ imgMax then max 256 n else 256)

/-- The check of a copy at LOAD, reasons 1–13 (R377); `agrees`: channel B reported the same signature in time (reason 13). -/
def State.checkCopy (s : State) (c : Nat) (agrees : Bool) : Option Rej :=
  if !s.flashOk then some ⟨1, 0, 0⟩
  else
    match checkImage (s.copyBytes c) with
    | some r => some r
    | none => if agrees then none else some ⟨13, tagSAFE, 0⟩

/-! ### Applying a copy (R8, R373, R374, R378) -/

/-- The bits of a register that the image loads. -/
def imgMask (a : Nat) : Nat := match Regs.find a with | some (r, _, _) => r.img | none => 0

/-- Every image field and every image-loaded memory returns to 0 (R8, R373): not the log area (R412). -/
def State.imageClear (s : State) : State :=
  let s1 := forEach s.regs (fun s e => s.setWord e.1 (e.2.toNat - Nat.land e.2.toNat (imgMask e.1))) s
  { s1 with img := default, leprog := [], lemem := [], coefs := []
            mem := s1.mem.filter fun c => decide (0xBFE00000 ≤ c.1) && decide (c.1 < 0xC0000000) }

/-- A register takes its image fields from a word (R373). -/
def State.imageReg (s : State) (a v : Nat) : State :=
  let m := imgMask a
  s.setWord a (s.word a - Nat.land (s.word a) m + Nat.land v m)

/-- Words into a sparse word memory from key `k` on. -/
def putWords (t : Tbl (BitVec 32)) (k : Nat) (ws : List Nat) : Tbl (BitVec 32) :=
  (ws.foldl (fun (x : Tbl (BitVec 32) × Nat) w => (tput 0 x.1 x.2 (BitVec.ofNat 32 w), x.2 + 1)) (t, k)).1

/-- Load a MEM or COEF entry (R373, R375). -/
def State.imageEnt (s : State) (e : Ent) : State :=
  if e.kind = 2 then
    let sp := e.u 0 4
    let a := e.u 4 4
    if sp = 0 then s.fabWrite a (e.body.drop 8)
    else if sp < 0x200 then { s with leprog := putWords s.leprog (16384 * (sp - 0x100) + a) e.memWords }
    else { s with lemem := putWords s.lemem (2 ^ 18 * (sp - 0x200) + a) e.memWords }
  else if e.kind = 6 then
    { s with coefs := putWords s.coefs (64 * (2 * (24 * e.u 0 1 + e.u 1 1) + e.u 2 1)) (e.words 4 64) }
  else s

/-- Queues without a QUES section: Q0–Q15 MODE 0, Q16–Q31 MODE 1, HWM 384, LWM 128 (R374). -/
def State.queueDefaults (s : State) : State :=
  forN 32 (fun s q => ((s.set (Reg.Q_CFG.MODE q) (if q < 16 then 0 else 1)).set (Reg.Q_CFG.HWM q) 384).set (Reg.Q_CFG.LWM q) 128) s

/-- The rank a device takes from its node number (R335): its place in the RANK entry, 0 where it is not named. -/
def Img.rankOf (g : Img) (node : Nat) : Nat :=
  if g.federation then (((List.range 4).filter fun j => g.ranks.getD j 0xFFFF == node).map (· + 1)).headD 0 else 0

/-- Apply a checked copy (R373, R374, R378; N_u by R235; DPX_CFG.EN, FED_CFG.EN and RANK by the sections present). -/
def State.imageApply (s : State) (c : Nat) : State :=
  let raw := s.copyBytes c
  let p := parseImage (raw.take (imgLength raw))
  let s1 := forEach p.regs (fun s e => s.imageReg e.1 e.2.2.2) s.imageClear
  let s2 := forEach p.ents State.imageEnt { s1 with img := p.g }
  let s3 := if p.secs.contains tagQUES then s2 else s2.queueDefaults
  let s4 := (s3.setWord Reg.SEP_UNCULLED p.unculled).setB Reg.DPX_CFG.EN p.g.duplex
  let s5 := (s4.setB Reg.FED_CFG.EN p.g.federation).set Reg.FED_CFG.RANK (p.g.rankOf (s.get Reg.FED_CFG.NODE))
  s5.set Reg.DEV_STATE.IMAGE_COPY c

/-- Copy X is newer than copy Y (R378). -/
def newer (x y : Nat) : Bool :=
  let d := (x + (2 ^ 32 - y % 2 ^ 32)) % 2 ^ 32
  decide (1 ≤ d) && decide (d < 2 ^ 31)

/-- The check of both copies and the choice (R378): the state with the chosen copy applied, and whether one was chosen. `agA`, `agB`:
channel B agrees on the signature of each copy. -/
def State.readCopies (s : State) (agA agB : Bool) : State × Bool :=
  let seqOf := fun c => if s.on Reg.FL_INFO.PRESENT then some (leVal (s.flashRead (copyBase c + 8) 4)) else none
  let rA := s.checkCopy 0 agA
  let rB := s.checkCopy 1 agB
  let s1 := (s.showCheck 0 (seqOf 0) rA).showCheck 1 (seqOf 1) rB
  let note := fun (s : State) (c : Nat) (r : Option Rej) => match r with
    | some x => s.log Src.configuration Ev.IMAGE_COPY_INVALID (c + 256 * x.reason)
        (s.word (if c = 0 then Reg.IMG_SEQ_A else Reg.IMG_SEQ_B))
    | none => s
  let s2 := note (note s1 0 rA) 1 rB
  match rA, rB with
  | none, none => (s2.imageApply (b2n (newer ((seqOf 1).getD 0) ((seqOf 0).getD 0))), true)
  | none, some _ => (s2.imageApply 0, true)
  | some _, none => (s2.imageApply 1, true)
  | some _, some _ => (s2.imageClear, false)

/-! ### The write session (R379, R380) -/

/-- IMG_STAT.PHASE codes. -/
def imgIdle : Nat := 0
def imgErasing : Nat := 1
def imgOpen : Nat := 2
def imgChecking : Nat := 3

/-- IMG_STAT.PHASE. -/
def State.imgPhase (s : State) : Nat := s.get Reg.IMG_STAT.PHASE

/-- The session ends with a STATUS (1 ACCEPTED, 2 REJECTED, 3 ABORTED); nothing where there is none. -/
def State.imgEnd (s : State) (status : Nat) : State :=
  if s.imgPhase = imgIdle then s
  else
    let s1 := ((s.set Reg.IMG_STAT.PHASE imgIdle).set Reg.IMG_STAT.STATUS status).set Reg.IMG_STAT.BUSY 0
    { s1 with imgSess := { (default : ImgSess) with ofsBad := s.imgSess.ofsBad } }

/-- An image write out of order (R380). -/
def State.imgSeqErr (s : State) : State := s.flag Reg.IMG_STAT.SEQ_ERR

/-- The copy a session writes: the one not in use; copy A with no copy in use (R379). -/
def State.imgTarget (s : State) : Nat :=
  match s.img.seq with
  | some _ => 1 - s.get Reg.DEV_STATE.IMAGE_COPY
  | none => 0

/-- IMG_CTRL.BEGIN (R379, R380): a session under way is aborted, a new one erases the target, its first sector first. -/
def State.imgBegin (s : State) : State :=
  let s1 := s.imgEnd 3
  let c := s1.imgTarget
  ((s1.set Reg.IMG_STAT.TARGET c).set Reg.IMG_STAT.PHASE imgErasing).flashErase (copyBase c) 0x10000

/-- A write of IMG_OFS (R380). -/
def State.imgOfs (s : State) (v : Nat) : State :=
  if imgMax ≤ v ∨ v % 4 ≠ 0 then { s with imgSess := { s.imgSess with ofsBad := true } }.imgSeqErr
  else { s with imgSess := { s.imgSess with ofsBad := false } }.setWord Reg.IMG_OFS v

/-- Bytes into the header buffer from offset `o`. -/
def hdrPut (t : Tbl Nat) (o : Nat) (l : List Nat) : Tbl Nat :=
  (l.foldl (fun (x : Tbl Nat × Nat) b => (tput 0xFF x.1 x.2 b, x.2 + 1)) (t, o)).1

/-- A write of IMG_DATA (R379, R380): into the header buffer below 0x100, else into the flash, once for each word of a session. -/
def State.imgData (s : State) (v : Nat) : State :=
  let o := s.word Reg.IMG_OFS
  let x := s.imgSess
  if s.imgPhase ≠ imgOpen ∨ x.ofsBad ∨ imgMax ≤ o then s.imgSeqErr
  else if o < 0x100 then
    { s with imgSess := { x with hdr := hdrPut x.hdr o (leBytes 4 v) } }.setWord Reg.IMG_OFS (o + 4)
  else if tget false x.done o then s.imgSeqErr
  else
    let s1 := { s with imgSess := { x with done := tput false x.done o true } }.setWord Reg.IMG_OFS (o + 4)
    if s.flashPending then
      { s1 with imgSess := { s1.imgSess with waiting := s1.imgSess.waiting ++ [(o, v)] } }.set Reg.IMG_STAT.BUSY 1
    else s1.flashProgram (copyBase (s.get Reg.IMG_STAT.TARGET) + o) (leBytes 4 v)

/-- Image programming that waited goes on once no other flash write is pending (R380). -/
def State.imgResume (s : State) : State :=
  if s.flashPending then s
  else
    let s1 := forEach s.imgSess.waiting
      (fun s e => s.flashProgram (copyBase (s.get Reg.IMG_STAT.TARGET) + e.1) (leBytes 4 e.2)) s
    { s1 with imgSess := { s1.imgSess with waiting := [] } }.set Reg.IMG_STAT.BUSY 0

/-- The header buffer as 256 bytes. -/
def ImgSess.header (x : ImgSess) : List Nat := (List.range 256).map fun i => tget 0xFF x.hdr i

/-- IMG_CTRL.COMMIT (R379): SEQ of the copy in use plus 1, or 1, and HDR_CRC go into the header buffer; the check begins. -/
def State.imgCommit (s : State) : State :=
  if s.imgPhase ≠ imgOpen then s.imgSeqErr
  else
    let seq := match s.img.seq with
      | some q => (q + 1) % 2 ^ 32
      | none => 1
    let h := s.imgSess.header
    let h1 := h.take 8 ++ leBytes 4 seq ++ (h.drop 12).take 240
    let h2 := h1 ++ leBytes 4 (crc32c h1)
    { s with imgSess := { s.imgSess with hdr := hdrPut [] 0 h2 } }.set
      Reg.IMG_STAT.PHASE imgChecking

/-- The check of a committed copy ends (R379): a pass writes the header and logs IMAGE_WRITTEN; a failure leaves it unwritten and logs
IMAGE_REJECTED with the reason. -/
def State.imgCheckDone (s : State) : State :=
  if s.imgPhase ≠ imgChecking ∨ s.on Reg.IMG_STAT.BUSY then s
  else
    let c := s.get Reg.IMG_STAT.TARGET
    let h := s.imgSess.header
    let n := imgLength h
    let raw := h ++ (if n ≤ imgMax then s.flashRead (copyBase c + 256) (n - 256) else [])
    let r := if s.flashOk then checkImage raw else some ⟨1, 0, 0⟩
    let s1 := s.showCheck c (some (leAt h 8 4)) r
    match r with
    | some x =>
      ((s1.set Reg.IMG_STAT.REASON x.reason).imgEnd 2).log Src.configuration Ev.IMAGE_REJECTED (c + 256 * x.reason) x.ofs
    | none =>
      (((s1.set Reg.IMG_STAT.REASON 0).flashProgram (copyBase c) h).imgEnd 1).log Src.configuration Ev.IMAGE_WRITTEN c (leAt h 8 4)

/-- The device enters a state: outside REDUCED, AUTOMATIC, UNCONFIGURED and SAFE_HOLD a session is aborted (R380). -/
def State.imgLeave (s : State) (st : Nat) : State :=
  if st = devReduced ∨ st = devAutomatic ∨ st = devUnconfigured ∨ st = devSafeHold then s else s.imgEnd 3

/-! ### Commands -/

/-- IMG_BEGIN. -/
def execImgBegin (t : Time) (s : State) : Out :=
  byHost t s Reg.IMG_CTRL 1 State.imgBegin
/-- IMAGE_ERASE_DONE: the whole target is erased and the session is OPEN (R379). -/
def execImageEraseDone (t : Time) (s : State) : Out := live t s fun s =>
  if s.imgPhase ≠ imgErasing then s
  else (s.flashErase (copyBase (s.get Reg.IMG_STAT.TARGET)) imgMax).set Reg.IMG_STAT.PHASE imgOpen
/-- IMG_OFS_WRITE. -/
def State.wImgOfsWrite (s : State) (v : Word) : State := s.imgOfs v.toNat
/-- IMG_OFS_WRITE. -/
def execImgOfsWrite (t : Time) (v : Word) (s : State) : Out :=
  byHost t s Reg.IMG_OFS v.toNat (fun s => s.wImgOfsWrite v)
/-- IMG_DATA_WRITE. -/
def State.wImgDataWrite (s : State) (v : Word) : State := s.imgData v.toNat
/-- IMG_DATA_WRITE. -/
def execImgDataWrite (t : Time) (v : Word) (s : State) : Out :=
  byHost t s Reg.IMG_DATA v.toNat (fun s => s.wImgDataWrite v)
/-- IMG_COMMIT. -/
def execImgCommit (t : Time) (s : State) : Out :=
  byHost t s Reg.IMG_CTRL 2 State.imgCommit
/-- IMAGE_CHECK_DONE. -/
def execImageCheckDone (t : Time) (s : State) : Out := live t s State.imgCheckDone
/-- IMG_ABORT. -/
def State.wImgAbort (s : State) : State := s.imgEnd 3
/-- IMG_ABORT. -/
def execImgAbort (t : Time) (s : State) : Out :=
  byHost t s Reg.IMG_CTRL 4 State.wImgAbort
/-- FL_DATA_READ. -/
def execFlDataRead (t : Time) (s : State) : Out := live t s fun s => let r := s.flData; { r.2 with out := [r.1] }
/-- MIRROR_ENTRY_WRITE: the flash write of entry `i` completes (R224, R380). -/
def execMirrorEntryWrite (t : Time) (i : Fin 4096) (s : State) : Out := live t s fun s =>
  if s.mirrorBusy.contains i.val then { s with mirrorBusy := s.mirrorBusy.filter (· != i.val) }.imgResume else s

end Sys2Proof.Machine
end

