-- ==== Sys2Proof/Machine/Repair.lean ====
section
/-! DEFINITION. Life-cycle states (R385, R386), the elements and groups of the self-test (R390), repair (R393), the repair record
(R388, R395), the rotating test (R396, R397) and direct access (R398). -/

namespace Sys2Proof.Machine

/-! ### Life-cycle (R385, R386) -/

/-- LC_STATE.STATE codes. -/
def lcBlank : Nat := 0
def lcManufacture : Nat := 1
def lcCommission : Nat := 2
def lcProduction : Nat := 3
def lcService : Nat := 4
def lcRetired : Nat := 5

/-- The life-cycle state. -/
def State.lifecycle (s : State) : Nat := s.nvm.lifecycle

/-- The shutdown self-test runs in this life-cycle state (R385). -/
def State.lcTests (s : State) : Bool :=
  s.lifecycle == lcCommission || s.lifecycle == lcProduction || s.lifecycle == lcService

/-! ### Elements, groups and maps (R390, R395) -/

/-- The groups of the self-test: number, elements, steps of 50 ms (R390). -/
def testGroups : List (Nat × List Nat × Nat) :=
  [ (1, List.range 9, 18), (2, (List.range 9).map (9 + ·), 18), (3, (List.range 18).map (32 + ·), 8)
  , (4, (List.range 36).map (64 + ·), 10), (5, (List.range 36).map (100 + ·), 10), (6, (List.range 32).map (144 + ·), 16)
  , (7, [176], 18), (8, [177], 18), (9, (List.range 8).map (192 + ·), 4) ]

/-- Every element of the device. -/
def allElements : List Nat := testGroups.flatMap fun g => g.2.1

/-- The kind of an element: 0 planning core, 1 loop engine, 2 pipeline, 3 SRAM bank, 4 DRAM stack, 5 any other. -/
def elemKind (e : Nat) : Nat :=
  if e < 18 then 0 else if e < 50 then 1 else if e < 136 then 2 else if e < 176 then 3 else if e < 178 then 4 else 5

/-- The first element of a kind that has spares, and its number of physical units. -/
def kindBase (k : Nat) : Nat := if k = 0 then 0 else if k = 1 then 32 else 64
def kindCount (k : Nat) : Nat := if k = 2 then 72 else 18

/-- The map of a kind. -/
def RepMap.of (m : RepMap) (k : Nat) : List Nat := if k = 0 then m.cores else if k = 1 then m.engs else m.pipes
/-- Change the map of a kind. -/
def RepMap.put (m : RepMap) (k : Nat) (l : List Nat) : RepMap :=
  if k = 0 then { m with cores := l } else if k = 1 then { m with engs := l } else { m with pipes := l }

/-- The STATE of an element (R395): 0 good, 1 failed and covered, 2 failed and uncovered. -/
def RepRec.state (r : RepRec) (e : Nat) : Nat := bits (tget 0 r.elems e) 0 2
/-- The UNTESTED count of an element (R389). -/
def RepRec.untested (r : RepRec) (e : Nat) : Nat := bits (tget 0 r.elems e) 4 4
/-- Set an element's state. -/
def RepRec.mark (r : RepRec) (e st : Nat) : RepRec := { r with elems := tput 0 r.elems e (setBits (tget 0 r.elems e) 0 2 st) }
/-- Set an element's UNTESTED count. -/
def RepRec.setUntested (r : RepRec) (e n : Nat) : RepRec := { r with elems := tput 0 r.elems e (setBits (tget 0 r.elems e) 4 4 n) }
/-- An element was not reached: its count increases by 1, saturating at 8 (R389). -/
def RepRec.notTested (r : RepRec) (e : Nat) : RepRec := r.setUntested e (min 8 (r.untested e + 1))

/-- An uncovered failure stands in the record. -/
def RepRec.uncovered (r : RepRec) : List Nat := allElements.filter fun e => r.state e == 2

/-- The free spares of a kind by a map: physical units that stand nowhere and have not failed (R393), lowest first. -/
def RepSt.free (r : RepSt) (k : Nat) (inMap : List Nat) : List Nat :=
  (List.range (kindCount k)).filter fun p =>
    !inMap.contains p && r.rcd.state (kindBase k + p) == 0 && !r.factoryFailed.contains (kindBase k + p)

/-- Spare rows of an SRAM bank or a DRAM stack, and how many of them have been used (R393): rows are given out in ascending order. -/
def spareRows (e : Nat) : Nat := if elemKind e = 3 then 16 else 256
def RepRec.rowsUsed (r : RepRec) (e : Nat) : Nat := r.rows.foldl (fun m x => if x.1 = e then max m (x.2.1 + 1) else m) 0

/-- Map a failing row onto its own spare row; a row already mapped, whose spare row fails in its turn, onto a further one (R393). -/
def RepRec.mapRow (r : RepRec) (e row : Nat) : RepRec :=
  let n := r.rowsUsed e
  if r.rows.any fun x => x.1 == e && x.2.2 == row then
    { r with rows := r.rows.map fun x => if x.1 = e ∧ x.2.2 = row then (e, n, row) else x }
  else { r with rows := r.rows ++ [(e, n, row)] }

/-- Change what the repair state holds. -/
def State.modRep (s : State) (f : RepSt → RepSt) : State := { s with rep := f s.rep }
/-- Change the repair record. -/
def State.modRec (s : State) (f : RepRec → RepRec) : State := s.modRep fun r => { r with rcd := f r.rcd }

/-- REP_STAT, REP_SEQ and LC_STATE follow the record (R400). -/
def State.showRepair (s : State) : State :=
  let r := s.rep
  let left := fun (es : List Nat) (n : Nat) => es.foldl (fun m e => min m (n - min n (r.rcd.rowsUsed e))) n
  let s1 := ((s.set Reg.REP_STAT.CORES (r.free 0 r.rcd.map.cores).length).set Reg.REP_STAT.ENGINES (r.free 1 r.rcd.map.engs).length).set
    Reg.REP_STAT.PIPES (r.free 2 r.rcd.map.pipes).length
  let s2 := (s1.set Reg.REP_STAT.SRAM_MIN (left ((List.range 32).map (144 + ·)) 16)).set Reg.REP_STAT.DRAM_MIN (left [176, 177] 256)
  (s2.setWord Reg.REP_SEQ (if s.on Reg.REP_STAT.VALID then r.rcd.seq else 0)).set Reg.LC_STATE.STATE s.lifecycle

/-- EL_STAT of the element in EL_SEL (R400): the substitute is the unit that now stands at the position the failed element held at
shipping; a rotation shows it too. -/
def State.elStat (s : State) : Nat :=
  let e := s.get Reg.EL_SEL.ELEMENT
  let r := s.rep
  let k := elemKind e
  let map := if k = 1 ∧ s.get Reg.ROT_STAT.PHASE ≠ 0 then (List.range 16).map fun i => s.get (Reg.LE_STAT.PHYS i) else r.rcd.map.of k
  let sub := if 3 ≤ k ∨ r.rcd.state e = 0 then 0xFF
    else match (List.range (r.factory.of k).length).find? fun l => (r.factory.of k).getD l 0xFF == e - kindBase k with
      | some l => if map.getD l 0 = e - kindBase k then 0xFF else kindBase k + map.getD l 0
      | none => 0xFF
  (if allElements.contains e then 4096 * r.rcd.untested e + 256 * r.rcd.state e else 256 * 3) + sub

/-! ### Failures and repair (R393) -/

/-- An element fails step `step` of a test of `path` (R393): BIST_FAIL, then the repair and its record; the mapping takes effect at the
next POWER_UP. `rows`: the failing rows of an SRAM bank or a DRAM stack. -/
def State.elementFails (s : State) (path e step : Nat) (rows : List Nat) : State :=
  let s0 := (s.log Src.repair Ev.BIST_FAIL (e + 256 * path) step).addSat Reg.ST_STAT.FAILS 1
  let r := s0.rep
  let k := elemKind e
  let gone := fun (s : State) => (s.modRec fun x => x.mark e 2).log Src.repair Ev.SPARES_EXHAUSTED e 0
  let s1 :=
    if k ≤ 2 then
      let m := r.rcd.map.of k
      let p := e - kindBase k
      if r.rcd.state e ≠ 0 ∨ r.factoryFailed.contains e then s0
      else if m.contains p then
        match r.free k m with
        | q :: _ =>
          (s0.modRec fun x => ({ x with map := x.map.put k (m.map fun y => if y = p then q else y) } : RepRec).mark e 1).log
            Src.repair Ev.REPAIR_APPLIED (e + 256 * path) (kindBase k + q)
        | [] => gone s0
      else s0.modRec fun x => x.mark e 1
    else if k ≤ 4 then
      if r.rcd.rowsUsed e + rows.length ≤ spareRows e then
        (s0.modRec fun x => rows.foldl (fun x row => x.mapRow e row) x).log
          Src.repair Ev.REPAIR_APPLIED (e + 256 * path) rows.length
      else gone (s0.modRec fun x => (rows.take (spareRows e - r.rcd.rowsUsed e)).foldl (fun x row => x.mapRow e row) x)
    else if r.rcd.state e = 2 then s0 else gone s0
  s1.showRepair

/-! ### Test runs (R389, R390, R398) -/

/-- ST_STAT follows the run. -/
def State.showRun (s : State) : State :=
  match s.rep.run with
  | some x =>
    match x.groups with
    | g :: _ => ((s.set Reg.ST_STAT.PHASE 1).set Reg.ST_STAT.GROUP g.1).set Reg.ST_STAT.ELEMENT (g.2.1.foldl min 255)
    | [] => (s.set Reg.ST_STAT.GROUP 0).set Reg.ST_STAT.ELEMENT 0
  | none => ((s.set Reg.ST_STAT.GROUP 0).set Reg.ST_STAT.ELEMENT 0).set Reg.ST_STAT.CARRIED 0

/-- Start a run over the given elements, group by group (R390). -/
def State.startRun (s : State) (path : Nat) (es : List Nat) (full : Bool) : State :=
  let gs := (testGroups.map fun g => (g.1, g.2.1.filter es.contains, g.2.2)).filter fun g => !g.2.1.isEmpty
  let x : TestRun := ⟨path, gs, 0, s.now, es.length, gs.length, full, false⟩
  let s1 := s.modRep fun r => { r with run := some x }
  ((s1.set Reg.ST_STAT.FAILS 0).setB Reg.ST_STAT.CARRIED (path == 1 && !full)).showRun

/-- A step of the group in progress ends (R390, R393): failures are found and repaired; at the group's last step its elements count as
tested and the next group begins. A direct test changes no record (R398). -/
def State.runStep (s : State) (fails : List (Nat × List Nat)) : State :=
  match s.rep.run with
  | none => s
  | some x =>
    match x.groups with
    | [] => s
    | g :: rest =>
      let n := x.step + 1
      let bad := fails.filter fun f => g.2.1.contains f.1
      let s1 := forEach bad (fun s f =>
        if x.path = 3 then (s.log Src.repair Ev.BIST_FAIL (f.1 + 256 * 3) n).addSat Reg.ST_STAT.FAILS 1
        else s.elementFails x.path f.1 n f.2) s
      let done := decide (g.2.2 ≤ n) || (x.path == 3 && !bad.isEmpty)
      let x1 := { x with since := x.since + 50000000, step := if done then 0 else n, groups := if done then rest else x.groups }
      let s2 := s1.modRep fun r => { r with run := some x1 }
      let s3 := if done ∧ x.path ≠ 3 then s2.modRec fun r => g.2.1.foldl (fun r e => r.setUntested e 0) r else s2
      s3.showRun

/-- The elements of a run that it has not finished. -/
def TestRun.left (x : TestRun) : List Nat := x.groups.flatMap fun g => g.2.1

/-- A run is abandoned (R392): TEST_ABANDONED; what it did not reach counts as untested (R389). -/
def State.abandonRun (s : State) : State :=
  match s.rep.run with
  | none => s
  | some x =>
    let s1 := s.log Src.repair Ev.TEST_ABANDONED x.left.length ((x.groups.map (·.1)).headD 0)
    (s1.modRep fun r => { r with run := none, carried := true, rcd := x.left.foldl (fun r e => r.notTested e) r.rcd }).showRun

/-! ### The repair record in the flash (R370, R388, R395) -/

/-- Address of a record copy: 0 A, 1 B (R370). -/
def repairBase (c : Nat) : Nat := 0x04000000 + 0x10000 * c

/-- The bytes of a record (R395). -/
def RepRec.bytes (r : RepRec) : List Nat :=
  let elem := (List.range 256).map fun e => if allElements.contains e then tget 0 r.elems e else 3
  let rows := r.rows.flatMap fun x => [x.1, 0] ++ leBytes 2 x.2.1 ++ leBytes 4 x.2.2
  let b := leBytes 4 0x5252514B ++ leBytes 2 1 ++ leBytes 2 (0x178 + 8 * r.rows.length) ++ leBytes 4 r.seq ++ [r.origin, 0, 0, 0] ++
    r.map.cores ++ r.map.engs ++ r.map.pipes ++ elem ++ leBytes 2 r.rows.length ++ [0, 0] ++ rows
  b ++ leBytes 4 (crc32c b)

/-- The record that bytes spell, where MAGIC, FORMAT, LENGTH and CRC hold (R388, R395). -/
def repRec? (b : List Nat) : Option RepRec :=
  let n := leAt b 0x170 2
  let len := leAt b 6 2
  if leAt b 0 4 = 0x5252514B ∧ leAt b 4 2 = 1 ∧ len = 0x178 + 8 * n ∧ n ≤ 1024 ∧ crc32c (b.take (len - 4)) = leAt b (len - 4) 4 then
    some
      { seq := leAt b 8 4, origin := leAt b 0x0C 1
        map := ⟨(b.drop 0x10).take 16, (b.drop 0x20).take 16, (b.drop 0x30).take 64⟩
        elems := allElements.foldl (fun t e => tput 0 t e (leAt b (0x70 + e) 1)) []
        rows := (List.range n).map fun j => (leAt b (0x174 + 8 * j) 1, leAt b (0x176 + 8 * j) 2, leAt b (0x178 + 8 * j) 4) }
  else none

/-- The bytes of a record copy: its head, and what LENGTH covers. -/
def State.recordBytes (s : State) (c : Nat) : List Nat :=
  if s.on Reg.FL_INFO.PRESENT then s.flashRead (repairBase c) (max 0x178 (leVal (s.flashRead (repairBase c + 6) 2))) else []

/-- Write a new record (R388): SEQ + 1, into copy `c`, which becomes the copy in use. -/
def State.writeRecord (s : State) (origin c : Nat) : State :=
  let s1 := s.modRec fun r => { r with seq := (r.seq + 1) % 2 ^ 32, origin := origin }
  let s2 := if s.on Reg.FL_INFO.PRESENT then
      (((s1.flashErase (repairBase c) 0x10000).flashProgram (repairBase c) s1.rep.rcd.bytes).set Reg.REP_STAT.COPY c).set Reg.REP_STAT.VALID 1
    else s1
  s2.showRepair

/-- The copy a new record goes to: the one not in use; copy A with none in use (R388). -/
def State.recordTarget (s : State) : Nat := if s.on Reg.REP_STAT.VALID then 1 - s.get Reg.REP_STAT.COPY else 0

/-- Step 2 of R387: the repair record is read (R388), counts increase after a run without a shutdown test (R389), or the results carried
over a warm start apply (R392). Gives whether both copies are invalid and nothing was carried. -/
def State.readRecord (s : State) : State × Bool :=
  let a := repRec? (s.recordBytes 0)
  let b := repRec? (s.recordBytes 1)
  let bad := fun (s : State) (c : Nat) =>
    s.log Src.repair Ev.REPAIR_RECORD_INVALID c (if s.on Reg.FL_INFO.PRESENT then leVal (s.flashRead (repairBase c + 8) 4) else 0)
  let s1 := if a.isSome ∧ b.isNone then bad s 1 else if a.isNone ∧ b.isSome then bad s 0 else s
  let use : Option (Nat × RepRec) := match a, b with
    | some x, some y => if newer y.seq x.seq then some (1, y) else some (0, x)
    | some x, none => some (0, x)
    | none, some y => some (1, y)
    | none, none => none
  let s2 := match use with
    | some u => (s1.set Reg.REP_STAT.VALID 1).set Reg.REP_STAT.COPY u.1
    | none => (s1.set Reg.REP_STAT.VALID 0).set Reg.REP_STAT.COPY 0
  let seq := use.elim 0 (·.2.seq)
  if s.rep.carried then ((s2.modRep fun r => { r with carried := false, rcd := { r.rcd with seq := seq } }).showRepair, false)
  else
    let r := match use with
      | some u => if u.2.origin = 2 then allElements.foldl (fun r e => r.notTested e) u.2 else u.2
      | none => ⟨0, 0, s.rep.factory, [], []⟩
    ((s2.modRep fun x => { x with rcd := r }).showRepair, use.isNone)

/-- The mapping of the record takes effect at POWER_UP (R387): logical cores, engines, pipelines; windows 16 and 17 show the engines out
of service (R116). -/
def State.applyMap (s : State) : State :=
  let m := s.rep.rcd.map
  let out := (List.range 18).filter fun p => !m.engs.contains p
  let s1 := forN 16 (fun s c => (s.set (Reg.CORE_STAT.PHYS c) (m.cores.getD c c)).set (Reg.LE_STAT.PHYS c) (m.engs.getD c c)) s
  let s2 := forN 2 (fun s j => s.set (Reg.LE_STAT.PHYS (16 + j)) (out.getD j 0)) s1
  let spares := s.rep.free 2 m.pipes
  ({ s2 with sep := { s2.sep with pipes := m.pipes, spares := spares, entering := [] } }.set Reg.SEP_STAT.PIPES
    m.pipes.length).set Reg.SEP_STAT.SPARES_FREE spares.length

/-! ### The rotating test (R396, R397) -/

/-- ROT_STAT.PHASE codes. -/
def rotIdle : Nat := 0
def rotCopying : Nat := 1
def rotTesting : Nat := 2
def rotReturning : Nat := 3

/-- The physical engines at the logical positions now. -/
def State.enginesNow (s : State) : List Nat := (List.range 16).map fun e => s.get (Reg.LE_STAT.PHYS e)

/-- Free physical engines that passed their last test, lowest first. -/
def State.freeEngines (s : State) : List Nat := s.rep.free 1 s.enginesNow

/-- A free spare engine serves a recomputation: one not under test, nor the spare of a rotation in its copy (R312, R397). -/
def State.verdictEngine (s : State) : Bool :=
  let ph := s.get Reg.ROT_STAT.PHASE
  s.freeEngines.any fun p =>
    !(ph == rotTesting && !s.rep.rotPaused && p == s.rep.rotFrom) && !(ph == rotCopying && p == s.get Reg.ROT_STAT.SPARE)

/-- Windows 16 and 17 show the engines out of service, in ascending number (R116). -/
def State.showOut (s : State) : State :=
  let out := (List.range 18).filter fun p => !s.enginesNow.contains p
  forN 2 (fun s j => s.set (Reg.LE_STAT.PHYS (16 + j)) (out.getD j 0)) s

/-- A rotation ends; `done` counts it. The next one takes the next logical engine. -/
def State.rotEnd (s : State) (done : Bool) : State :=
  let e := s.get Reg.ROT_STAT.ENGINE
  let s1 := (s.set Reg.ROT_STAT.PHASE rotIdle).modRep fun r => { r with rotMove := false, rotPaused := false, rotNext := (e + 1) % 16 }
  if done then s1.addMod Reg.ROT_COUNT.COUNT 1 else s1

/-- A rotation is abandoned: the logical engine stays where it stands (R397). -/
def State.rotAbandon (s : State) : State := if s.get Reg.ROT_STAT.PHASE = rotIdle then s else s.rotEnd false

/-- The transfer engines of the rotation's two engines are not isolated (R397). -/
def State.rotPathOk (s : State) : Bool :=
  !s.isolated (18 + s.rep.rotFrom) && !s.isolated (18 + s.get Reg.ROT_STAT.SPARE)

/-- At a servo boundary (R396): a logical engine whose copy has ended moves (R93); a move back ends the rotation. -/
def State.rotBoundary (s : State) : State :=
  if !s.rep.rotMove then s
  else
    let e := s.get Reg.ROT_STAT.ENGINE
    if !s.rotPathOk then s.rotAbandon
    else if s.get Reg.ROT_STAT.PHASE = rotCopying then
      ((((s.set (Reg.LE_STAT.PHYS e) (s.get Reg.ROT_STAT.SPARE)).set Reg.ROT_STAT.PHASE rotTesting).set Reg.ROT_STAT.UNDER_TEST
        s.rep.rotFrom).modRep fun r => { r with rotMove := false, rotTest := s.now }).showOut
    else ((s.set (Reg.LE_STAT.PHYS e) s.rep.rotFrom).showOut).rotEnd true

/-- A divergence that finds no free spare while an engine is under test takes that engine (R397): ROT_SUSPENDED with cause 1; once OUTCOME
has been sent the test restarts from its first step. -/
def State.rotDivergence (s : State) : State :=
  if s.get Reg.ROT_STAT.PHASE ≠ rotTesting then s
  else if s.dpx.diverged.isSome ∧ !s.rep.rotPaused ∧ !s.verdictEngine then
    (s.modRep fun r => { r with rotPaused := true }).log Src.repair Ev.ROT_SUSPENDED (s.get Reg.ROT_STAT.ENGINE) 1
  else if s.dpx.diverged.isNone ∧ s.rep.rotPaused then s.modRep fun r => { r with rotPaused := false, rotTest := s.now }
  else s

/-- ROTATION_START (R396): every ROT_CFG.PERIOD in COMMISSION and PRODUCTION, in REDUCED and AUTOMATIC, with ROT_CFG.EN. -/
def execRotationStart (t : Time) (s : State) : Out := live t s fun s =>
  let st := s.devState
  if !s.on Reg.ROT_CFG.EN || !(s.lifecycle == lcCommission || s.lifecycle == lcProduction) ||
      !(st == devReduced || st == devAutomatic) || s.get Reg.ROT_STAT.PHASE != rotIdle ||
      decide (s.now < s.rep.rotAt + s.get Reg.ROT_CFG.PERIOD * 1000000000) then s
  else
    let e := s.rep.rotNext
    let s1 := s.modRep fun r => { r with rotAt := s.now }
    match s.freeEngines with
    | [] =>
      let s2 := s1.set Reg.ROT_STAT.SUSPENDED 1
      if s.on Reg.ROT_STAT.SUSPENDED then s2 else s2.log Src.repair Ev.ROT_SUSPENDED e 0
    | p :: _ =>
      ((((s1.set Reg.ROT_STAT.SUSPENDED 0).set Reg.ROT_STAT.ENGINE e).set Reg.ROT_STAT.SPARE p).set Reg.ROT_STAT.PHASE rotCopying).modRep
        fun r => { r with rotFrom := s.get (Reg.LE_STAT.PHYS e), rotMove := false }

/-- ROTATION_COPY_DONE (R396): the copy ends; the move follows at the next servo boundary. -/
def execRotationCopyDone (t : Time) (s : State) : Out := live t s fun s =>
  let ph := s.get Reg.ROT_STAT.PHASE
  if ph = rotCopying ∨ ph = rotReturning then
    if s.rotPathOk then s.modRep fun r => { r with rotMove := true } else s.rotAbandon
  else s

/-- ROTATION_TEST_DONE (R396): the 40 ms test of the former engine ends in a pass, and the axes return, or in a failure at step `step`,
and the logical engine stays on the spare. -/
def execRotationTestDone (t : Time) (pass : Bool) (step : Byte) (s : State) : Out := live t s fun s =>
  if s.get Reg.ROT_STAT.PHASE ≠ rotTesting ∨ s.rep.rotPaused ∨ (pass ∧ s.now < s.rep.rotTest + 40000000) then s
  else
    let e := s.get Reg.ROT_STAT.ENGINE
    let el := 32 + s.rep.rotFrom
    let sp := s.get Reg.ROT_STAT.SPARE
    if pass then (s.modRec fun r => r.setUntested el 0).set Reg.ROT_STAT.PHASE rotReturning
    else
      let s1 := s.log Src.repair Ev.BIST_FAIL (el + 512) step.toNat
      let s2 := s1.modRec fun r => ({ r with map := { r.map with engs := r.map.engs.set e sp } } : RepRec).mark el 1
      let s3 := (s2.modRep fun r => { r with due := r.due ++ [3] }).log Src.repair Ev.REPAIR_APPLIED (el + 512) (32 + sp)
      (s3.rotEnd true).showRepair

/-! ### Direct access (R398) -/

/-- BIST_STAT shows a status under a tag, with the element's consecutive passes. -/
def State.bistStat (s : State) (tag e status : Nat) : State :=
  ((s.set Reg.BIST_STAT.TAG tag).set Reg.BIST_STAT.STATUS status).set Reg.BIST_STAT.CONSEC_PASS (satU 8 (tget 0 s.rep.passes e))

/-- An element out of service: a free spare, or marked failed (R398). -/
def State.outOfService (s : State) (e : Nat) : Bool :=
  s.rep.rcd.state e != 0 ||
  (decide (elemKind e ≤ 2) &&
    !(if elemKind e = 0 then (List.range 16).map fun c => s.get (Reg.CORE_STAT.PHYS c)
      else if elemKind e = 1 then s.enginesNow else s.sep.pipes).contains (e - kindBase (elemKind e)))

/-- BIST_CTRL.RUN (R398). -/
def State.bistRun (s : State) (tag e : Nat) : State :=
  let lc := s.lifecycle == lcManufacture || s.lifecycle == lcService
  let st := s.devState
  if !lc || !allElements.contains e || s.rep.run.isSome || !(st == devUnconfigured || st == devSafeHold || s.outOfService e) then
    s.bistStat tag e 4
  else (s.startRun 3 [e] false).bistStat tag e 1

/-- BIST_CTRL.RESTORE (R398): an element marked failed that passed 3 times in a row is good again. -/
def State.bistRestore (s : State) (tag e : Nat) : State :=
  let lc := s.lifecycle == lcManufacture || s.lifecycle == lcService
  if lc ∧ s.rep.run.isNone ∧ allElements.contains e ∧ s.rep.rcd.state e ≠ 0 ∧ 3 ≤ tget 0 s.rep.passes e then
    let s1 := (s.modRec fun r => r.mark e 0).modRep fun r => { r with due := r.due ++ [4] }
    ((s1.log Src.repair Ev.REPAIR_APPLIED (e + 256 * 3) 0).showRepair).bistStat tag e 5
  else s.bistStat tag e 4

/-- A direct test has ended (R398): the element's passes and BIST_STAT. -/
def State.directEnd (s : State) (e : Nat) (pass : Bool) : State :=
  let s1 := s.modRep fun r => { r with run := none, passes := tput 0 r.passes e (if pass then tget 0 r.passes e + 1 else 0) }
  ((s1.bistStat (s.get Reg.BIST_STAT.TAG) e (if pass then 2 else 3)).set Reg.ST_STAT.PHASE 0).showRun

/-- BIST_RUN. -/
def State.wBistRun (s : State) (tag : BitVec 16) (e : Byte) : State := s.bistRun tag.toNat e.toNat
/-- BIST_RUN. -/
def execBistRun (t : Time) (tag : BitVec 16) (e : Byte) (s : State) : Out :=
  byHost t s Reg.BIST_CTRL (65536 * tag.toNat + 256 + e.toNat) (fun s => s.wBistRun tag e)
/-- BIST_RESTORE. -/
def State.wBistRestore (s : State) (tag : BitVec 16) (e : Byte) : State := s.bistRestore tag.toNat e.toNat
/-- BIST_RESTORE. -/
def execBistRestore (t : Time) (tag : BitVec 16) (e : Byte) (s : State) : Out :=
  byHost t s Reg.BIST_CTRL (65536 * tag.toNat + 512 + e.toNat) (fun s => s.wBistRestore tag e)

/-- A write of LC_CTRL (R386): the rows of the table, and STATUS 1 not allowed, 2 strap low, 3 an axis not OFF. -/
def State.lcWrite (s : State) (tag target : Nat) (svc : Bool) : State :=
  let f := s.lifecycle
  let known := (f == lcBlank && target == lcManufacture) || (f == lcManufacture && target == lcCommission) ||
    (f == lcCommission && target == lcProduction) || (f == lcProduction && target == lcService) ||
    (f == lcService && target == lcProduction) ||
    ((f == lcCommission || f == lcProduction || f == lcService) && target == lcRetired)
  let strap := !(f == lcCommission && target == lcProduction)
  let off := decide (2 ≤ f)
  let status := if !known then 1 else if strap && !svc then 2 else if off && !s.allOff then 3 else 0
  let s1 := ((s.set Reg.LC_RESULT.TAG tag).set Reg.LC_RESULT.STATUS status).setB Reg.LC_STATE.SVC_MODE svc
  if status ≠ 0 then s1
  else
    let s2 := { s1 with nvm := { s1.nvm with lifecycle := target } }.log Src.repair Ev.LIFECYCLE_CHANGED f target
    let s3 := if f = lcManufacture then s2.modRep fun r => { r with locked := true } else s2
    s3.rotAbandon.showRepair

/-- LC_CTRL_WRITE: TAG, TARGET and the SVC_MODE strap as it stands at the write. -/
def State.wLcCtrlWrite (s : State) (tag : BitVec 16) (target : Fin 8) (svc : Bool) : State := s.lcWrite tag.toNat target.val svc
/-- LC_CTRL_WRITE. -/
def execLcCtrlWrite (t : Time) (tag : BitVec 16) (target : Fin 8) (svc : Bool) (s : State) : Out :=
  byHost t s Reg.LC_CTRL (65536 * tag.toNat + target.val) (fun s => s.wLcCtrlWrite tag target svc)

/-- REPAIR_RECORD_WRITE (R388): a record that waits is written into the copy not in use and read back, after the flash writes that go
first. -/
def execRepairRecordWrite (t : Time) (s : State) : Out := live t s fun s =>
  match s.rep.due with
  | o :: rest => if s.flashPending then s else (s.writeRecord o s.recordTarget).modRep fun r => { r with due := rest }
  | [] => s

end Sys2Proof.Machine
end

