-- ==== Sys2Proof/Machine/Laws.lean ====
section
/-! DEFINITION. Axis control laws: coefficient queue and banks (R96, R102–R104), band unit and bank switch (R97–R101), the mailbox
words that the controller writes (R137, R138), imports (R110), deadlines and overruns (R105–R107). -/

namespace Sys2Proof.Machine

/-- The trace unit of engine `e`. -/
def State.trace (s : State) (e : Nat) : TraceSt := tget default s.traces e
/-- Change the trace unit of engine `e`. -/
def State.modTrace (s : State) (e : Nat) (f : TraceSt → TraceSt) : State := { s with traces := tput default s.traces e (f (s.trace e)) }

/-- The physical number of logical engine `e`, by which it is named as a source (R93). -/
def State.engineSrc (s : State) (e : Nat) : Nat := Src.engine (s.get (Reg.LE_STAT.PHYS e))

/-- A word of the data space of engine `e` (R117). -/
def State.leWord (s : State) (e a : Nat) : Nat := (tget 0 s.lemem (262144 * e + a)).toNat
/-- Set a word of the data space of engine `e`. -/
def State.putLe (s : State) (e a w : Nat) : State := { s with lemem := tput 0 s.lemem (262144 * e + a) (BitVec.ofNat 32 w) }

/-- The key of a coefficient (R96). -/
def coefKey (e sl bank i : Nat) : Nat := 64 * (2 * (24 * e + sl) + bank) + i
/-- A coefficient word (R96). -/
def State.coef (s : State) (e sl bank i : Nat) : Nat := (tget 0 s.coefs (coefKey e sl bank i)).toNat

/-- The axis of slot `sl` of engine `e`, where the slot holds one (R116). -/
def State.slotAxis? (s : State) (e sl : Nat) : Option Nat :=
  if sl < 24 ∧ s.on (Reg.LAW_AXIS.VALID e sl) then some (s.get (Reg.LAW_AXIS.AXIS e sl)) else none

/-- A coefficient of the bank in use as a task reads it (R118, R149): in quiet mode the coefficients 0–3 have their FRAC multiplied by
QUIET_GAIN / 65 536, truncated towards minus infinity. -/
def State.windowCoef (s : State) (e sl bank i : Nat) (quiet : Bool) : Nat :=
  let w := s.coef e sl bank i
  match s.slotAxis? e sl with
  | some a =>
    if i < 4 ∧ quiet then
      setBits w 0 24 (ux 24 (sx 24 (bits w 0 24) * (s.get (Reg.QS_CFG.QUIET_GAIN a) : Int) / 65536))
    else w
  | none => w

/-- A coefficient as LAW_COEF_READ returns it, as the law reads it now (R116, R149): EXP and FRAC. -/
def State.lawCoef (s : State) (e sl bank i : Nat) : Nat :=
  let quiet := match s.slotAxis? e sl with
    | some a => decide (bank = s.get (Reg.LAW_STAT.BANK e sl)) && !(s.axis a).strong
    | none => false
  s.windowCoef e sl bank i quiet % 2 ^ 28

/-- The mode of axis `a` in force for the computations of ring cycle `n` (R146, R148). -/
def State.strongIn (s : State) (a n : Nat) : Bool := if n < (s.axis a).modeFrom then !(s.axis a).strong else (s.axis a).strong

/-- The occupied axis slots of engine `e`. -/
def State.slotsOf (s : State) (e : Nat) : List (Nat × Nat) :=
  (List.range 24).filterMap fun sl => (s.slotAxis? e sl).map fun a => (sl, a)

/-! ### Bank switch (R99, R100, R103) -/

/-- LAW_STAT.SWITCH_PENDING shows whether a switch of the slot awaits its servo boundary. -/
def State.syncPending (s : State) (e sl : Nat) : State :=
  s.setB (Reg.LAW_STAT.SWITCH_PENDING e sl) (!(s.slot e sl).forced.isEmpty || (s.slot e sl).auto.isSome)

/-- A bank switch takes effect (R100): the bank in use, the count, BANK_SWITCH with its kind and FERR. -/
def State.switchBank (s : State) (e sl bank forced ferr : Nat) : State :=
  let a := s.get (Reg.LAW_AXIS.AXIS e sl)
  let s1 := (s.set (Reg.LAW_STAT.BANK e sl) bank).addMod (Reg.BAND_SWITCHES.COUNT e sl) 1
  let s2 := s1.modTrace e fun x => { x with switched := x.switched ++ [sl] }
  s2.log (Src.axis a) Ev.BANK_SWITCH (bank + 2 * forced) ferr

/-- A forced switch of slot `sl` to a bank takes effect (R99, R103). -/
def State.forceBank (s : State) (e sl b : Nat) : State :=
  let s1 := (s.set (Reg.LAW_STAT.BAND e sl) (if b = 0 then 0 else 2)).set (Reg.BAND_COUNT.DWELL_CNT e sl) 0
  (s1.set (Reg.BAND_COUNT.OUT_CNT e sl) 0).switchBank e sl b 1 (s.word (Reg.FERR e sl))

/-- The switch of slot `sl` at a servo boundary (R99, R100, R103): the forced ones, in order, which discard an automatic one, or an
automatic one. -/
def State.takeSwitch (s : State) (e sl : Nat) : State :=
  let x := s.slot e sl
  let s1 := s.modSlot e sl fun y => { y with forced := [], auto := none }
  match x.forced, x.auto with
  | [], some (b, f) => (s1.switchBank e sl b 0 f).syncPending e sl
  | [], none => s
  | l, _ => (forEach l (fun s b => s.forceBank e sl b) s1).syncPending e sl

/-- Writes of the band registers that wait take effect at a servo boundary, or are ignored with BAND_REFUSED (R101). -/
def State.takeBandWrites (s : State) (e sl : Nat) : State :=
  if (s.slot e sl).bandWrites.isEmpty then s
  else forEach (s.slot e sl).bandWrites (fun s w =>
    let s1 := s.setWord w.1 w.2
    if s1.word (Reg.BAND_OUTER e sl) ≤ s1.word (Reg.BAND_INNER e sl) ∨ s1.get (Reg.BAND_CFG.N_OUT e sl) = 0 ∨
        s1.get (Reg.BAND_CFG.DWELL e sl) = 0 then s.flag (Reg.LAW_STAT.BAND_REFUSED e sl)
    else s1) (s.modSlot e sl fun x => { x with bandWrites := [] })

/-! ### The coefficient queue (R102–R104) -/

/-- The coefficient queue of engine `e`. -/
def State.coefQueue (s : State) (e : Nat) : List CoefEntry := tget [] s.coefQ e
/-- Replace the coefficient queue of engine `e`; COEF_FREE shows the free entries. -/
def State.putQueue (s : State) (e : Nat) (l : List CoefEntry) : State :=
  { s with coefQ := tput [] s.coefQ e l }.set (Reg.LE_STAT.COEF_FREE e) (32 - l.length)

/-- An entry is offered to the queue of engine `e`: queued, or dropped with COEF_OVF or COEF_BAD and COEF_DROPPED with `word` (R102). -/
def State.offer (s : State) (e : Nat) (x : CoefEntry) (word : Nat) : State :=
  if 32 ≤ (s.coefQueue e).length then (s.flag (Reg.LE_STAT.COEF_OVF e)).log (s.engineSrc e) Ev.COEF_DROPPED word 1
  else if (s.slotAxis? e x.slot).isNone then (s.flag (Reg.LE_STAT.COEF_BAD e)).log (s.engineSrc e) Ev.COEF_DROPPED word 2
  else s.putQueue e (s.coefQueue e ++ [x])

/-- A live write (R104): counted where the coefficient lands in the bank in use. -/
def State.liveWrite (s : State) (e : Nat) (x : CoefEntry) : State :=
  if s.get (Reg.LAW_STAT.BANK e x.slot) = x.bank then
    (s.flag (Reg.LAW_STAT.LIVE_WRITE e x.slot)).tally (Reg.LAW_STAT.LIVE_WRITES e x.slot) 1
  else s

/-- COEF_QUEUE_TAKE and BANK_SWITCH of engine `e` at a ring-cycle start (R101–R103): one entry, then the band writes and the switches of a
servo boundary, then the judgement of a live write. -/
def State.coefCycle (s : State) (e : Nat) : State :=
  let switches := fun (s : State) => if s.servo then forN 24 (fun s sl => (s.takeBandWrites e sl).takeSwitch e sl) s else s
  match s.coefQueue e with
  | [] => switches s
  | x :: rest =>
    let s1 := s.putQueue e rest
    match x.force with
    | some b => switches ((s1.modSlot e x.slot fun y => { y with forced := y.forced ++ [b] }).syncPending e x.slot)
    | none =>
      let s2 := { s1 with coefs := tput 0 s1.coefs (coefKey e x.slot x.bank x.index) (BitVec.ofNat 32 x.word) }
      (switches s2).liveWrite e x

/-! ### The following error and the band states (R98, R99) -/

/-- The following error of axis `a` in whole and fractional counts [31:16], [15:0], and in axis position format (R98). -/
def State.followError (s : State) (a : Nat) : Int :=
  let e := s.countsOf a (s.setpt a).x - s.pos a
  let r := (s.get (Reg.FB_CPR.CPR a) : Int) * 16777216
  if r = 0 then e else (e + r / 2) % r - r / 2

/-- One sample of the band unit (R99) with |e| = `m`, in axis position format. -/
def State.bandStep (s : State) (e sl m : Nat) : State :=
  let outer := 256 * s.word (Reg.BAND_OUTER e sl)
  let inner := 256 * s.word (Reg.BAND_INNER e sl)
  let nout := s.get (Reg.BAND_CFG.N_OUT e sl)
  let dwell := s.get (Reg.BAND_CFG.DWELL e sl)
  let out := s.get (Reg.BAND_COUNT.OUT_CNT e sl)
  let dw := s.get (Reg.BAND_COUNT.DWELL_CNT e sl)
  let ferr := s.word (Reg.FERR e sl)
  let toBand := fun (s : State) (st o d : Nat) =>
    ((s.set (Reg.LAW_STAT.BAND e sl) st).set (Reg.BAND_COUNT.OUT_CNT e sl) o).set (Reg.BAND_COUNT.DWELL_CNT e sl) d
  let sw := fun (s : State) (b : Nat) => (s.modSlot e sl fun x => { x with auto := some (b, ferr) }).syncPending e sl
  match s.get (Reg.LAW_STAT.BAND e sl) with
  | 0 => if m ≤ outer then s else if nout ≤ 1 then sw (toBand s 2 0 dw) 1 else toBand s 1 1 dw
  | 1 => if m ≤ outer then toBand s 0 0 dw else if nout ≤ out + 1 then sw (toBand s 2 0 dw) 1 else toBand s 1 (out + 1) dw
  | 2 => if inner < m then s else if dwell ≤ 1 then sw (toBand s 0 out 0) 0 else toBand s 3 out 1
  | _ => if inner < m then toBand s 2 out 0 else if dwell ≤ dw + 1 then sw (toBand s 0 out 0) 0 else toBand s 3 out (dw + 1)

/-- The band unit forms the following error of axis `a` (R98). -/
def State.formsError (s : State) (a : Nat) : Bool :=
  s.axState a == axBrakeRelease || s.axState a == axEnabled || s.axState a == axDisabling

/-- BAND_SAMPLE of axis `a` in slot `sl` of engine `e` (R98, R99). FERR shows the error rounded down to its 16 fraction bits: R98 names no
rounding (DESIGN CHOICE 15). The band state machine compares the error itself. -/
def State.bandSample (s : State) (e sl a : Nat) : State :=
  if s.formsError a then
    let x := s.followError a
    let s1 := s.setWord (Reg.FERR e sl) (ux 32 (satS 32 (x / 256)))
    if s.axState a = axBrakeRelease ∨ s1.on (Reg.BAND_CFG.MODE e sl) then s1 else s1.bandStep e sl x.natAbs
  else s

/-! ### Mailbox words (R137, R138) -/

/-- The 24-bit word of a fraction (R137): where 24 bits hold it, that word; between two words one of them (R137 states no rounding); a free
value outside the format. -/
def fracWord (r : Rat) : Nat :=
  let x := r * 8388608
  let c := (Config.toFrac r).toNat
  if x < -8388608 ∨ 8388608 ≤ x then c
  else if x.den ≠ 1 ∧ x.floor < 8388607 ∧ c = ux 24 (x.floor + 1) then c
  else ux 24 x.floor

/-- As `fracWord`, saturated. -/
def fracSat (r : Rat) : Nat := if r < -1 then 0x800000 else if 8388607 / 8388608 < r then 0x7FFFFF else fracWord r

/-- The fraction `v / base`, 0 without a base. -/
def perUnit (v : Rat) (base : Nat) : Nat := if f32 base = 0 then 0 else fracWord (v / f32 base)

/-- As `perUnit`, saturated (R137, E_X). -/
def perUnitSat (v : Rat) (base : Nat) : Nat :=
  fracSat (if f32 base = 0 then 0 else v / f32 base)

/-- The LAWDECL of a slot (R375). -/
def Img.law? (g : Img) (e sl : Nat) : Option LawDecl := g.laws.find? fun d => d.engine == e && d.slot == sl

/-- The address of mailbox word `o` of slot `sl` (R137). -/
def mboxAddr (sl o : Nat) : Nat := 0x10000 + 0x40 * sl + o

/-- Write a list of mailbox words of a slot: offset, word. -/
def State.putMbox (s : State) (e sl : Nat) (l : List (Nat × Nat)) : State :=
  forEach l (fun s w => s.putLe e (mboxAddr sl w.1) w.2) s

/-- A position in axis position format as three words: [63:48] sign-extended, [47:24], [23:0] (R137). -/
def posWords (o : Nat) (p : Int) : List (Nat × Nat) :=
  let w := ux 64 p
  [(o, ux 32 (sx 16 (w / 2 ^ 48))), (o + 1, bits w 24 24), (o + 2, bits w 0 24)]

/-- The electrical angle of axis `a` (R137): from the position, the pole pairs and the commutation offset. -/
def State.thetaE (s : State) (a : Nat) : Nat :=
  match s.img.axis? a with
  | some d =>
    if d.encCpr = 0 then 0
    else
      let r : Rat := (s.upos a : Rat) / 16777216 * d.polePairs / d.encCpr + (bits d.commOfs 8 24 : Rat) / 16777216
      let x := (r - r.floor) * 16777216
      let c := (Config.toFrac (r - r.floor)).toNat
      if x.den ≠ 1 ∧ c = (x.floor.toNat + 1) % 2 ^ 24 then c else x.floor.toNat
  | none => 0

/-- The uplink words of an accepted response (R137). -/
def State.mboxUplink (s : State) (e sl a : Nat) (u : Uplink) : State :=
  match s.img.law? e sl with
  | none => s
  | some d =>
    let kind := s.get (Reg.AX_CFG.KIND a)
    let cur := fun (i : Int) => perUnit ((i : Rat) / 32768 * s.identF32 a 0x14) d.iBase
    let status := 1 + 2 * b2n u.pollBad + 8 * kind + 64 * (u.status % 2 ^ 18)
    s.putMbox e sl ([(0, status), (1, cur u.ia), (2, if kind = 2 then 0 else cur u.ib), (3, if kind = 0 then cur u.ic else 0),
      (4, perUnit ((u.udc : Rat) / 65536 * s.identF32 a 0x18) d.uBase), (5, s.thetaE a), (11, ux 24 u.temp)]
      ++ posWords 8 (s.pos a))

/-- The speed and error words of a servo sample (R137): E_X with FERR; OMEGA and OMEGA_E hold where no response was accepted (`stale`). -/
def State.mboxSample (s : State) (e sl a : Nat) (stale : Bool) : State :=
  match s.img.law? e sl with
  | none => s
  | some d =>
    let w := (s.fb a).est.omega
    let s1 := if stale then s else s.putMbox e sl [(6, perUnit w d.wBase), (7, (Config.omegaE a w).toNat)]
    if s.formsError a then s1.putMbox e sl [(0x10, perUnitSat ((s.followError a : Rat) / 16777216) d.pBase)] else s1

/-- The setpoint words at a ring-cycle start (R13, R137, R152): x*, v*, τ* at a servo boundary, SET_FLAGS and I_LIM in every cycle. -/
def State.mboxSet (s : State) (e sl a : Nat) : State :=
  match s.img.law? e sl with
  | none => s
  | some d =>
    let p := s.setpt a
    let st := s.axState a
    let k := s.scaleOf a
    let flags := b2n s.servo + 2 * b2n (st == axEnabled) + 4 * b2n (st == axDisabling)
    let s1 := s.putMbox e sl [(0x13, flags), (12, perUnit (f32 (s.word (Reg.I_LIM a))) d.iBase)]
    if s.servo then
      s1.putMbox e sl ([(0x11, perUnit (if k = 0 then 0 else p.v / k) d.wBase), (0x12, perUnit p.tau d.iBase)]
        ++ posWords 0x14 (s.countsOf a p.x))
    else s1

/-- No response was accepted for a slot (R126, R137): STALE, the uplink words keep their values. -/
def State.mboxStale (s : State) (e sl a : Nat) : State :=
  s.putLe e (mboxAddr sl 0) (setBits (setBits (s.leWord e (mboxAddr sl 0)) 0 3 4) 3 3 (s.get (Reg.AX_CFG.KIND a)))

/-- The slot's uplink of ring cycle `n` counts as present (R105, R126). -/
def State.noteArrival (s : State) (e sl n : Nat) : State :=
  s.modEng e fun x => if x.arrived.contains (sl, n) then x else { x with arrived := x.arrived ++ [(sl, n)] }

/-- cf of engine `e` (R120): EXT, SHED, SEP, SRV. -/
def State.cycleFlags (s : State) (e : Nat) (ext : Bool) : Nat :=
  16 * b2n ext + 4 * s.get (Reg.LE_STAT.SHED e) + 2 * b2n s.sepCycle + b2n s.servo

/-- IMPORT_FILL of engine `e` (R110, R138): the declared uplink words of the previous ring cycle; an axis that did not report in it
keeps its value and is marked stale. -/
def State.importFill (s : State) (e : Nat) : State :=
  match s.img.imports.find? fun d => d.engine == e with
  | none => s
  | some d =>
    let stale := fun (s : State) (i : Nat) (b : Bool) =>
      let ad := 0x13020 + i / 24
      s.putLe e ad (withBit (s.leWord e ad) (i % 24) b)
    (List.range 32).foldl (fun s i =>
      let w := d.words.getD i 0
      if !bitAt w 31 then s
      else
        match s.lawSlot (bits w 0 8) with
        | none => stale s i true
        | some (e2, sl2) =>
          if bitAt (s.leWord e2 (mboxAddr sl2 0)) 0 then
            stale (s.putLe e (0x13000 + i) (s.leWord e2 (mboxAddr sl2 (bits w 8 5)))) i false
          else stale s i true) s

/-- The extension tasks of engine `e` are shed from this ring cycle on (R106): none runs, none stays ready. -/
def LeSt.stopExt (x : LeSt) : LeSt := { x with ext := { x.ext with task := none }, onExt := false, extReady := [] }

/-- What engine `e` starts a ring cycle with, its imports filled (R105, R106, R126, R137, R138): VALID cleared, the engine words, the
setpoint words, the load of the last cycle, a RESTORE that waits, the shedding. -/
def State.engineCycle (s : State) (e : Nat) : State :=
  let x := s.eng e
  let s2 := forEach (s.slotsOf e) (fun s p =>
    (s.putLe e (mboxAddr p.1 0) (setBits (s.leWord e (mboxAddr p.1 0)) 0 1 0)).mboxSet e p.1 p.2) s
  let c := s.dev.cycle.toNat
  let s3 := if x.reqRestore ∧ s2.on (Reg.LE_STAT.SHED e) then
      ((s2.set (Reg.LE_STAT.SHED e) 0).log (s.engineSrc e) Ev.EXT_RESTORED e 0).modTrace e fun y => { y with gap := true }
    else s2
  let s4 := (s3.putLe e 0x10600 (c % 2 ^ 24)).putLe e 0x10601 (c / 2 ^ 24 % 2 ^ 24)
  let s5 := (s4.set (Reg.LE_LOAD.LAST e) (satU 16 x.cycles)).set (Reg.LE_LOAD.PEAK e) (max (s4.get (Reg.LE_LOAD.PEAK e)) (satU 16 x.cycles))
  s5.modEng e fun y =>
    let z := { y with cycles := 0, reqRestore := false, shed := s5.on (Reg.LE_STAT.SHED e) }
    if z.shed then z.stopExt else z

/-! ### Deadlines and overruns (R105–R107) -/

/-- The ring cycle whose tasks are late after the deadline of axis `a` that now passes, plus 1: the deadline of slot 0 lies in the ring
cycle itself, 40 ns before its end, every other in the next one (R105). -/
def State.lawDue (s : State) (a : Nat) : Nat := s.dev.cycle.toNat + b2n (s.get (Reg.AX_CFG.SLOT a) == 0)

/-- An axis has overrun (R106, R107): counts, OVERRUN, shedding at the first overrun of the engine, then by the count. -/
def State.overrun (s : State) (e sl a : Nat) : State :=
  let n := satInc 4 (s.get (Reg.LAW_STAT.CONSEC e sl))
  let s1 := (s.set (Reg.LAW_STAT.CONSEC e sl) n).addSat (Reg.LE_OVR.COUNT e) 1
  let s2 := s1.addSat (Reg.LAW_OVR.COUNT e sl) 1
  let srv := (s.lawDue a + 3) % 4 = 0
  let used := if s.lawDue a = s.dev.cycle.toNat then s.get (Reg.LE_LOAD.LAST e) else satU 16 (s.eng e).cycles
  let s3 := s2.log (Src.axis a) Ev.OVERRUN (n + 256 * b2n srv) used
  let s4 := s3.modTrace e fun x => { x with overran := true }
  let s5 := if s4.on (Reg.LE_STAT.SHED e) then s4
    else (s4.set (Reg.LE_STAT.SHED e) 1).log (s.engineSrc e) Ev.EXT_SHED e a
  if n = 2 then
    match s.img.islandOf? a with
    | some i => s5.ss1 i
    | none => s5.askDisable a
  else if n = 4 then s5.takeFault a 4
  else s5

/-- The instant at which the deadline of axis `a` passes in the present ring cycle, in ns (R14, R105): 200 ns before its slot starts in
the next ring cycle. -/
def State.deadlineAt (s : State) (a : Nat) : Nat :=
  let k := s.get (Reg.AX_CFG.SLOT a)
  if k = 0 then s.dev.nextCycle - 40 else s.dev.cycleTsc + 480 * k - 40

/-- The deadline of slot `sl` of engine `e` passes now (R14, R105, R110): the engine serves the ring of the slot's axis, the instant has
come, and the deadline of this ring cycle has not passed before. -/
def State.deadlineNow (s : State) (e sl a : Nat) : Bool :=
  s.dev.begun && s.get (Reg.LE_CFG.RING e) == s.ringOf a && decide (s.deadlineAt a ≤ s.now) && decide ((s.slot e sl).due < s.lawDue a)

/-- A commit that came in time is taken at the deadline (R106, R107, R144–R146, R157). -/
def State.takeCommit (s : State) (e sl a : Nat) (d : Nat × Nat × Nat) : State :=
  let s1 := s.set (Reg.LAW_STAT.CONSEC e sl) 0
  let s2 := if s1.get (Reg.AX_CFG.KIND a) = 1 then s1.stallCheck a d.2.2 else s1
  (s2.modAxis a fun y => { y with duties := dutyBlock (s1.get (Reg.AX_CFG.KIND a)) d }).sendBlock a (s1.driveBlock a d false)

/-- The recomputation record of axis `a` takes the drive block that ring cycle `n` has made (R312). -/
def State.noteBlock (s : State) (a n : Nat) : State :=
  if !s.inPair then s
  else { s with dpx := { s.dpx with recomp := tput [] s.dpx.recomp a ((tget [] s.dpx.recomp a).map fun r =>
    if r.cycle = n then { r with block := some (s.axis a).block } else r) } }

/-- DOWNLINK_DEADLINE (R105–R107, R144–R146): the ring master reads the committed downlink of slot `sl` of engine `e`; an axis without
one has overrun and its poll carries held duties. -/
def execDownlinkDeadline (t : Time) (e : Fin 16) (sl : Fin 24) (s : State) : Out :=
  live t s fun s =>
    match s.slotAxis? e.val sl.val with
    | none => s
    | some a =>
      if s.deadlineNow e.val sl.val a then
        let nodes := (List.range 14).map fun i => s.leWord e.val (mboxAddr sl.val (0x30 + i))
        let s1 := s.modSlot e.val sl.val fun y => { y with
          sent := none, due := s.lawDue a, consecWas := s.get (Reg.LAW_STAT.CONSEC e.val sl.val), nodes := nodes }
        (match (s.slot e.val sl.val).sent with
          | some d => s1.takeCommit e.val sl.val a d
          | none =>
            let s2 := s1.overrun e.val sl.val a
            s2.sendBlock a (s2.driveBlock a (0, 0, 0) true)).noteBlock a (s.lawDue a - 1)
      else s

/-! ### Meanings of the other commands of chapter 05 -/

/-- LE_RESTORE (R106): the shed extension tasks run again from the next ring-cycle start. -/
def State.wLeRestore (s : State) (e : Fin 16) : State :=
  if s.on (Reg.LE_STAT.SHED e.val) then s.modEng e.val fun x => { x with reqRestore := true } else s
/-- LE_RESTORE. -/
def execLeRestore (t : Time) (e : Fin 16) (s : State) : Out :=
  byHost t s (Reg.LE_CTRL e.val) 1 (fun s => s.wLeRestore e)

/-- LE_CLR_PEAK (R116). -/
def State.wLeClrPeak (s : State) (e : Fin 16) : State := s.set (Reg.LE_LOAD.PEAK e.val) 0
/-- LE_CLR_PEAK. -/
def execLeClrPeak (t : Time) (e : Fin 16) (s : State) : Out :=
  byHost t s (Reg.LE_CTRL e.val) 2 (fun s => s.wLeClrPeak e)

/-- LAW_COEF_DATA_WRITE (R102): the coefficient is queued for the slot, bank and index that LAW_COEF_SEL names. -/
def State.wLawCoefDataWrite (s : State) (e : Fin 16) (v : Word) : State :=
  s.offer e.val ⟨none, s.get (Reg.LAW_COEF_SEL.SLOT e.val), s.get (Reg.LAW_COEF_SEL.BANK e.val),
    s.get (Reg.LAW_COEF_SEL.INDEX e.val), v.toNat % 2 ^ 28⟩ (s.word (Reg.LAW_COEF_SEL e.val))
/-- LAW_COEF_DATA_WRITE. -/
def execLawCoefDataWrite (t : Time) (e : Fin 16) (v : Word) (s : State) : Out :=
  byHost t s (Reg.LAW_COEF_DATA e.val) v.toNat (fun s => s.wLawCoefDataWrite e v)

/-- LAW_SWITCH_FORCE_A (R103): a forced switch of the slot to bank A is queued. -/
def State.wLawSwitchForceA (s : State) (e : Fin 16) (sl : Fin 32) : State :=
  s.offer e.val ⟨some 0, sl.val, 0, 0, 0⟩ (65536 * sl.val + 1)
/-- LAW_SWITCH_FORCE_A. -/
def execLawSwitchForceA (t : Time) (e : Fin 16) (sl : Fin 32) (s : State) : Out :=
  byHost t s (Reg.LAW_SWITCH e.val) (65536 * sl.val + 1) (fun s => s.wLawSwitchForceA e sl)

/-- LAW_SWITCH_FORCE_B (R103): a forced switch of the slot to bank B is queued. -/
def State.wLawSwitchForceB (s : State) (e : Fin 16) (sl : Fin 32) : State :=
  s.offer e.val ⟨some 1, sl.val, 0, 0, 0⟩ (65536 * sl.val + 2)
/-- LAW_SWITCH_FORCE_B. -/
def execLawSwitchForceB (t : Time) (e : Fin 16) (sl : Fin 32) (s : State) : Out :=
  byHost t s (Reg.LAW_SWITCH e.val) (65536 * sl.val + 2) (fun s => s.wLawSwitchForceB e sl)

/-- The band registers of a slot by number (R101): OUTER, INNER, CFG. -/
def bandAddr (e sl : Nat) (r : Fin 3) : Nat := [Reg.BAND_OUTER e sl, Reg.BAND_INNER e sl, Reg.BAND_CFG e sl].getD r.val 0

/-- BAND_WRITE (R101): the write waits for the next servo boundary. -/
def State.wBandWrite (s : State) (e : Fin 16) (sl : Fin 24) (r : Fin 3) (v : Word) : State :=
  let w := if r.val = 2 then Nat.land v.toNat 0xFFFFFF01 else v.toNat
  s.modSlot e.val sl.val fun x => { x with bandWrites := x.bandWrites ++ [(bandAddr e.val sl.val r, w)] }
/-- BAND_WRITE. -/
def execBandWrite (t : Time) (e : Fin 16) (sl : Fin 24) (r : Fin 3) (v : Word) (s : State) : Out :=
  byHost t s (bandAddr e.val sl.val r) v.toNat (fun s => s.wBandWrite e sl r v)

/-- LIVE_WRITE_CLEAR (R104): the flag and the count become 0; what is counted at the same instant stays (R7). -/
def State.wLiveWriteClear (s : State) (e : Fin 16) (sl : Fin 24) : State :=
  (s.clearFld (Reg.LAW_STAT.LIVE_WRITE e.val sl.val)).clearFld (Reg.LAW_STAT.LIVE_WRITES e.val sl.val)
/-- LIVE_WRITE_CLEAR. -/
def execLiveWriteClear (t : Time) (e : Fin 16) (sl : Fin 24) (s : State) : Out :=
  byHost t s (Reg.LAW_STAT e.val sl.val) 65536 (fun s => s.wLiveWriteClear e sl)

/-- LE_CLR_COUNT (R142). -/
def State.wLeClrCount (s : State) (e : Fin 16) : State := s.set (Reg.LE_FAULT.COUNT e.val) 0
/-- LE_CLR_COUNT. -/
def execLeClrCount (t : Time) (e : Fin 16) (s : State) : Out :=
  byHost t s (Reg.LE_PCTRL e.val) 1 (fun s => s.wLeClrCount e)

/-- LE_MEM_DATA_WRITE (R142): a word is stored into X or Y memory at LE_MEM_ADDR; ignored for every other area. -/
def State.wLeMemDataWrite (s : State) (e : Fin 16) (v : Word) : State :=
  let a := s.get (Reg.LE_MEM_ADDR.ADDR e.val)
  if a < 65536 then s.putLe e.val a v.toNat else s
/-- LE_MEM_DATA_WRITE. -/
def execLeMemDataWrite (t : Time) (e : Fin 16) (v : Word) (s : State) : Out :=
  byHost t s (Reg.LE_MEM_DATA e.val) v.toNat (fun s => s.wLeMemDataWrite e v)

end Sys2Proof.Machine
end

