-- ==== Sys2Proof/Machine/RingRx.lean ====
section
/-! DEFINITION. What the ring master accepts (R194, R198): responses in and outside their windows, missing slots, and what an accepted
response of each kind gives. -/

namespace Sys2Proof.Machine

/-- C_P of a port (`b`: SPk_B) in ring cycle `c`; none where the port accepts no response (R198). -/
def RingCyc.delay (c : RingCyc) (b : Bool) : Option Nat := if b then c.cB else c.cA

/-- The expected start of the response of slot `i` on a port (R198). -/
def RingCyc.expected (c : RingCyc) (b : Bool) (i : Nat) : Option Nat := (c.delay b).map fun d => slotStart c i + d + 208

/-- The instant by which the windows of slot `i` have closed on every port (R198). -/
def RingCyc.closeAt (c : RingCyc) (i : Nat) : Nat :=
  match c.expected false i, c.expected true i with
  | some x, some y => max x y + 272
  | some x, none => x + 272
  | none, some y => y + 272
  | none, none => slotStart c i + 12480

/-- The sent slots of a ring cycle. -/
def RingCyc.sent (c : RingCyc) : List Nat := (List.range 32).filter fun i => entKind (c.table.getD i 0) != 0

/-- The fields of an axis response (R194). -/
def parseUplink (f : List Nat) : Uplink :=
  { pollBad := bitAt (leAt f 1 1) 5, status := leAt f 4 3 % 2 ^ 18
    ia := sx 16 (leAt f 8 2), ib := sx 16 (leAt f 10 2), ic := sx 16 (leAt f 12 2), udc := leAt f 14 2
    pos := leAt f 16 5, idx := leAt f 21 4, edgeT := leAt f 25 4, edgeIv := leAt f 29 4
    idxNew := bitAt (leAt f 33 1) 0, temp := sx 16 (leAt f 34 2), inp := leAt f 36 2 }

/-- Change the ring cycle of ring `k` whose number is `n`: the present or the one before. -/
def State.modCyc (s : State) (k n : Nat) (f : RingCyc → RingCyc) : State :=
  s.modRing k fun r =>
    { r with cur := r.cur.map fun c => if c.cycle = n then f c else c, prev := r.prev.map fun c => if c.cycle = n then f c else c }

/-- What the servo samples take of an axis once its uplink of a servo ring cycle is in, or missing, at its sample instant `T` (R148, R169, R98, R137). -/
def State.servoSamples (s : State) (a T : Nat) (stale : Bool) : State :=
  let s1 := (s.fbSpeed a T).qsSample a
  match s1.lawSlot a with
  | some p => (s1.bandSample p.1 p.2 a).mboxSample p.1 p.2 a stale
  | none => s1

/-- No uplink of axis `a` was accepted in ring cycle `n` (R126, R137, R164, R169): the position holds, its slot's mailbox is STALE and counts as
present, and the samples of a servo cycle are taken of what is held, at sample instant `T`. -/
def State.noUplink (s : State) (a n T : Nat) : State :=
  let s1 := s.fbMiss a
  let s2 := match s1.lawSlot a with
    | some p => (s1.mboxStale p.1 p.2 a).noteArrival p.1 p.2 n
    | none => s1
  if n % 4 = 0 then s2.servoSamples a T true else s2

/-- The node of a response accepted on a port in ring cycle `c` shows POLL_BAD, its loop-back and its origin; after a change of origin its path
delay is an estimate (R194, R209, R213). On an unbroken ring a response arrives on the port opposite its node's acting port (R197). -/
def State.noteLoop (s : State) (k n : Nat) (b : Bool) (c : RingCyc) (f : List Nat) : State :=
  let r := s.ring k
  let s0 := if bitAt (leAt f 1 1) 5 then s.addSat (Reg.NODE_CNT.POLL_BAD k n) 1 else s
  let s1 := (s0.setB (Reg.NODE_INFO.LOOPED k n) (bitAt (leAt f 1 1) 6)).modNode k n fun x => { x with loopLink := bitAt (leAt f 1 1) 7 }
  let o := b2n (r.both && (if c.thru then !b else b))
  if s.get (Reg.NODE_INFO.ORIGIN k n) = o ∨ s.get (Reg.RING_CFG.TOPOLOGY k) ≠ 0 ∨ s.isNode then s1
  else
    let s2 := s1.set (Reg.NODE_INFO.ORIGIN k n) o
    match r.loop with
    | some l => (s2.set (Reg.NODE_DELAY.DELAY k n) (satU 16 (l - s.get (Reg.NODE_DELAY.DELAY k n)))).set (Reg.NODE_DELAY.ESTIMATED k n) 1
    | none => s2

/-- The sample instant of slot `i` of ring cycle `c` at node `n` (R197). -/
def State.sampleInstant (s : State) (k i n : Nat) (c : RingCyc) : Nat := c.start + s.get (Reg.NODE_DELAY.DELAY k n) + 160 + 480 * i

/-- An accepted axis response of slot `i` of ring cycle `c` (R14, R164, R194, R198, R215): the axis position, the mailbox, the tap, the
cartridge's fault bit. -/
def State.acceptAxis (s : State) (k i a n : Nat) (c : RingCyc) (f : List Nat) : State :=
  let u := parseUplink f
  let at' := s.sampleInstant k i n c
  let s2 := (s.modAxis a fun x => { x with uplink := some u, uplinkAt := s.now, fresh := true }).fbAccept a u at'
  let s3 := match s2.lawSlot a with
    | some p => (s2.mboxUplink p.1 p.2 a u).noteArrival p.1 p.2 c.cycle
    | none => s2
  let s4 := if c.cycle % 4 = 0 then s3.servoSamples a at' false else s3
  let s5 := s4.tapValue a (u.pos % 2 ^ s4.img.sbits.getD a 32)
  if bitAt u.status 3 then s5.axisFault a 2 else s5

/-- A response in the window of slot `i` whose CRC and agreement hold (R198). -/
def State.acceptSlot (s : State) (k : Nat) (b : Bool) (i : Nat) (c : RingCyc) (f : List Nat) : State :=
  let w := c.table.getD i 0
  let n := leAt f 1 1 % 32
  let s0 := s.modCyc k c.cycle fun c => { c with accepted := c.accepted ++ [i] }
  let s1 := if n < 25 then s0.noteLoop k n b c f else s0
  match entKind w with
  | 1 => s1.acceptAxis k i (entAxis w) n c f
  | 2 => s1.svcAnswer k c.cycle f
  | 3 => if leAt f 4 1 = 0 then s1.modCyc k c.cycle fun c => { c with claims := c.claims ++ [(i, leAt f 8 8, leAt f 16 2)] } else s1
  | 5 =>
    let offered := (s.ring k).offers.any fun o => o.1 == i && o.2.1 == leAt f 8 8
    if leAt f 4 1 = 1 && offered then s1.modCyc k c.cycle fun c => { c with confirms := c.confirms ++ [i] } else s1
  | _ => s1

/-- The node whose response slot `i` of ring cycle `c` expects; none where it expects none. -/
def State.slotNode (s : State) (k i : Nat) (c : RingCyc) : Option Nat :=
  let w := c.table.getD i 0
  match entKind w with
  | 1 => if c.expect.contains i then some (entNode w) else none
  | 2 => if s.carriesTxn k i c then (s.ring k).txn.map fun x => x.node else none
  | 3 | 5 => some (entNode w)
  | 4 => if s.get Reg.DPX_STAT.ROLE = 1 then some 24 else none
  | _ => none

/-- SLOT, KIND, NODE and CYC16 of a response agree with the entry and the cycle (R198); ENUM, ASSIGN and PROBE name no node that the master
could compare (`any`, DEDUCED 22). -/
def agrees (f : List Nat) (i kind node : Nat) (any : Bool) (c : RingCyc) : Bool :=
  leAt f 0 1 == i + 32 * kind && (any || leAt f 1 1 % 32 == node) && leAt f 2 2 == c.cycle % 65536

/-- The transaction in the SERVICE slots is ENUM, ASSIGN or PROBE. -/
def State.anyNode (s : State) (k kind : Nat) : Bool :=
  kind == 2 && match (s.ring k).txn with
    | some x => x.op == 3 || x.op == 4 || x.op == 5
    | none => false

/-- The nearest of candidates: distance, ring cycle, slot. -/
def nearest : List (Nat × RingCyc × Nat) → Option (RingCyc × Nat)
  | [] => none
  | x :: rest => some (rest.foldl (fun b y => if y.1 < b.1 then y else b) x).2

/-- The slot that a response arriving now on a port belongs to: the one whose expected start is nearest (R198). In a ring cycle without C_P
on the port, only a response within a window of the ring cycle before belongs to one. -/
def State.slotOfArrival (s : State) (k : Nat) (b : Bool) : Option (RingCyc × Nat) :=
  let r := s.ring k
  let each := fun (c : RingCyc) => c.sent.filterMap fun i => (c.expected b i).map fun e => (((s.now : Int) - e).natAbs, c, i)
  match r.cur with
  | none => nearest (r.prev.toList.flatMap each)
  | some c =>
    let old := (r.prev.toList.flatMap each).filter fun x => (c.delay b).isSome || (match x.2.1.expected b x.2.2 with
      | some e => decide (e ≤ s.now + 32) && decide (s.now ≤ e + 48)
      | none => false)
    nearest (old ++ each c)

/-- A node's counter goes up by 1 (R213). -/
def State.countNode (s : State) (k n : Nat) (f : Fld) : State := if n < 25 ∧ k < 16 then s.addSat f 1 else s

/-- A response frame starts to arrive now on a port of ring `k` (R198). -/
def State.receiveResponse (s : State) (k : Nat) (b : Bool) (f : List Nat) (clean : Bool) : State :=
  match s.slotOfArrival k b with
  | none => s
  | some (c, i) =>
    match c.expected b i, s.slotNode k i c with
    | some e, some n =>
      if c.accepted.contains i && entKind (c.table.getD i 0) != 3 then s
      else if s.now + 32 < e ∨ e + 48 < s.now then
        let s1 := (s.countNode k n (Reg.NODE_CNT.EDGE k n)).modCyc k c.cycle fun c => { c with edges := c.edges ++ [n] }
        s1.log (Src.ring k) Ev.SLOT_EDGE (i + 256 * n + 65536 * b2n b) (ux 32 ((s.now : Int) - e))
      else if frameOk 50 f clean && agrees f i (entKind (c.table.getD i 0)) n (s.anyNode k (entKind (c.table.getD i 0))) c then (s.acceptSlot k b i c f).settle k
      else s.countNode k n (Reg.NODE_CNT.CRC k n)
    | _, _ => s

/-- RESPONSE_RECEIVE (R198): a response frame (body and CRC in `frame`, `clean` without a code violation) starts to arrive on a port
(`b`: SPk_B) of ring `k`. -/
def execResponseReceive (t : Time) (k : Fin 16) (b : Bool) (frame : List Byte) (clean : Bool) (s : State) : Out :=
  live t s fun s => s.receiveResponse k.val b (natBytes frame) clean

/-- Slot `i` of ring cycle `c` closes with no response accepted (R198, R126, R137, R211, R278). -/
def State.closeSlot (s : State) (k i : Nat) (c : RingCyc) : State :=
  match s.slotNode k i c with
  | none => s
  | some n =>
    if c.accepted.contains i ∨ c.closed.contains i then s
    else
      let w := c.table.getD i 0
      let s1 := (s.modCyc k c.cycle fun c => { c with closed := c.closed ++ [i] }).countNode k n (Reg.NODE_CNT.MISS k n)
      match entKind w with
      | 1 =>
        let a := entAxis w
        (s1.tapMiss a).noUplink a c.cycle (s.sampleInstant k i n c)
      | 2 => s1.svcMissed k
      | _ => s1

/-- The ring cycle of ring `k` in which slot `i` is open and due: the earlier one first. -/
def State.openCyc (s : State) (k i : Nat) : Option RingCyc :=
  let r := s.ring k
  (r.prev.toList ++ r.cur.toList).find? fun c =>
    (s.slotNode k i c).isSome && !c.accepted.contains i && !c.closed.contains i && decide (c.closeAt i ≤ s.now)

/-- SLOT_WINDOW_CLOSE (R198): the window of slot `i` closes with no response accepted. -/
def execSlotWindowClose (t : Time) (k : Fin 16) (i : Fin 32) (s : State) : Out :=
  live t s fun s =>
    match s.openCyc k.val i.val with
    | some c => (s.closeSlot k.val i.val c).settle k.val
    | none => s

/-- Before a ring cycle starts, the windows of the ring cycle before the last have all closed. -/
def State.closeOld (s : State) (k : Nat) : State :=
  match (s.ring k).prev with
  | some c => (forEach c.sent (fun s i => match (s.ring k).prev with
      | some c => s.closeSlot k i c
      | none => s) s).settle k
  | none => s

/-- The axes of ring `k` that the ring cycle which begins does not poll, their node being muted or without an address, have no uplink in it
(R126, R168, R169). -/
def State.unpolled (s : State) (k : Nat) : State :=
  let cur := match (s.ring k).cur with
    | some c => if c.cycle = s.dev.cycle.toNat then c else { (default : RingCyc) with cycle := s.dev.cycle.toNat, start := s.dev.cycleTsc }
    | none => { (default : RingCyc) with cycle := s.dev.cycle.toNat, start := s.dev.cycleTsc }
  let axs := s.img.axisIds.filter fun a => s.ringOf a == k && !(cur.expect.any fun i => entAxis (cur.table.getD i 0) == a)
  forEach axs (fun s a => s.noUplink a cur.cycle (s.sampleInstant k (s.slotOf a) (s.nodeOf a) cur)) s

end Sys2Proof.Machine
end

