-- ==== Sys2Proof/Machine/Duplex.lean ====
section
/-! DEFINITION. Duplex operation (R301–R320): roles and their changes, the partner link, mirrored inputs, the tap and the comparison,
divergence, promotion, handover and the return of a unit. -/

namespace Sys2Proof.Machine

/-- DPX_STAT.ROLE codes (R320). -/
def roleSolo : Nat := 0
def roleActive : Nat := 1
def roleStandby : Nat := 2
def roleSyncing : Nat := 3
def roleFaulted : Nat := 4
def roleListening : Nat := 5

/-- The unit's role. -/
def State.role (s : State) : Nat := s.get Reg.DPX_STAT.ROLE
/-- Change the duplex state. -/
def State.modDpx (s : State) (f : DpxSt → DpxSt) : State := { s with dpx := f s.dpx }
/-- The unit is STANDBY or SYNCING. -/
def State.follows (s : State) : Bool := s.role == roleStandby || s.role == roleSyncing
/-- The unit is in a role that takes part in the pair: neither SOLO nor FAULTED. -/
def State.paired (s : State) : Bool := s.role != roleSolo && s.role != roleFaulted
/-- The unit at position 1 (R301). -/
def State.dpxPos (s : State) : Nat := s.get Reg.DPX_CFG.POS
/-- A frame of the partner link (R304): TYPE, reserved, LEN, SEQ, payload, and the CRC-32C over them. -/
def partnerFrame (typ seq : Nat) (payload : List Nat) : List Nat :=
  let b := [typ, 0] ++ leBytes 2 payload.length ++ leBytes 4 seq ++ payload
  b ++ leBytes 4 (crc32c b)

/-- SEQ and payload of a received frame of a type; none where its length, its type or its CRC is wrong: such a frame is discarded. -/
def partnerFrame? (typ : Nat) (f : List Nat) : Option (Nat × List Nat) :=
  let n := leAt f 2 2
  if f.length = n + 12 ∧ leAt f 0 1 = typ ∧ crc32c (f.take (n + 8)) = leAt f (n + 8) 4 then some (leAt f 4 4, (f.drop 8).take n) else none

/-- Send a frame on the partner link (R304): SEQ counts it. -/
def State.sendPartner (s : State) (typ : Nat) (payload : List Nat) : State :=
  s.modDpx fun d => { d with seq := (d.seq + 1) % 2 ^ 32, sent := d.sent ++ [partnerFrame typ d.seq payload] }

/-- A unit that follows asks for the frame with a SEQ again (R307); the active sends those of them that are MIRROR frames. -/
def State.askAgain (s : State) (q : Nat) : State :=
  if s.role = 2 ∨ s.role = 3 then s.sendPartner 7 (leBytes 4 (q % 2 ^ 32)) else s

/-- A frame with SEQ `q` arrives: the frames between it and the one before are missing, and are asked for at once (R307). -/
def State.noteSeq (s : State) (q : Nat) : State :=
  match s.dpx.rxSeq with
  | none => s.modDpx fun d => { d with rxSeq := some q }
  | some p =>
    let n := (q + 2 ^ 32 - p) % 2 ^ 32
    if n = 0 ∨ 2 ^ 31 ≤ n then s
    else forEach (List.range (n - 1)) (fun s i => s.askAgain (p + 1 + i)) (s.modDpx fun d => { d with rxSeq := some q })

/-- A frame of the partner link of a type is received: what it does with its SEQ and payload; discarded where its CRC fails (R304). -/
def State.rxPartner (s : State) (typ : Nat) (frame : List Byte) (act : State → Nat → List Nat → State) : State :=
  match partnerFrame? typ (natBytes frame) with
  | some (q, p) => if s.role = 0 then s else act (s.noteSeq q) q p
  | none => s
/-- Detail word 0 of the partner-link events: the lanes up (R319). -/
def State.lanesUp (s : State) : Nat := s.get Reg.DPX_STAT.LANE0_UP + 2 * s.get Reg.DPX_STAT.LANE1_UP

/-! ### Roles (R314, R315) -/

/-- The unit enters a role; pins, port and SYNCED follow. -/
def State.setRole (s : State) (r : Nat) : State :=
  (((s.set Reg.DPX_STAT.ROLE r).setB Reg.DPX_STAT.SYNCED (r == roleStandby)).syncPort).modDpx fun d =>
    { d with silenced := d.silenced && r == roleFaulted }

/-- The ports of ring `k` become a node's: one whose link is down is in loop-back (R302, R206). -/
def State.portsForward (s : State) (k : Nat) : State :=
  let port := fun b => ({ looped := !s.linkUp k b, remoteFault := !s.linkUp k b, upRun := 0 } : NodePort)
  s.modRing k fun r => { r with portA := port false, portB := port true, probeLoop := none, tapSent := none }

/-- The ring masters stop sending: their ports forward from the end guard on (R302). -/
def State.ringsForward (s : State) : State :=
  let s1 := forEach s.liveRings (fun s k => s.set (Reg.RING_STAT.MODE k) ringOff) s
  forEach s1.ringIds State.portsForward s1

/-- The role ACTIVE ends: RELINQUISH with the role and a cause, for which R314 names no codes; the ring ports forward (R302), or drive the
remote-fault set while the unit is FAULTED (R314). -/
def State.leaveActive (s : State) (r : Nat) : State :=
  (((s.sendPartner 6 [r, Config.free 16 s.freeCount % 256]).ringsForward.modDpx fun d => { d with silenced := true }).setRole r).modDpx fun d =>
    { d with hoReq := false, hoSent := false, fall := false, hoTake := false }

/-- The unit becomes FAULTED (R314). -/
def State.roleFault (s : State) : State :=
  if s.role = roleActive then s.leaveActive roleFaulted else s.setRole roleFaulted

/-- What the partner-link port of a unit does as power-good falls (R314), where `d` is what the reset leaves of the pair: it sends RELINQUISH
for a unit that was ACTIVE, and drives the remote-fault set on the ring ports. -/
def State.lastWords (s : State) (d : DpxSt) : DpxSt :=
  { d with
    silenced := s.dpx.silenced || s.role == roleActive
    sent := if s.role = roleActive then (s.leaveActive roleFaulted).dpx.sent else [] }

/-- The unit begins to listen (R314). -/
def State.listen (s : State) : State :=
  (forEach s.ringIds State.portsForward (s.setRole roleListening)).modDpx fun d => { d with
    since := s.now, heard := [], hoReq := false, hoSent := false, fall := false, hoTake := false, relinquished := false, hbLost := false, pRole := none, attempts := 0 }

/-- BRING_UP is entered (R314): a unit whose image has the DPLX section listens. -/
def State.dpxBringUp (s : State) : State := if s.img.duplex then s.listen else s

/-- The end of LOAD: SOLO without the DPLX section; what counts "since LOAD" restarts (R314, R320). -/
def State.dpxLoad (s : State) : State :=
  let s1 := (s.setWord Reg.DPX_CMP 0).setWord Reg.DPX_SYNC 0
  let s2 := (forN 8 (fun s w => s.setWord (Reg.DPX_UNALIGNED w) 0) s1).setB Reg.DPX_CFG.EN s1.img.duplex
  (s2.set Reg.DPX_STAT.ROLE roleSolo).modDpx fun d => { (default : DpxSt) with pPos := d.pPos }

/-- Synchronisation begins, as attempt `n` (R314, R318). -/
def State.startSync (s : State) (n : Nat) : State :=
  (s.setRole roleSyncing).modDpx fun d => { d with
    since := s.now, attempts := n, ckptFrom := none, regions := [], observed := false, installed := false, runs := [], realign := [], diverged := none, own := none, partner := none, outcome := none }

/-- The partner reports this unit's own position (R452). -/
def State.samePos (s : State) : Bool := s.dpx.pPos == some (s.dpxPos == 1)

/-- Listening ends with what `f` does (R314); both units of a pair strapped alike are FAULTED instead (R452). -/
def State.endListen (s : State) (f : State → State) : State :=
  if s.samePos then (s.setRole roleFaulted).log Src.duplex Ev.ROLE_CONFLICT 0x100 s.dpx.pPromo else f s

/-- Synchronisation fails with a cause (R314, R318): again, or FAULTED after the third attempt or with another image. -/
def State.syncFailed (s : State) (cause : Nat) : State :=
  let n := s.dpx.attempts
  let s1 := s.log Src.duplex Ev.SYNC_FAILED cause n
  if cause = 1 ∨ 3 ≤ n then s1.roleFault else s1.startSync (n + 1)

/-- The standby goes back to SYNCING; nothing in another role (R314). -/
def State.toSyncing (s : State) : State := if s.role = roleStandby then s.startSync 1 else s

/-- The unit becomes the ring master (R315, R316): ACTIVE, PROMO goes up, its ring masters start in a mode. -/
def State.becomeActive (s : State) (mode : Nat) : State :=
  let s1 := (s.setRole roleActive).addMod Reg.DPX_STAT.PROMO 1
  let s2 := forEach s1.ringIds (fun s k => (s.setRingMode k mode).modRing k fun r =>
    { r with both := mode == ringFolded, unreturned := false, reqReclose := false, recloseAt := none }) s1
  s2.modDpx fun d => { d with hoTake := false, hoReq := false, hoSent := false, fall := false }

/-! ### What the rings tell a unit that is not ACTIVE (R302, R311, R315) -/

/-- The last cycle-start of the pair that the unit acted on: the greatest cycle number heard, with its latest instant. -/
def State.lastHeard (s : State) : Option (Nat × Nat) :=
  s.dpx.heard.foldl (fun b p => match p.2, b with
    | some x, some y => some (if y.1 < x.1 then (x.1, x.2.1) else if x.1 = y.1 then (x.1, max x.2.1 y.2) else y)
    | some x, none => some (x.1, x.2.1)
    | none, b => b) none

/-- The ring cycles in which every ring was silent since the last one heard (R315): in each, 1 µs has passed after the reference
instant that every ring predicts. -/
def State.ringsMissing (s : State) : Nat :=
  match s.lastHeard with
  | none => 0
  | some (m, _) =>
    let each := s.dpx.heard.filterMap fun p => p.2.map fun x =>
      x.1 + (if x.2.1 + 1000 ≤ s.now then (s.now - 1000 - x.2.1) / ringNs else 0)
    match each with
    | [] => 0
    | n :: rest => rest.foldl min n - m

/-- The old master instant of ring cycle `c` by the estimate of R315: reference instants minus DELAY, averaged over the rings. -/
def State.masterInstant (s : State) (c : Nat) : Nat :=
  let each := s.dpx.heard.filterMap fun p => p.2.map fun x => x.2.1 + ringNs * (c - x.1) - tget 0 s.dpx.delays p.1
  if each.isEmpty then s.dev.nextCycle else each.foldl (· + ·) 0 / each.length

/-- A unit that follows begins a ring cycle of ring `k` with the cycle-start it acts on: its reference instant is now, and what R194 and
R198 accept is timed from it. -/
def State.followStart (s : State) (k : Nat) (cyc mute : Nat) (extend : Bool) : State :=
  let s1 := (s.closeOld k).settle k
  let t := s1.activeTable k
  let expect := (List.range 32).filter fun i => entKind (t.getD i 0) == 1 && !bitAt mute (entNode (t.getD i 0))
  let c : RingCyc := { (default : RingCyc) with
    cycle := cyc, start := s.now, table := t, expect := expect, extend := extend, cA := some 0, cB := some 0, okA := true, ret0 := true }
  ((s1.setWord (Reg.RING_MUTE k) mute).modRing k fun r => { r with prev := r.cur, cur := some c }).unpolled k

/-! ### The unit as a node (R195, R196, R206, R208, R302) -/

/-- The last cycle-start acted on on ring `k`: cycle number, reference instant, acting port. -/
def State.acted (s : State) (k : Nat) : Option (Nat × Nat × Bool) := tget none s.dpx.heard k

/-- What would leave a node through port `b` of ring `k` leaves through the other port: the port is in loop-back, or loops for a PROBE (R206, R209). -/
def State.loopedAt (s : State) (k : Nat) (b : Bool) : Bool :=
  let r := s.ring k
  (r.port b).looped || (match r.probeLoop, s.acted k with
    | some (c, p), some (cyc, _) => c == cyc && p == b
    | _, _ => false)

/-- The port by which a node sends on what moves towards port `b` of ring `k`. -/
def State.leavesBy (s : State) (k : Nat) (b : Bool) : Bool := if s.loopedAt k b then !b else b

/-- A looped port leaves loop-back in the end guard of a ring cycle whose cycle-start carried EXTEND, its link having been up for 64
consecutive ring cycles (R208). -/
def State.leaveLoop (s : State) (k : Nat) : State :=
  match (s.ring k).cur with
  | some c =>
    let p := fun (x : NodePort) => { x with looped := x.looped && !decide (64 ≤ x.upRun) }
    if c.extend ∧ c.start + 15520 ≤ s.now then s.modRing k fun r => { r with portA := p r.portA, portB := p r.portB } else s
  | none => s

/-- The ring cycles for which the links of a node's ports have been up (R206). -/
def State.countLinks (s : State) (k : Nat) : State :=
  let p := fun b (x : NodePort) => { x with upRun := if s.linkUp k b then x.upRun + 1 else 0 }
  s.modRing k fun r => { r with portA := p false r.portA, portB := p true r.portB }

/-- A cycle-start frame as a node turns it back: RETURN set, the CRC recomputed (R206). -/
def setReturn (f : List Nat) : List Nat :=
  let b := f.take 8 ++ [leAt f 8 1 + (if bitAt (leAt f 8 1) 6 then 0 else 64)] ++ (f.drop 9).take 9
  b ++ leBytes 4 (crc32c b)

/-- HOPS of an ENUM or PROBE poll as a node forwards it (R195). -/
def nextHops (h : Nat) : Nat := if h = 0 then 0xFF else if h = 0xFF then h else h - 1

/-- Such a poll with its HOPS altered and its CRC recomputed. -/
def alterHops (f : List Nat) : List Nat :=
  let b := f.take 6 ++ [nextHops (leAt f 6 1)] ++ (f.drop 7).take 31
  b ++ leBytes 4 (crc32c b)

/-- A valid poll is an ENUM or PROBE of the stream that the node acts on. -/
def State.hopPoll (s : State) (k : Nat) (f : List Nat) : Bool :=
  leAt f 0 1 / 32 == 2 && (leAt f 4 1 == 3 || leAt f 4 1 == 5) && leAt f 7 1 % 2 == (s.ring k).stream

/-- A frame that came in at port `b` of ring `k` leaves the unit, turned back with RETURN where the port is in loop-back; HOPS is altered on the
acting port (R195, R206, R302). A unit that drives the remote-fault set forwards nothing (R314). -/
def State.forward (s : State) (k : Nat) (b : Bool) (f : List Nat) (clean : Bool) : State :=
  if s.dpx.silenced then s
  else
    let out := s.leavesBy k (!b)
    let acting := match s.acted k with
      | some x => x.2.2 == b
      | none => false
    let f1 := if frameOk 18 f clean && out == b then setReturn f
      else if frameOk 38 f clean && acting && s.hopPoll k f then alterHops f else f
    let s1 := s.modRing k fun r => { r with forwarded := some (out, f1) }
    if frameOk 38 f clean && acting && s.hopPoll k f && leAt f 4 1 == 5 && leAt f 6 1 == 0 then
      s1.modRing k fun r => { r with probeLoop := (s.acted k).map fun x => (x.1 + 1, !b) }
    else s1

/-! ### The tap (R309, R310) -/

/-- The AXIS slots of ring `k`, ascending, with their axes. -/
def State.axisSlots (s : State) (k : Nat) : List (Nat × Nat) :=
  (List.range 32).filterMap fun i =>
    let w := s.word (Reg.SCHED_ACT k i)
    if entKind w = 1 then some (i, entAxis w) else none

/-- A 24-bit mailbox word as 4 bytes, sign-extended. -/
def word24Bytes (w : Nat) : List Nat := leBytes 4 (ux 32 (sx 24 w))

/-- The bytes that SP_DIGEST covers for an axis (R310): x*, V_SET, TAU_SET. -/
def State.digestBytes (s : State) (a : Nat) : List Nat :=
  let m := fun o => match s.lawSlot a with
    | some (e, sl) => s.leWord e (mboxAddr sl o)
    | none => 0
  leBytes 8 (ux 64 (s.countsOf a (s.setpt a).x)) ++ word24Bytes (m 0x11) ++ word24Bytes (m 0x12)

/-- SP_DIGEST of ring `k` (R310). -/
def State.spDigest (s : State) (k : Nat) : Nat := crc32c ((s.axisSlots k).flatMap fun p => s.digestBytes p.2)

/-- The slots of a ring cycle whose responses were accepted, as a mask. -/
def acceptMask (c : Option RingCyc) : Nat :=
  match c with
  | some c => slotMask c.accepted
  | none => 0

/-- VERDICT, and V_AXIS, of the divergence being resolved (R309, R312). -/
def State.verdictBytes (s : State) : Nat × Nat :=
  (s.dpx.own.getD 0, match s.dpx.diverged with
    | some d => d.1
    | none => 0)

/-- Bytes 4–49 of the tap response of a unit that is not ACTIVE on ring `k` (R309). -/
def State.tapResponse (s : State) (k : Nat) : List Nat :=
  let v := s.verdictBytes
  [s.role + 8 * b2n (!s.on Reg.DPX_STAT.LINK_LOST) + 16 * s.get Reg.DPX_STAT.STALE + 32 * s.get Reg.DPX_STAT.SYNCED,
   s.get Reg.DPX_STAT.PROMO, 0, 0] ++ leBytes 4 (s.spDigest k) ++ leBytes 4 (tget 0 s.dpx.mismSlots k) ++
  leBytes 4 (s.dpx.mirSeq.getD 0) ++ [v.1, b2n s.dpx.diverged.isSome, v.2] ++ List.replicate 27 0

/-- The tap response of the unit as node 24 in slot `i` of ring cycle `cyc` of ring `k`, with its CRC (R194, R206, R309); `bad`: its poll was
missing or failed its CRC. -/
def State.tapFrame (s : State) (k i cyc : Nat) (bad : Bool) : List Nat :=
  let r := s.ring k
  let up := fun (p : NodePort) => p.looped && decide (64 ≤ p.upRun)
  let b := [i + 32 * 4, 24 + 32 * b2n bad + 64 * b2n (r.portA.looped || r.portB.looped) + 128 * b2n (up r.portA || up r.portB)] ++
    leBytes 2 (cyc % 65536) ++ s.tapResponse k
  b ++ leBytes 4 (crc32c b)

/-- The TAP slot of ring `k`. -/
def State.tapSlot (s : State) (k : Nat) : Option Nat := (List.range 32).find? fun i => entKind (s.word (Reg.SCHED_ACT k i)) == 4

/-- The unit answers as node 24 in the ring cycle whose cycle-start it acted on last, once, unless it is muted (R196, R197, R302). -/
def State.sendTap (s : State) (k : Nat) (bad : Bool) : State :=
  match s.acted k, s.tapSlot k with
  | some (cyc, _, b), some i =>
    let done := match (s.ring k).tapSent with
      | some x => x.1 == cyc
      | none => false
    if done || s.nodeMuted k 24 || s.dpx.silenced then s
    else s.modRing k fun r => { r with tapSent := some (cyc, s.leavesBy k (!b), s.tapFrame k i cyc bad) }
  | _, _ => s

/-- A ring cycle has ended whose tap poll never came: it was answered at its scheduled time with POLL_BAD (R197). -/
def State.missedTap (s : State) (k : Nat) : State := s.sendTap k true

/-- A cycle-start with ROLE ACTIVE on ring `k` at a port (R196, R302, R314): the first with its number and RETURN 0 is acted on; a
listening unit adopts the pair's cycle number and synchronises. -/
def State.hearStart (s : State) (k : Nat) (b : Bool) (f : List Nat) : State :=
  let cyc := leAt f 0 8
  let old := match tget none s.dpx.heard k with
    | some x => x.1 == cyc
    | none => (false : Bool)
  if leAt f 10 1 ≠ roleActive ∨ bitAt (leAt f 8 1) 6 ∨ old = true then s
  else
    let s0 := (s.missedTap k).countLinks k
    let s1 := (s0.modRing k fun r => { r with stream := leAt f 8 1 / 16 % 2 }).modDpx fun d => { d with heard := tput none d.heard k (some (cyc, s.now, b)) }
    let s2 := if s.role = roleListening then s1.endListen (·.startSync 1) else s1
    let at' := s.now - tget 0 s.dpx.delays k
    let s3 := if s2.follows then
        let begun := s2.dev.begun && decide (s2.dev.cycle.toNat = cyc)
        { s2 with dev := { s2.dev with
            cycle := BitVec.ofNat 64 cyc, begun := true, timer := true, cycleTsc := if begun then s2.dev.cycleTsc else at', nextCycle := at' + ringNs } }
      else s2
    s3.followStart k cyc (leAt f 12 4) (bitAt (leAt f 11 1) 2)

/-- A response passes through a unit that follows (R311): taken under the rules of R198; the node is there. -/
def State.hearResponse (s : State) (k : Nat) (b : Bool) (f : List Nat) (clean : Bool) : State :=
  let n := leAt f 1 1 % 32
  let s1 := s.receiveResponse k b f clean
  if frameOk 50 f clean && decide (n < 24) && leAt f 0 1 / 32 == 1 && decide ((s.ring k).cur ≠ (s1.ring k).cur) then
    s1.set (Reg.NODE_INFO.ADDRESSED k n) 1
  else s1

/-- FRAME_FORWARD (R302, R311): a unit that is not ACTIVE forwards a frame that arrives at a port (`b`: SPk_B) of ring `k`, body and
CRC in `frame`, `clean` without a code violation. It acts on cycle-starts as a node, keeps bytes 4–13 of the axis polls of its acting port for the
comparison (R196), and takes the responses that pass. -/
def execFrameForward (t : Time) (k : Fin 16) (b : Bool) (frame : List Byte) (clean : Bool) (s : State) : Out :=
  live t s fun s =>
    let f := natBytes frame
    let k := k.val
    if !s.isNode ∨ !s.on (Reg.RING_CFG.EN k) then s
    else
      let s1 := s.leaveLoop k
      let acting := match s1.acted k with
        | some x => x.2.2 == b
        | none => false
      let s2 := if frameOk 18 f clean then s1.hearStart k b f
        else if frameOk 38 f clean then
          if leAt f 0 1 / 32 == 1 && acting then
            s1.modDpx fun d => { d with polls := tput [] d.polls (32 * k + leAt f 0 1 % 32) ((f.drop 4).take 10) }
          else s1
        else if f.length = 54 ∧ s1.follows then s1.hearResponse k b f clean
        else s1
      s2.forward k b f clean

/-! ### The partner link (R304, R305, R317) -/

/-- The partner link is lost (R304, R317): logged once; a synchronisation in progress ends with cause 4. -/
def State.linkLost (s : State) : State :=
  if s.on Reg.DPX_STAT.LINK_LOST ∨ s.role = roleSolo then s
  else
    let s1 := ((s.set Reg.DPX_STAT.LINK_LOST 1).modDpx fun d => { d with lostAt := some s.now }).log
      Src.duplex Ev.PARTNER_LINK_LOST s.lanesUp (s.get Reg.DPX_HB.MISS_RUN)
    if s.role = roleSyncing then s1.syncFailed 4 else s1

/-- The partner link returns (R317): logged; a standby synchronises anew. -/
def State.linkRestored (s : State) : State :=
  if !s.on Reg.DPX_STAT.LINK_LOST then s
  else
    (((s.set Reg.DPX_STAT.LINK_LOST 0).modDpx fun d => { d with lostAt := none }).log
      Src.duplex Ev.PARTNER_LINK_RESTORED s.lanesUp (s.get Reg.DPX_HB.MISS_RUN)).toSyncing

/-- The heartbeat is lost (R305, R314): an ACTIVE unit logs it; elsewhere the link is lost while cycle-starts still arrive (R304). -/
def State.heartbeatLost (s : State) : State :=
  if s.dpx.hbLost then s
  else
    let s1 := (s.modDpx fun d => { d with hbLost := true }).set Reg.DPX_STAT.PARTNER_SEEN 0
    if s.role = roleActive then
      if s.on Reg.DPX_STAT.LINK_LOST then s1
      else s1.log Src.duplex Ev.PARTNER_LINK_LOST s.lanesUp (s.get Reg.DPX_HB.MISS_RUN)
    else if s.follows ∧ !s.dpx.relinquished ∧ s.ringsMissing = 0 then s1.linkLost
    else s1

/-- PARTNER_LANE_DOWN (R304): a lane loses block lock; the link is lost when both have. -/
def execPartnerLaneDown (t : Time) (lane : Fin 2) (s : State) : Out :=
  live t s fun s =>
    let s1 := s.set (if lane.val = 0 then Reg.DPX_STAT.LANE0_UP else Reg.DPX_STAT.LANE1_UP) 0
    if s1.lanesUp = 0 then (s1.modDpx fun d => { d with pPos := none }).linkLost else s1

/-- PARTNER_LANE_UP (R304, R452): a lane gains block lock, which restores a lost link; the partner's position is known. -/
def execPartnerLaneUp (t : Time) (lane : Fin 2) (pos : Bool) (s : State) : Out :=
  live t s fun s =>
    ((s.set (if lane.val = 0 then Reg.DPX_STAT.LANE0_UP else Reg.DPX_STAT.LANE1_UP) 1).modDpx fun d => { d with pPos := some pos }).linkRestored

/-- STALE_TIMEOUT (R317): one second after the loss of the partner link the standby sets STALE. -/
def execStaleTimeout (t : Time) (s : State) : Out :=
  live t s fun s =>
    match s.dpx.lostAt with
    | some t0 => if s.role = roleStandby ∧ t0 + 1000000000 ≤ s.now then s.set Reg.DPX_STAT.STALE 1 else s
    | none => s

/-- The IMAGE words of the heartbeat: image sequence number and header CRC of the image in use (R305). -/
def State.imageId (s : State) : Nat := (s.img.seq.getD 0) % 2 ^ 32 + 2 ^ 32 * s.img.hdrCrc

/-- The payload of a HEARTBEAT of this servo boundary (R305). -/
def State.heartbeatBody (s : State) : List Nat :=
  [s.role + 8 * s.get Reg.DPX_STAT.STALE, s.devState, s.get Reg.DPX_STAT.PROMO, 0] ++ leBytes 8 s.dev.cycle.toNat ++
  leBytes 4 s.dpx.hbCount ++ leBytes 4 (s.dpx.mirSeq.getD 0) ++ leBytes 8 s.imageId ++ [0, 0, 0, 0]

/-- HEARTBEAT_RECEIVE (R304, R305): a partner heartbeat, the frame with its 32 payload bytes. -/
def execHeartbeatReceive (t : Time) (frame : List Byte) (s : State) : Out :=
  live t s fun s => s.rxPartner 1 frame fun s _ f =>
    let r := leAt f 0 1 % 8
    if f.length ≠ 32 then s
    else
      let s1 := (((s.addMod Reg.DPX_HB.RX 1).set Reg.DPX_HB.MISS_RUN 0).set Reg.DPX_STAT.PARTNER_SEEN 1).modDpx fun d =>
        { d with pRole := some r, pStale := bitAt (leAt f 0 1) 3, pPromo := leAt f 2 1, hbSeen := true, hbLost := false
                 relinquished := false, devNext := if r = roleActive then some (leAt f 1 1 % 16) else d.devNext
                 kept := d.kept.filter fun m => decide (leAt f 16 4 < m.seq) }
      let s2 := if s1.lanesUp ≠ 0 then s1.linkRestored else s1
      if r ≠ roleActive ∨ s2.role = roleActive then s2
      else
        let s3 := s2.set Reg.DPX_STAT.PROMO (leAt f 2 1)
        if s3.role = roleListening then
          s3.endListen fun s => { s with dev := { s.dev with cycle := BitVec.ofNat 64 (leAt f 4 8), begun := true } }.startSync 1
        else if s3.role = roleSyncing ∧ leAt f 20 8 ≠ s3.imageId then s3.syncFailed 1
        else s3

/-- HEARTBEAT_LOST (R305): eight consecutive heartbeats are missing. -/
def execHeartbeatLost (t : Time) (s : State) : Out :=
  live t s fun s => if s.paired ∧ 8 ≤ s.get Reg.DPX_HB.MISS_RUN then s.heartbeatLost else s

/-- RELINQUISH_RECEIVE (R305, R314): the partner has left role ACTIVE, its role and cause in the frame; the heartbeat is lost at once. -/
def execRelinquishReceive (t : Time) (frame : List Byte) (s : State) : Out :=
  live t s fun s => s.rxPartner 6 frame fun s _ p =>
    if s.paired then (s.modDpx fun d => { d with relinquished := true, pRole := some (leAt p 0 1 % 8) }).heartbeatLost else s

/-! ### Mirrored inputs (R306, R307) -/

/-- The records of a MIRROR payload (R306): KIND, a reserved byte, the body's length, the body; for one boundary of use. -/
def mirrorRecords (use : Nat) : Nat → List Nat → List MirrorRec
  | 0, _ => []
  | n + 1, l =>
    if l.length < 4 then []
    else ⟨leAt l 0 1, use, (l.drop 4).take (leAt l 2 2)⟩ :: mirrorRecords use n (l.drop (4 + leAt l 2 2))

/-- The payload of a MIRROR frame. -/
def mirrorBytes (l : List MirrorRec) : List Nat :=
  l.flatMap fun r => [r.kind, 0] ++ leBytes 2 r.body.length ++ r.body

/-- A MIRROR frame with SEQ `q` and its payload is complete (R307): its records wait for the next servo boundary. -/
def State.takeMirror (s : State) (q : Nat) (l : List Nat) : State :=
  if !s.follows ∨ s.dpx.mirSeq = some q then s
  else
    let s1 := s.modDpx fun d => { d with mirSeq := some q, mirSeen := true }
    if s.role = roleStandby ∨ s.dpx.installed then { s1 with mirrorHeld := s1.mirrorHeld ++ mirrorRecords (s.servoNo + 1) l.length l } else s1

/-- MIRROR_RECEIVE (R304, R307): a MIRROR frame. One that fails its CRC is discarded, and the frame after the last one received is asked for
again. -/
def execMirrorReceive (t : Time) (frame : List Byte) (s : State) : Out :=
  live t s fun s =>
    match partnerFrame? 2 (natBytes frame), s.dpx.rxSeq with
    | some _, _ => s.rxPartner 2 frame State.takeMirror
    | none, some p => if s.follows then (s.askAgain (p + 1)).modDpx fun d => { d with rxSeq := some ((p + 1) % 2 ^ 32) } else s
    | none, none => s

/-- RETRANSMIT_RECEIVE (R307): the active sends a MIRROR frame again, with its SEQ (DEDUCED 29). -/
def execRetransmitReceive (t : Time) (frame : List Byte) (s : State) : Out :=
  live t s fun s => s.rxPartner 7 frame fun s _ p =>
    match s.dpx.kept.find? fun m => m.seq == leAt p 0 4 with
    | some m => if s.role = roleActive then s.modDpx fun d => { d with sent := d.sent ++ [partnerFrame 2 m.seq (mirrorBytes m.records)] } else s
    | none => s

/-! ### Return of a unit (R318) -/

/-- CHECKPOINT_RECEIVE (R304, R318): a state region reaches the syncing unit: 4-byte fabric address and data. -/
def execCheckpointReceive (t : Time) (frame : List Byte) (s : State) : Out :=
  live t s fun s => s.rxPartner 3 frame fun s _ p =>
    if s.role = roleSyncing ∧ s.dpx.observed ∧ !s.dpx.installed then
      s.modDpx fun d => { d with ckptFrom := some (d.ckptFrom.getD s.now), regions := d.regions ++ [(leAt p 0 4, p.drop 4)] }
    else s

/-- CHECKPOINT_END_RECEIVE (R318): the snapshot boundary is named; the unit installs the state and computes from it on. -/
def execCheckpointEndReceive (t : Time) (frame : List Byte) (s : State) : Out :=
  live t s fun s => s.rxPartner 4 frame fun s _ p =>
    if s.role = roleSyncing ∧ s.dpx.observed ∧ !s.dpx.installed ∧ leAt p 0 8 ≤ s.dev.cycle.toNat then
      let ms := (s.now - s.dpx.ckptFrom.getD s.now) / 1000000
      let s1 := forEach s.dpx.regions (fun s r => s.fabWrite r.1 r.2) s
      ((s1.set Reg.DPX_SYNC.CKPT_MS (satU 16 ms)).set Reg.DPX_SYNC.CMP_RUN 0).modDpx fun d => { d with installed := true, regions := [], mism := false }
    else s

/-- A state region as it stands: fabric address and bytes. -/
def State.regionNow (s : State) (r : Nat × Nat) : Nat × List Nat := (r.1, (List.range r.2).map fun i => (mget 0 s.mem (r.1 + i)).toNat)

/-- A state region in CHECKPOINT payloads of at most 4 096 bytes (R304), `n` of them at most. -/
def regionParts : Nat → Nat × List Nat → List (List Nat)
  | 0, _ => []
  | n + 1, (a, l) => if l.isEmpty then [] else (leBytes 4 a ++ l.take 4096) :: regionParts n (a + 4096, l.drop 4096)

/-- The bytes that the partner link carries in a servo cycle: 10.3125 Gbaud with 64b/66b coding on each lane that is up (R304). -/
def State.linkBytes (s : State) : Nat := 78125 * (s.get Reg.DPX_STAT.LANE0_UP + s.get Reg.DPX_STAT.LANE1_UP)

/-- The active sends a checkpoint to a syncing partner (R318): at a servo boundary the regions that have changed since they were sent, all of
them at first; the round that fits within one servo cycle is the last, and CHECKPOINT_END names its boundary. A partner that is still syncing 2 s
after that gets it again (DESIGN CHOICE 30). -/
def State.sendCheckpoint (s : State) : State :=
  let d := s.dpx
  let n := s.dev.cycle.toNat
  if s.role ≠ roleActive ∨ d.pRole ≠ some roleSyncing ∨ s.on Reg.DPX_STAT.LINK_LOST then
    if d.ckptSent.isEmpty ∧ d.ckptEnd.isNone then s else s.modDpx fun d => { d with ckptSent := [], ckptNext := 0, ckptEnd := none }
  else
    match d.ckptEnd with
    | some t0 => if t0 + 2000000000 ≤ s.now then s.modDpx fun d => { d with ckptSent := [], ckptNext := 0, ckptEnd := none } else s
    | none =>
      if n < d.ckptNext then s
      else
        let all := s.img.regions.map s.regionNow
        let todo := all.filter fun r => !d.ckptSent.contains r
        let parts := todo.flatMap fun r => regionParts (r.2.length / 4096 + 1) r
        let size := (parts.map fun p => p.length + 12).foldl (· + ·) 0
        let s1 := (forEach parts (fun s p => s.sendPartner 3 p) s).modDpx fun d => { d with ckptSent := all }
        if size ≤ s.linkBytes then (s1.sendPartner 4 (leBytes 8 n)).modDpx fun d => { d with ckptEnd := some s.now }
        else s1.modDpx fun d => { d with ckptNext := n + 4 * (size / max s.linkBytes 1 + 1) }

/-- CHECKPOINT_TIMEOUT (R318): a checkpoint is not complete within 2 s. -/
def execCheckpointTimeout (t : Time) (s : State) : Out :=
  live t s fun s =>
    if s.role = roleSyncing ∧ !s.dpx.installed ∧ s.dpx.since + 2000000000 ≤ s.now then s.syncFailed 2 else s

/-- DUPLEX_SYNCED (R318): 1 000 consecutive ring cycles without a mismatch after the checkpoint; the unit is the standby. -/
def execDuplexSynced (t : Time) (s : State) : Out :=
  live t s fun s =>
    if s.role = roleSyncing ∧ s.dpx.installed ∧ 1000 ≤ s.get Reg.DPX_SYNC.CMP_RUN then
      ((s.setRole roleStandby).set Reg.DPX_STAT.STALE 0).log Src.duplex Ev.DUPLEX_SYNCED (s.get Reg.DPX_SYNC.CKPT_MS) s.dpx.attempts
    else s

/-- The words that the LAWS section declares as the state of a slot (R312, R373). -/
def State.lawWords (s : State) (e sl : Nat) : List Nat :=
  match s.img.law? e sl with
  | some d => d.words
  | none => []

/-- The axis realigns with the snapshot of cycle number `b` (R311): ring cycles b to b + 3 are replayed, and its comparison resumes at the servo
boundary four ring cycles after that. -/
def State.realignAt (s : State) (a b : Nat) : State :=
  s.modDpx fun d => { d with realign := (d.realign.filter fun r => r.1 != a) ++ [(a, b + 8)] }

/-- LAW_STATE_RECEIVE (R311): the state words of an unaligned axis at a servo boundary arrive: the axis (4 bytes), the cycle number of the
snapshot (8 bytes), the words (4 bytes each), a layout the spec does not give (DESIGN CHOICE 30). -/
def execLawStateReceive (t : Time) (frame : List Byte) (s : State) : Out :=
  live t s fun s => s.rxPartner 5 frame fun s _ p =>
    let a := leAt p 0 4
    if !s.follows ∨ s.on Reg.DPX_STAT.LINK_LOST ∨ 256 ≤ a then s
    else
      match s.lawSlot a with
      | none => s
      | some (e, sl) =>
        let ws := (List.range ((p.length - 12) / 4)).map fun i => leAt p (12 + 4 * i) 4
        (forEach ((s.lawWords e sl).zip ws) (fun s w => s.putLe e w.1 w.2) s).realignAt a (leAt p 4 8)

/-! ### Comparison (R311) -/

/-- Axis `a` is unaligned. -/
def State.unaligned (s : State) (a : Nat) : Bool := bitAt (s.word (Reg.DPX_UNALIGNED (a / 32))) (a % 32)
/-- Mark axis `a` unaligned or aligned. -/
def State.setUnaligned (s : State) (a : Nat) (b : Bool) : State :=
  s.setWord (Reg.DPX_UNALIGNED (a / 32)) (withBit (s.word (Reg.DPX_UNALIGNED (a / 32))) (a % 32) b)

/-- The unit's own drive block of axis `a` for ring cycle `c`, from its recomputation record (R312). -/
def State.blockOf (s : State) (a c : Nat) : Option DriveBlock :=
  ((tget [] s.dpx.recomp a).find? fun r => r.cycle == c).bind (·.block)

/-- A divergence of axis `a` in ring cycle `c` begins to be resolved; only one at a time (R312). -/
def State.beginDivergence (s : State) (a c : Nat) : State :=
  if s.dpx.diverged.isSome then s
  else (s.addSat Reg.DPX_CMP.DIVERGENCES 1).modDpx fun d =>
    { d with diverged := some (a, c), own := none, partner := none, outcome := none, block := s.blockOf a c }

/-- The active realigns its unaligned axes over the partner link at a servo boundary (R311): the state words of each go in a LAW_STATE frame. -/
def State.sendLawStates (s : State) : State :=
  if s.role ≠ roleActive ∨ s.on Reg.DPX_STAT.LINK_LOST ∨ !(s.dpx.pRole == some roleStandby || s.dpx.pRole == some roleSyncing) then s
  else
    let n := s.dev.cycle.toNat
    forEach (s.img.axisIds.filter fun a => s.unaligned a && !(s.dpx.realign.any fun r => r.1 == a)) (fun s a =>
      match s.lawSlot a with
      | some (e, sl) =>
        (s.sendPartner 5 (leBytes 4 a ++ leBytes 8 n ++ (s.lawWords e sl).flatMap fun w => leBytes 4 (s.leWord e w))).realignAt a n
      | none => s) s

/-- The recomputation records of a ring cycle that begins (R312): the mailbox and state words of each axis, over 4 ring cycles. -/
def State.noteRecords (s : State) : State :=
  if !s.inPair then s
  else forEach s.img.axisIds (fun s a =>
    match s.lawSlot a with
    | some (e, sl) =>
      let r : Recomp := { cycle := s.dev.cycle.toNat, mbox := (List.range 32).map fun o => s.leWord e (mboxAddr sl o)
                          words := (s.lawWords e sl).map fun w => s.leWord e w, block := none }
      s.modDpx fun d => { d with recomp := tput [] d.recomp a ((r :: tget [] d.recomp a).take 4) }
    | none => s) s

/-- A slot of ring `k` mismatched (R311, R312). -/
def State.mismatch (s : State) (k i a : Nat) : State :=
  let n := tget 0 s.dpx.runs a + 1
  let s1 := (s.addSat Reg.DPX_CMP.MISMATCHES 1).modDpx fun d => { d with
    mism := true, runs := tput 0 d.runs a n, mismSlots := tput 0 d.mismSlots k (withBit (tget 0 d.mismSlots k) i true) }
  if 3 ≤ n ∧ s.role = roleStandby then s1.beginDivergence a (s.dev.cycle.toNat - 1) else s1

/-- The drive block as 8 bytes (R143). -/
def DriveBlock.bytes (d : DriveBlock) : List Nat := [d.cmd, 0] ++ leBytes 2 d.w0 ++ leBytes 2 d.w1 ++ leBytes 2 d.w2

/-- Does the poll that passed agree with the unit's own drive block (R311)? With HELD its values agree with those of the ring cycle
before. -/
def blockAgrees (poll : List Nat) (own before : DriveBlock) : Bool :=
  if bitAt (leAt poll 0 1) 4 then (poll.drop 2).take 6 == leBytes 2 before.w0 ++ leBytes 2 before.w1 ++ leBytes 2 before.w2
  else poll == own.bytes ++ List.replicate (10 - own.bytes.length) 0

/-- The comparison of slot `i` of ring `k`, which carries axis `a`, at the tap poll (R311). -/
def State.compareSlot (s : State) (k i a accept digest : Nat) : State :=
  let own := acceptMask (s.ring k).prev
  let w := s.word (Reg.SCHED_ACT k i)
  let rest := s.modDpx fun d => { d with runs := tput 0 d.runs a 0 }
  if bitAt accept i ≠ bitAt own i then rest.setUnaligned a true
  else if s.unaligned a ∨ s.nodeMuted k (entNode w) ∨ bitAt (s.get Reg.DPX_SUSPEND.RINGS) k then rest
  else if digest ≠ s.spDigest k then
    if s.on Reg.DPX_STAT.LINK_LOST then s.set Reg.DPX_SUSPEND.RINGS (withBit (s.get Reg.DPX_SUSPEND.RINGS) k true)
    else s.mismatch k i a
  else
    match tget [] s.dpx.polls (32 * k + i) with
    | [] => s
    | poll =>
      let x := s.axis a
      if blockAgrees poll x.block x.blockPrev then
        let s1 := s.modDpx fun d => { d with runs := tput 0 d.runs a 0 }
        if bitAt (leAt poll 0 1) 4 && !bitAt x.block.cmd 4 then match s1.lawSlot a with
          | some (e, sl) => (s1.set (Reg.LAW_STAT.CONSEC e sl) (s1.slot e sl).consecWas).overrun e sl a
          | none => s1
        else s1
      else s.mismatch k i a

/-- The active's OUTCOME of a divergence reaches a unit, which acts on it at the next servo boundary (R313). -/
def State.takeOutcome (s : State) (o : Nat) : State :=
  match s.dpx.diverged with
  | some (a, _) =>
    if s.dpx.outcome.isSome then s
    else
      let act := (if s.role = roleActive then s.dpx.own else s.dpx.partner).getD 0
      let stb := (if s.role = roleActive then s.dpx.partner else s.dpx.own).getD 0
      let s1 := ((s.set Reg.DPX_LAST.OUTCOME o).set Reg.DPX_LAST.AXIS a).modDpx fun d => { d with outcome := some o }
      s1.log Src.duplex Ev.DIVERGENCE (a + 256 * o) (act + 4 * stb)
  | none => s

/-- PROMO `p` is ahead of `q` by serial arithmetic modulo 256 (R314). -/
def promoAhead (p q : Nat) : Bool := let g := (p + 256 - q % 256) % 256; decide (0 < g) && decide (g < 128)

/-- What a tap poll means to a unit that is not ACTIVE (R309, R311–R314, R316). -/
def State.takeTapPoll (s : State) (k : Nat) (f : List Nat) : State :=
  let s1 := (s.set Reg.DPX_STAT.PROMO (leAt f 5 1)).modDpx fun d => { d with
    delays := tput 0 d.delays k (leAt f 6 2), mismSlots := tput 0 d.mismSlots k 0
    partner := if d.diverged.isSome ∧ leAt f 20 1 ≠ 0 then some (leAt f 20 1) else d.partner }
  let s2 := if s1.role = roleStandby ∨ (s1.role = roleSyncing ∧ s1.dpx.installed) then
      forEach (s1.axisSlots k) (fun s p => s.compareSlot k p.1 p.2 (leAt f 12 4) (leAt f 8 4)) s1
    else s1
  let s3 := (forN 32 (fun s i => s.modDpx fun d => { d with polls := tput [] d.polls (32 * k + i) [] }) s2)
  let s4 := if leAt f 21 1 ≠ 0 then s3.takeOutcome (leAt f 21 1) else s3
  if bitAt (leAt f 4 1) 4 ∧ s4.role = roleStandby then s4.modDpx fun d => { d with hoTake := true } else s4

/-- TAP_POLL_RECEIVE (R309, R311, R314): a tap poll passes through the unit at a port (`b`: SPk_B) of ring `k`, body and CRC in `frame`. As node
24 it acts on the poll of its acting port in the ring cycle of the cycle-start it has acted on, and answers it, with POLL_BAD where the poll is bad
(R196, R197). An ACTIVE unit that meets a foreign one with precedence falls silent at its next cycle-start. -/
def execTapPollReceive (t : Time) (k : Fin 16) (b : Bool) (frame : List Byte) (clean : Bool) (s : State) : Out :=
  live t s fun s =>
    let f := natBytes frame
    let k := k.val
    let ok := frameOk 38 f clean && leAt f 0 1 / 32 == 4 && leAt f 1 1 % 32 == 24 && leAt f 4 1 % 8 == roleActive
    if s.role = roleActive then
      let p := leAt f 5 1
      let own := s.get Reg.DPX_STAT.PROMO
      if ok && (promoAhead p own || (p == own && s.dpxPos == 1)) && !s.dpx.fall then
        (s.modDpx fun d => { d with fall := true }).log Src.duplex Ev.ROLE_CONFLICT own p
      else s
    else if !s.isNode then s
    else
      match s.acted k with
      | some (cyc, r, p) =>
        if p ≠ b ∨ r + ringNs ≤ s.now then s
        else
          let good := ok && leAt f 2 2 == cyc % 65536
          (if good && s.follows then s.takeTapPoll k f else s).sendTap k (!good)
      | none => s

/-- TAP_RESPONSE_RECEIVE (R309): the tap response of node 24 reaches the active on a port of ring `k`; accepted by R198, it tells the
partner's role, its verdict and a divergence. -/
def execTapResponseReceive (t : Time) (k : Fin 16) (b : Bool) (frame : List Byte) (clean : Bool) (s : State) : Out :=
  live t s fun s =>
    let f := natBytes frame
    let i := leAt f 0 1 % 32
    let has := fun (s : State) => match (s.ring k.val).cur with
      | some c => c.accepted.contains i
      | none => false
    let s1 := s.receiveResponse k.val b f clean
    if s.role = roleActive ∧ leAt f 0 1 / 32 = 4 ∧ !has s ∧ has s1 then
      let s2 := (s1.set Reg.DPX_STAT.PARTNER_SEEN 1).modDpx fun d => { d with
        tapRun := 0, pRole := some (leAt f 4 1 % 8), pStale := bitAt (leAt f 4 1) 4, pSynced := bitAt (leAt f 4 1) 5 }
      let s3 := if leAt f 21 1 % 2 = 1 then s2.beginDivergence (leAt f 22 1) (s.dev.cycle.toNat - 1) else s2
      if leAt f 20 1 ≠ 0 ∧ s3.dpx.diverged.isSome then s3.modDpx fun d => { d with partner := some (leAt f 20 1) } else s3
    else s1

/-! ### Divergence (R312, R313) -/

/-- VERDICT_READY (R312): the re-run of the diverged task on a spare engine ends within 16 ring cycles with W0–W2 of a drive block, which agree
with the unit's own drive block of that ring cycle or do not. -/
def execVerdictReady (t : Time) (w0 w1 w2 : BitVec 16) (s : State) : Out :=
  live t s fun s =>
    match s.dpx.diverged with
    | some (_, c) =>
      if s.dpx.own.isNone ∧ s.dev.cycle.toNat < c + 16 ∧ s.verdictEngine then
        match s.dpx.block with
        | some d =>
          s.modDpx fun x => { x with own := some (if [d.w0, d.w1, d.w2] = [w0.toNat, w1.toNat, w2.toNat] then 1 else 2) }
        | none => s
      else s
    | none => s

/-- OUTCOME by the two verdicts (R313). -/
def outcomeOf (active standby : Nat) : Nat := if active = 2 then (if standby = 2 then 4 else 2) else if standby = 2 then 3 else 1

/-- OUTCOME_DECIDE (R313): the active holds both verdicts, or 16 ring cycles have passed. -/
def execOutcomeDecide (t : Time) (s : State) : Out :=
  live t s fun s =>
    match s.dpx.diverged with
    | some (_, c) =>
      if s.role = roleActive ∧ s.dpx.outcome.isNone ∧ ((s.dpx.own.isSome ∧ s.dpx.partner.isSome) ∨ c + 16 ≤ s.dev.cycle.toNat) then
        s.takeOutcome (outcomeOf (s.dpx.own.getD 0) (s.dpx.partner.getD 0))
      else s
    | none => s

/-- SS1 of every island whose subtree holds the axis, and the axis is unaligned (R313). -/
def State.divergeStop (s : State) (a : Nat) : State :=
  let s1 := s.setUnaligned a true
  match s1.img.islandOf? a with
  | some i => forEach (i :: s1.img.ancestors i) State.ss1 s1
  | none => s1.askDisable a

/-- Both units act on OUTCOME at a servo boundary (R313). -/
def State.actOutcome (s : State) : State :=
  match s.dpx.diverged, s.dpx.outcome with
  | some (a, _), some o =>
    let s1 := s.modDpx fun d => { d with diverged := none, own := none, partner := none, outcome := none, runs := tput 0 d.runs a 0 }
    let s2 := if o = 1 ∨ o = 4 then s1.divergeStop a else s1
    if s2.role = roleActive then
      if o = 2 then s2.modDpx fun d => { d with hoReq := true, hoRole := roleFaulted } else s2
    else if (o = 3 ∨ o = 4) ∧ s2.role = roleStandby then s2.roleFault else s2
  | _, _ => s

/-! ### Promotion and handover (R314–R316) -/

/-- DUPLEX_LISTEN_TIMEOUT (R314, R452): the listen time of 2 ms + 2 ms × DPX_POS ends without an active: ACTIVE, with the bring-up of R210. -/
def execDuplexListenTimeout (t : Time) (s : State) : Out :=
  live t s fun s =>
    if s.role = roleListening ∧ s.dpx.since + 2000000 + 2000000 * s.dpxPos ≤ s.now then
      s.endListen fun s => (s.setRole roleActive).ringsStart
    else s

/-- This unit's own latched stop demands reach its motion side (R315). -/
def State.ownDemands (s : State) : State :=
  let g := s.chb.demands.foldl (fun m d => Nat.lor m d.groups) 0
  if g = 0 then s else s.takeDemand (1 :: leBytes 2 g)

/-- PROMOTION (R314, R315): the heartbeat is lost and every ring silent for 2 consecutive ring cycles; the standby takes over. -/
def execPromotion (t : Time) (s : State) : Out :=
  live t s fun s =>
    let missed := s.ringsMissing
    if s.role = roleStandby ∧ s.dpx.hbLost ∧ 2 ≤ missed then
      let late := match s.lastHeard with
        | some x => decide (x.2 + 4 * ringNs < s.now)
        | none => false
      let all := s.on Reg.DPX_STAT.STALE || late
      let cause := if s.dpx.relinquished then 1 else 2
      let next := s.masterInstant (s.dev.cycle.toNat + 1)
      let s1 := { s with dev := { s.dev with nextCycle := next } }.becomeActive ringFolded
      let s2 := (if all then s1.ss1All else s1).ownDemands
      s2.log Src.duplex Ev.SWITCHOVER (cause + 16 * b2n all + 256 * s2.get Reg.DPX_STAT.PROMO) missed
    else s

/-- The partner can take over: STANDBY, synchronised, not stale (R314). -/
def State.partnerFit (s : State) : Bool := s.dpx.pRole == some roleStandby && s.dpx.pSynced && !s.dpx.pStale

/-- DPX_HANDOVER (R314, R316): the host asks for a handover. -/
def State.wDpxHandover (s : State) : State :=
  if s.role = roleActive then
    if s.partnerFit then s.modDpx fun d => { d with hoReq := true, hoRole := roleStandby } else s.flag Reg.DPX_STAT.HO_REFUSED
  else s
/-- DPX_HANDOVER. -/
def execDpxHandover (t : Time) (s : State) : Out :=
  byHost t s Reg.DPX_CTRL 1 State.wDpxHandover

/-- DPX_REJOIN (R314): a FAULTED unit whose device state is BRING_UP or later listens again. -/
def State.wDpxRejoin (s : State) : State :=
  let st := s.devState
  if s.role = roleFaulted ∧ (st = devBringUp ∨ st = devReduced ∨ st = devAutomatic ∨ st = devStopping) then s.listen else s
/-- DPX_REJOIN. -/
def execDpxRejoin (t : Time) (s : State) : Out :=
  byHost t s Reg.DPX_CTRL 2 State.wDpxRejoin

/-! ### What a unit of a pair does at each ring cycle and servo boundary -/

/-- The groups with a demand of this unit's own channels, shown while it is not ACTIVE (R306, R320). -/
def State.showOwnDemand (s : State) : State :=
  let g := if s.role = roleActive ∨ s.role = roleSolo then 0 else s.chb.demands.foldl (fun m d => Nat.lor m d.groups) 0
  (s.set Reg.DPX_STAT.OWN_DEMAND (g % 256)).set Reg.DPX_STAT2.OWN_DEMAND_HI (g / 256)

/-- The start of a ring cycle in a pair, before the rings (R309, R314–R316, R318): role changes that wait for it, CMP_RUN, silence. -/
def State.dpxCycle (s : State) : State :=
  if s.role = roleSolo then s
  else
    let d := s.dpx
    let s1 :=
      if s.role = roleActive then
        let run := d.tapRun + 1
        let s1 := (if run = 8 then s.set Reg.DPX_STAT.PARTNER_SEEN 0 else s).modDpx fun d => { d with tapRun := run }
        if d.fall then s1.leaveActive roleFaulted
        else if d.hoSent then s1.leaveActive d.hoRole
        else if d.hoReq then s1.modDpx fun d => { d with hoReq := false, hoSent := true }
        else s1
      else if s.role = roleStandby ∧ d.hoTake then
        let s1 := s.becomeActive ringClosed
        s1.log Src.duplex Ev.SWITCHOVER (256 * s1.get Reg.DPX_STAT.PROMO) 0
      else s
    let s2 := if s1.role = roleStandby ∨ (s1.role = roleSyncing ∧ d.installed) then
        (s1.set Reg.DPX_SYNC.CMP_RUN (if d.mism then 0 else satInc 16 (s1.get Reg.DPX_SYNC.CMP_RUN))).modDpx fun d => { d with mism := false }
      else s1
    let s3 := if s2.role = roleSyncing ∧ d.mism then s2.syncFailed 3 else s2
    let silent := s3.ringIds.filter fun k => match tget none d.heard k with
      | some x => decide (x.1 + 1 < s3.dev.cycle.toNat)
      | none => true
    let s3 := if s3.role = roleSyncing ∧ (s3.ringIds.all fun k => s3.on (Reg.RING_STAT.VALID k)) then
        s3.modDpx fun d => { d with observed := true }
      else s3
    let s4 := if s3.follows then s3.set Reg.DPX_RING_MISS.SILENT (slotMask silent) else s3.set Reg.DPX_RING_MISS.SILENT 0
    s4.showOwnDemand

/-- The start of a servo cycle in a pair (R305–R307, R311, R313): heartbeats, the MIRROR frame of the next boundary, realigned axes,
suspensions, OUTCOME. -/
def State.dpxServo (s : State) : State :=
  if s.role = roleSolo then s
  else
    let d := s.dpx
    let s0 := s.modDpx fun d => { d with sent := [] }
    let s1 := if d.hbSeen then s0 else s0.set Reg.DPX_HB.MISS_RUN (satInc 8 (s0.get Reg.DPX_HB.MISS_RUN))
    let s2 := if s1.role = roleStandby ∧ d.hbSeen ∧ !s1.on Reg.DPX_STAT.LINK_LOST ∧ !d.mirSeen then s1.toSyncing else s1
    let n := s2.dev.cycle.toNat
    let back := (d.realign.filter fun r => decide (r.2 ≤ n)).map (·.1)
    let s3 := forEach back (fun s a => s.setUnaligned a false) (s2.set Reg.DPX_SUSPEND.RINGS 0)
    let s4 := s3.modDpx fun d => { d with
      hbSeen := false, mirSeen := false, hbCount := (d.hbCount + 1) % 2 ^ 32
      realign := d.realign.filter fun r => !decide (r.2 ≤ n) }
    let s5 := s4.sendPartner 1 s4.heartbeatBody
    let s6 := if s5.role = roleActive then
        let now := s5.mirrorOut.filter fun r => decide (r.use ≤ s5.servoNo + 1)
        let q := s5.dpx.seq
        let s6 := { s5 with mirrorOut := s5.mirrorOut.filter fun r => !decide (r.use ≤ s5.servoNo + 1) }
        (s6.sendPartner 2 (mirrorBytes now)).modDpx fun d => { d with kept := d.kept ++ [{ seq := q, records := now }] }
      else s5
    (s6.sendLawStates.sendCheckpoint).actOutcome

end Sys2Proof.Machine
end

