-- ==== Sys2Proof/Machine/RefLaw.lean ====
section
/-! DEFINITION. The reference law library (R94, R95, R139, R147) and its stepper stage (R153–R156): what these loop-engine programs
compute from the mailbox words and coefficients, in the law state of their slot. A main task whose slots name a law of the library computes
by it when it starts (DESIGN CHOICE 39): in exact arithmetic, its values rounded where a mailbox word takes them. -/

namespace Sys2Proof.Machine

/-! ### Coefficients (R96, R139) -/

/-- The indices that the library reads as FRAC alone (R139, and I_HOLD, I_RUN, I_BOOST of the stepper stage): V_LIM, ID_REF, INT_LIM_V,
INT_LIM_I, and 26–28. -/
def fracAlone (i : Nat) : Bool := [7, 8, 11, 25, 26, 27, 28].contains i

/-- The value of coefficient word `w` at index `i`: FRAC / 2^23, scaled by 2^EXP unless the index reads FRAC alone. -/
def refCoef (i w : Nat) : Rat :=
  let f := (sx 24 (bits w 0 24) : Rat) / 8388608
  if fracAlone i then f else f * (2 ^ bits w 24 4 : Nat)

/-! ### Sine and cosine as SCS gives them (R131) -/

/-- π to within 2^-50. -/
def piRat : Rat := 884279719003555 / 281474976710656

/-- The sine and the cosine of an angle of at most π/4, to within 2^-36. -/
def sinSeries (x : Rat) : Rat := x - x ^ 3 / 6 + x ^ 5 / 120 - x ^ 7 / 5040 + x ^ 9 / 362880 - x ^ 11 / 39916800
def cosSeries (x : Rat) : Rat := 1 - x ^ 2 / 2 + x ^ 4 / 24 - x ^ 6 / 720 + x ^ 8 / 40320 - x ^ 10 / 3628800 + x ^ 12 / 479001600

/-- The sine of `r` 2^-24 revolutions in the first quadrant, by octants. -/
def sinQuarter (r : Nat) : Rat :=
  if r ≤ 2 ^ 21 then sinSeries (2 * piRat * r / 16777216) else cosSeries (2 * piRat * (2 ^ 22 - r : Nat) / 16777216)

/-- The sine of `n` 2^-24 revolutions to within 2^-36. -/
def sinTurn (n : Nat) : Rat :=
  let r := n % 2 ^ 22
  match n % 2 ^ 24 / 2 ^ 22 with
  | 0 => sinQuarter r
  | 1 => sinQuarter (2 ^ 22 - r)
  | 2 => -sinQuarter r
  | _ => -sinQuarter (2 ^ 22 - r)

/-- A 24-bit fraction within 2^-22 of `v`: the word `c` where it is, otherwise `v` rounded down and saturated. -/
def nearWord (c : BitVec 24) (v : Rat) : Nat :=
  if rabs ((sx 24 c.toNat : Rat) / 8388608 - v) ≤ 1 / 4194304 then c.toNat else ux 24 (satS 24 (v * 8388608).floor)

/-- The words that SCS gives for the sine and the cosine of an angle of `n` 2^-24 revolutions: free values within 2^-22 (R131). -/
def sinWord (n : Nat) : Nat := nearWord (Config.sin24 (BitVec.ofNat 24 n)) (sinTurn n)
def cosWord (n : Nat) : Nat := nearWord (Config.cos24 (BitVec.ofNat 24 n)) (sinTurn (n + 2 ^ 22))

/-- Sine and cosine of an angle word as fractions. -/
def sinFrac (n : Nat) : Rat := (sx 24 (sinWord n) : Rat) / 8388608
def cosFrac (n : Nat) : Rat := (sx 24 (cosWord n) : Rat) / 8388608

/-! ### The law state (R94, R95, R97) -/
/-- `v` held between −`l` and `l`. -/
def clampTo (l v : Rat) : Rat := max (-l) (min l v)

/-- A biquad in direct form I with the coefficients B0, B1, B2, A1, A2 from index `i` on (R94). -/
def biquad (c : Nat → Rat) (i : Nat) (h : Biquad) (x : Rat) : Rat × Biquad :=
  let y := c i * x + c (i + 1) * h.x1 + c (i + 2) * h.x2 - c (i + 3) * h.y1 - c (i + 4) * h.y2
  (y, ⟨x, h.x1, y, h.y1⟩)

/-- The servo-rate part (R94): e_x, v*, τ* and ω of the sample, and the present current limit. -/
def servoLaw (c : Nat → Rat) (q : RefLaw) (ex v tau w ilim : Rat) : RefLaw :=
  let ew := c 23 * v + c 22 * ex - w
  let iv := if q.limited then q.iv else clampTo (c 11) (q.iv + c 10 * ew)
  let f1 := biquad c 12 q.bq1 (c 9 * ew + iv)
  let f2 := biquad c 17 q.bq2 f1.1
  let r := f2.1 + c 24 * tau
  { q with iv := iv, bq1 := f1.2, bq2 := f2.2, iqRef := clampTo ilim r, limited := clampTo ilim r != r, idRef := c 8, ew := ew }

/-- The Clarke and Park transforms of the phase currents at an electrical angle of this sine and cosine (R95): (id, iq), the inverse of the
transforms of R147. -/
def parkOf (ia ib sn cs : Rat) : Rat × Rat :=
  let al := ia
  let be := (ia + 2 * ib) / Config.sqrt 3
  (al * cs + be * sn, be * cs - al * sn)

/-- vd and vq scaled by one factor so that their magnitude is at most `lim`, and whether they were (R95 step 4). -/
def voltLimit (vd vq lim : Rat) : Rat × Rat × Bool :=
  if vd * vd + vq * vq ≤ lim * lim then (vd, vq, false)
  else
    let k := lim / Config.sqrt (vd * vd + vq * vq)
    (vd * k, vq * k, true)

/-- The ring-rate part of a servo channel (R95 steps 2–6): the new law state, vd and vq. -/
def ringLaw (c : Nat → Rat) (q : RefLaw) (id iq we : Rat) : RefLaw × Rat × Rat :=
  let ed := q.idRef - id
  let eq := q.iqRef - iq
  let l := voltLimit (c 0 * ed + q.id - we * c 5 * iq) (c 2 * eq + q.iq + we * (c 4 * id + c 6)) (c 7)
  let q' := if l.2.2 then q else { q with id := clampTo (c 25) (q.id + c 1 * ed), iq := clampTo (c 25) (q.iq + c 3 * eq) }
  ({ q' with ed := ed, eq := eq, mid := id, miq := iq }, l.1, l.2.1)

/-- The ring-rate part of a two-phase stepper (R95): phase A by KP_D and KI_D, phase B by KP_Q and KI_Q, without decoupling, from the
references of the stepper stage. -/
def stepperLaw (c : Nat → Rat) (q : RefLaw) (iaRef ibRef ia ib : Rat) : RefLaw × Rat × Rat :=
  let ea := iaRef - ia
  let eb := ibRef - ib
  let l := voltLimit (c 0 * ea + q.id) (c 2 * eb + q.iq) (c 7)
  let q' := if l.2.2 then q else { q with id := clampTo (c 25) (q.id + c 1 * ea), iq := clampTo (c 25) (q.iq + c 3 * eb) }
  ({ q' with ed := ea, eq := eb, mid := ia, miq := ib }, l.1, l.2.1)

/-- The ring-rate part of a DC channel (R95): KP_Q and KI_Q alone. -/
def dcLaw (c : Nat → Rat) (q : RefLaw) (ia : Rat) : RefLaw × Rat :=
  let eq := q.iqRef - ia
  let l := voltLimit 0 (c 2 * eq + q.iq) (c 7)
  let q' := if l.2.2 then q else { q with iq := clampTo (c 25) (q.iq + c 3 * eq) }
  ({ q' with ed := 0, eq := eq, mid := 0, miq := ia }, l.2.1)

/-! ### Modulation (R147) -/

/-- The largest duty, 1 − 2^−23. -/
def dutyMax : Rat := 8388607 / 8388608

/-- A voltage as a fraction of the bus voltage; a free value at a bus voltage of 0 (R147 states none). -/
def overUdc (v udc : Rat) : Rat := if udc = 0 then Config.overZero v else v / udc

/-- A servo duty of phase voltage `v` with the common voltage `v0`: clamped to [0, 1 − 2^−23] (R147 step 4). -/
def phaseDuty (v v0 udc : Rat) : Rat := max 0 (min dutyMax (1 / 2 + overUdc (v + v0) udc))

/-- The routine svm (R147): the duties of the three phases. -/
def svm (vd vq sn cs udc : Rat) : Rat × Rat × Rat :=
  let al := vd * cs - vq * sn
  let be := vd * sn + vq * cs
  let b := -al / 2 + Config.sqrt 3 / 2 * be
  let c := -al / 2 - Config.sqrt 3 / 2 * be
  let v0 := -(max (max al b) c + min (min al b) c) / 2
  (phaseDuty al v0 udc, phaseDuty b v0 udc, phaseDuty c v0 udc)

/-- The duty of one phase of a stepper or DC channel (R147): v/UDC, clamped to [−1, 1 − 2^−23]. -/
def singleDuty (v udc : Rat) : Rat := max (-1) (min dutyMax (overUdc v udc))

/-! ### The stepper stage (R153–R156) -/

/-- The coarsest grid whose range holds speed `sp` in full steps per second (R153): 8 is full steps. -/
def gridFor (sp base : Rat) : Nat := ((List.range 8).find? fun k => decide (sp ≤ base * (2 ^ k : Nat))).getD 8

/-- The grid after a sample at speed `sp` (R153): coarser as the speed passes a threshold, finer only below 7/8 of it. -/
def gridNext (k : Nat) (sp base : Rat) : Nat :=
  let up := gridFor sp base
  if k ≤ up then up else ((List.range k).find? fun j => up ≤ j && decide (sp < 7 / 8 * (base * (2 ^ j : Nat)))).getD k

/-- Microsteps per full step of grid `k` (R153). -/
def microsteps (k : Nat) : Nat := 256 / 2 ^ k

/-- The microstep at or below position `x`, in full steps (R153): of `r` to a full step. -/
def gridPoint (x : Rat) (r : Nat) : Int := (x * r).floor

/-- φ of a grid point in degrees, one full step being 90° (R153). -/
def phiDeg (n : Int) (r : Nat) : Rat := 90 * (n : Rat) / r

/-- An angle in degrees wrapped to −180° to +180° (R156). -/
def wrapDeg (d : Rat) : Rat := d - 360 * ((d + 180) / 360).floor

/-- The load angle δ: φ minus the measured electrical angle, wrapped (R156). -/
def loadAngle (phi theta : Rat) : Rat := wrapDeg (phi - theta)

/-- δ as the word DL_W of a stepper law: a signed fraction of 180° (R157). -/
def loadWord (d : Rat) : Nat := ux 24 (d / 180 * 8388608).floor

/-- The coil current (R156): the least of I_BOOST, the limit of the i²t model, and I_base raised by the load angle. -/
def coilCurrent (c : Nat → Rat) (atRest : Bool) (ilim delta : Rat) : Rat :=
  min (c 28) (min ilim ((if atRest then c 26 else c 27) + c 29 * rabs delta / 90))

/-- The references of phase A and phase B in normal service (R153): I_c cos φ and I_c sin φ, computed with SCS. -/
def normalRefs (n : Int) (r : Nat) (ic : Rat) : Rat × Rat :=
  let a := ux 24 (n * 4194304 / r)
  (ic * cosFrac a, ic * sinFrac a)

/-- Entry `k` of wave table `t` of an engine, as a fraction of I_c; entry 256 is 65 535 (R154). -/
def State.waveEntry (s : State) (e t k : Nat) : Rat :=
  if 256 ≤ k then 1 else (bits (s.leWord e (0xF000 + 256 * t + k)) 0 16 : Rat) / 65535

/-- The references of phase A and phase B in table mode (R154): microstep `k` of quadrant `q`, by the entries a(k) and b(k). -/
def tableRefs (w : Nat → Rat) (q k : Nat) (ic : Rat) : Rat × Rat :=
  let a := w k
  let b := w (256 - k)
  let p := if q = 0 then (b, a) else if q = 1 then (-a, b) else if q = 2 then (-b, -a) else (a, -b)
  (ic * p.1, ic * p.2)

/-- STEP_MODE of a coefficient word: TABLE and FORCE (index 31). -/
def stepTable (w : Nat) : Nat := bits w 0 1
def stepForce (w : Nat) : Bool := bitAt w 1

/-- The stage in a ring cycle with load angle `d` (R155): beyond 90° it enters table mode. -/
def StepStage.ring (x : StepStage) (d : Rat) : StepStage := if 90 < rabs d then { x with table := true, moving := false } else x

/-- The stage at a servo boundary (R153, R155): v*, its magnitude in full steps per second, MS_BASE and FORCE. A complete move begins as v*
leaves 0 and ends when v* has been 0 for 16 samples; it ends table mode, which FORCE keeps while it is set (DEDUCED 39). The grid and the
mode are in force from this boundary on. -/
def StepStage.servo (x : StepStage) (v sp base : Rat) (force : Bool) : StepStage :=
  let rest := if v = 0 then min 16 (x.rest + 1) else 0
  let moving := x.moving || (decide (v ≠ 0) && !x.going)
  let stop := moving && decide (rest = 16)
  let k := gridNext x.k sp base
  { k := k, table := x.table && !stop, moving := moving && !stop, going := decide (v ≠ 0), rest := rest
    useK := k, useTable := (x.table && !stop) || force }

/-- The phase references of a stepper axis of engine `e` at position `x` in full steps (R153–R156), by its coefficients, STEP_MODE, θe in
degrees and the limit of the i²t model; with the load angle that the law writes into DL_W. -/
def State.stepRefs (s : State) (e : Nat) (c : Nat → Rat) (mode : Nat) (st : StepStage) (x theta ilim : Rat) : (Rat × Rat) × Rat :=
  let r := if st.useTable then 256 else microsteps st.useK
  let n := gridPoint x r
  let d := loadAngle (phiDeg n r) theta
  let ic := coilCurrent c (decide (st.rest = 16)) ilim d
  (if st.useTable then tableRefs (s.waveEntry e (stepTable mode)) ((n / 256) % 4).toNat (n % 256).toNat ic else normalRefs n r ic, d)

/-! ### A task of the library (R94, R95, R153–R157) -/

/-- A position setpoint and a setpoint speed of axis `a` in full steps and full steps per second (R153, R375). -/
def State.fullSteps (s : State) (a : Nat) : Rat × Rat :=
  let per : Rat := ((s.img.axis? a).map (·.perStep)).getD 0
  ((s.countsOf a (s.setpt a).x : Rat) / 16777216 / per, rabs ((s.setpt a).v / s.scaleOf a) / per)

/-- The reference law of slot `sl` of engine `e`, which axis `a` occupies, computes for a ring cycle (`srv`: it begins a servo cycle) with the
bank and the quiet mode its task's window presents: its law state and the words DL_U, DL_V and DL_W. -/
def State.refRun (s : State) (e sl a bank : Nat) (quiet srv : Bool) : State :=
  let m := fun (o : Nat) => (sx 24 (s.leWord e (mboxAddr sl o)) : Rat) / 8388608
  let w := fun (i : Nat) => s.windowCoef e sl bank i quiet
  let c := fun (i : Nat) => refCoef i (w i)
  let z := s.slot e sl
  let q := if srv then servoLaw c z.ref (m 0x10) (m 0x11) (m 0x12) (m 6) (m 12) else z.ref
  let th := s.leWord e (mboxAddr sl 5)
  let udc := m 4
  let put := fun (q' : RefLaw) (st : StepStage) (l : List (Nat × Nat)) =>
    (s.modSlot e sl fun y => { y with ref := q', stage := st }).putMbox e sl l
  match s.get (Reg.AX_CFG.KIND a) with
  | 0 =>
    let i := parkOf (m 1) (m 2) (sinFrac th) (cosFrac th)
    let r := ringLaw c q i.1 i.2 (m 7)
    let d := svm r.2.1 r.2.2 (sinFrac th) (cosFrac th) udc
    put r.1 z.stage [(0x20, fracWord d.1), (0x21, fracWord d.2.1), (0x22, fracWord d.2.2)]
  | 1 =>
    let p := s.fullSteps a
    let st := if srv then z.stage.servo (s.setpt a).v p.2 (c 30) (stepForce (w 31)) else z.stage
    let g := s.stepRefs e c (w 31) st p.1 (360 * (th : Rat) / 16777216) (m 12)
    let r := stepperLaw c q g.1.1 g.1.2 (m 1) (m 2)
    put r.1 (st.ring g.2) [(0x20, fracWord (singleDuty r.2.1 udc)), (0x21, fracWord (singleDuty r.2.2 udc)), (0x22, loadWord g.2)]
  | _ =>
    let r := dcLaw c q (m 1)
    put r.1 z.stage [(0x20, fracWord (singleDuty r.2 udc))]

end Sys2Proof.Machine
end

