-- ==== Sys2Proof/Machine/Engine.lean ====
section
/-! DEFINITION. The loop engine: register sets, flags, addressing, interlocks, loops, faults, and the tasks (R117–R138). -/

namespace Sys2Proof.Machine

/-! ### Register sets (R120, R121) -/

/-- The register set in use on engine `e`. -/
def State.set' (s : State) (e : Nat) : LeSet := if (s.eng e).onExt then (s.eng e).ext else (s.eng e).main

/-- Replace the register set in use on engine `e`. -/
def State.putSet (s : State) (e : Nat) (x : LeSet) : State :=
  s.modEng e fun y => if y.onExt then { y with ext := x } else { y with main := x }

/-- The physical register of dN (R121). -/
def LeSet.phys (x : LeSet) (n : Nat) : Nat := if n < 16 then n else 16 + (n - 16 + x.rrb) % 16
/-- dN as 24 bits. -/
def LeSet.getD (x : LeSet) (n : Nat) : Nat := tget 0 x.d (x.phys n)
/-- dN as a signed integer. -/
def LeSet.sD (x : LeSet) (n : Nat) : Int := sx 24 (x.getD n)
/-- Write dN. -/
def LeSet.putD (x : LeSet) (n v : Nat) : LeSet := { x with d := tput 0 x.d (x.phys n) (v % 2 ^ 24) }
/-- aN as a signed integer. -/
def LeSet.sA (x : LeSet) (n : Nat) : Int := sx 56 (tget 0 x.a n)
/-- Write aN. -/
def LeSet.putA (x : LeSet) (n : Nat) (v : Int) : LeSet := { x with a := tput 0 x.a n (ux 56 v) }
/-- pN. -/
def LeSet.getP (x : LeSet) (n : Nat) : Nat := tget 0 x.p n
/-- Write pN. -/
def LeSet.putP (x : LeSet) (n v : Nat) : LeSet := { x with p := tput 0 x.p n (v % 2 ^ 18) }

/-! ### Flags (R120, R123, R124) -/

/-- A bit of sr. -/
def LeSet.bit (x : LeSet) (i : Nat) : Bool := bitAt x.sr i
/-- Write a bit of sr. -/
def LeSet.putBit (x : LeSet) (i : Nat) (b : Bool) : LeSet := { x with sr := withBit x.sr i b }

/-- The bits of sr: N, Z, V, E, L, RM, SATA. -/
def srN : Nat := 0
def srZ : Nat := 1
def srV : Nat := 2
def srE : Nat := 3
def srL : Nat := 4
def srRM : Nat := 8
def srSATA : Nat := 9

/-- N and Z from a result. -/
def LeSet.flagNZ (x : LeSet) (v : Int) : LeSet := (x.putBit srN (decide (v < 0))).putBit srZ (decide (v = 0))
/-- V as given, and L set where it is. -/
def LeSet.flagVL (x : LeSet) (b : Bool) : LeSet := let y := x.putBit srV b; if b then y.putBit srL true else y
/-- L is set where `b`. -/
def LeSet.flagL (x : LeSet) (b : Bool) : LeSet := if b then x.putBit srL true else x
/-- E: an accumulator value outside [-1, 1). -/
def LeSet.flagE (x : LeSet) (v : Int) : LeSet := x.putBit srE (decide (v < -(2 ^ 47)) || decide (2 ^ 47 ≤ v))

/-- A value leaves the signed range of `n` bits. -/
def outS (n : Nat) (v : Int) : Bool := decide (v < -(2 ^ (n - 1))) || decide (2 ^ (n - 1) ≤ v)

/-- A saturated d-register result with N, Z, V and L (R123). -/
def LeSet.resD (x : LeSet) (n : Nat) (v : Int) : LeSet :=
  let r := satS 24 v
  ((x.putD n (ux 24 r)).flagNZ r).flagVL (outS 24 v)

/-- A d-register result with N and Z. -/
def LeSet.resNZ (x : LeSet) (n v : Nat) : LeSet := (x.putD n v).flagNZ (sx 24 v)

/-- An accumulator result with N, Z, E, V and L (R123). -/
def LeSet.resA (x : LeSet) (n : Nat) (v : Int) : LeSet :=
  let r := satS 56 v
  (((x.putA n r).flagNZ r).flagE r).flagVL (outS 56 v)

/-- An accumulator result that cannot overflow, with N, Z and E. -/
def LeSet.resAE (x : LeSet) (n : Nat) (v : Int) : LeSet := ((x.putA n v).flagNZ v).flagE v

/-- A condition code (R134). -/
def LeSet.cond (x : LeSet) (srv : Bool) (c : Nat) : Bool :=
  let n := x.bit srN
  let z := x.bit srZ
  match c with
  | 0 => true
  | 1 => z
  | 2 => !z
  | 3 => n
  | 4 => !n
  | 5 => !n && !z
  | 6 => n || z
  | 7 => x.bit srV
  | 8 => !x.bit srV
  | 9 => x.bit srL
  | 10 => !x.bit srL
  | 11 => x.bit srE
  | 12 => !x.bit srE
  | 13 => srv
  | 14 => !srv
  | _ => false

/-! ### Interlocks (R135) -/

/-- Resource codes: d registers by physical number, then a, p, m, l, b, sr, lc. -/
def resA (n : Nat) : Nat := 32 + n
def resP (n : Nat) : Nat := 40 + n
def resM (n : Nat) : Nat := 48 + n
def resL (n : Nat) : Nat := 56 + n
def resB (n : Nat) : Nat := 64 + n
def resSr : Nat := 72
def resLc : Nat := 73

/-- Kinds of producer: 0 a load, 1 a write of an accumulator, 2 SCS, RSQ or RCP, 3 a write of p, m, l or b, 4 of sr, 5 of lc. Kinds of use:
0 any read, 1 a read of an accumulator by RDA, RDT, EXPA, RSQ, STH or STL, 2 address generation or pointer arithmetic, 3 JCC or SEL,
4 LOOP with CNTREG. The stalls of R135 at a distance. -/
def stallOf (single : Bool) (p : Prod) (dist : Nat) (use : Nat × Nat) : Nat :=
  if p.res ≠ use.2 then 0
  else
    match p.kind with
    | 0 => if single then 3 - dist else 2 - dist
    | 1 => if use.1 = 1 then 2 - dist else 0
    | 2 => 4 - dist
    | 3 => if use.1 = 2 then 3 - dist else 0
    | 4 => if use.1 = 3 then 2 - dist else 0
    | _ => if use.1 = 4 then 2 - dist else 0

/-- The stall cycles of an instruction with these uses after the last instructions (R135). -/
def stalls (single : Bool) (uses : List (Nat × Nat)) : Nat → List (List Prod) → Nat
  | _, [] => 0
  | dist, ps :: rest =>
    max (uses.foldl (fun m u => ps.foldl (fun m p => max m (stallOf single p dist u)) m) 0) (stalls single uses (dist + 1) rest)

/-! ### Faults and the end of a task (R126, R133, R136) -/

/-- The valid tasks of engine `e`: main ones or extensions. -/
def State.tasksOf (s : State) (e : Nat) (ext : Bool) : List Nat :=
  (List.range 32).filter fun t => s.on (Reg.TASK_ENTRY.VALID e t) && s.on (Reg.TASK_ENTRY.EXT e t) == ext

/-- LE_PC shows the set in use. -/
def State.syncPc (s : State) (e : Nat) : State :=
  let x := s.set' e
  ((s.setB (Reg.LE_PC.RUNNING e) x.task.isSome).setB (Reg.LE_PC.SET e) (s.eng e).onExt).set (Reg.LE_PC.PC e) x.pc

/-- After the last main task of a ring cycle has ended, every extension task becomes ready; one that still runs is skipped (R126). While they
are shed none does (R106). -/
def State.extInstances (s : State) (e n : Nat) : State :=
  if !(s.tasksOf e false).all fun t => (s.eng e).ended.contains (t, n) then s
  else
    let s1 := s.modEng e fun y => { y with ended := y.ended.filter fun p => p.2 != n }
    if (s.eng e).shed then s1
    else forEach (s.tasksOf e true) (fun s t =>
      if (s.eng e).ext.task = some t then (s.flag (Reg.LE_PSTAT.EXT_SKIP e)).addMod (Reg.LE_PSTAT.EXT_SKIPS e) 1
      else s.modEng e fun y => if y.extReady.contains t then y else { y with extReady := y.extReady ++ [t] }) s1

/-- The place in the order of arrival of the last uplink of a task for ring cycle `n`; none while one is missing (R105, R109). -/
def State.taskOrder (s : State) (e t n : Nat) : Option Nat :=
  let sl := onesBelow 24 (s.get (Reg.TASK_SLOTS.SLOTS e t))
  let arr := (s.eng e).arrived
  if sl ≠ [] ∧ sl.all fun k => arr.contains (k, n) then some (sl.foldl (fun m k => max m (arr.idxOf (k, n))) 0) else none

/-- The main task that starts next, with its ring cycle: ready, by the order of arrival (R105, R109). -/
def State.nextMain (s : State) (e : Nat) : Option (Nat × Nat) :=
  let ns := ((s.eng e).arrived.map (·.2)).eraseDups
  let r := (s.tasksOf e false).flatMap fun t => ns.filterMap fun n => (s.taskOrder e t n).map fun o => (o, t, n)
  (r.find? fun p => r.all fun q => p.1 ≤ q.1).map (·.2)

/-- The running task ends (R126): after a main task, a pre-empted extension task goes on where no main task is ready, at the cost of a
switch. -/
def State.endTask (s : State) (e : Nat) : State :=
  let x := s.eng e
  if x.onExt then (s.modEng e fun y => { y with ext := { y.ext with task := none } }).syncPc e
  else
    let s1 := s.modEng e fun y => { y with
      main := { y.main with task := none }, ended := y.ended ++ (x.main.task.toList.map fun t => (t, x.main.born)) }
    let s2 := if x.ext.task.isSome ∧ (s.nextMain e).isNone then
        s1.modEng e fun y => { y with onExt := true, cycles := y.cycles + 2 }
      else s1
    (if x.main.task.isSome then s2.extInstances e x.main.born else s2).syncPc e

/-- An engine fault (R136): LE_FAULT, FAULTED, LAW_FAULT, and the running task ends at the faulting instruction. -/
def State.leFault (s : State) (e cause : Nat) : State :=
  let x := s.set' e
  let set1 := b2n (s.eng e).onExt
  let s1 := ((s.set (Reg.LE_FAULT.PC e) x.pc).set (Reg.LE_FAULT.CAUSE e) cause).addSat (Reg.LE_FAULT.COUNT e) 1
  let s2 := (s1.flag (Reg.LE_PSTAT.FAULTED e)).log (s.engineSrc e) Ev.LAW_FAULT (cause + 16 * set1 + 262144 * x.pc) (x.task.getD 0)
  s2.endTask e

/-! ### Sequencing (R128) -/

/-- The end of a pass of every loop whose body ends at `pc`: the loop stack, the next pc and rrb after it. -/
def loopEnd (pc : Nat) : List LoopFr → Nat → List LoopFr × Nat × Nat
  | [], rrb => ([], pc + 1, rrb)
  | f :: rest, rrb =>
    if f.last = pc then
      let r := if f.rot then (rrb + 15) % 16 else rrb
      if 1 < f.left then ({ f with left := f.left - 1 } :: rest, f.first, r) else loopEnd pc rest r
    else (f :: rest, pc + 1, rrb)

/-- The set goes on after the instruction at `pc`. -/
def LeSet.after (x : LeSet) (pc : Nat) : LeSet :=
  let r := loopEnd pc x.loops x.rrb
  { x with loops := r.1, pc := r.2.1, rrb := r.2.2 }

/-- A taken branch to `t` ends every loop, innermost first, whose body does not hold the target. -/
def leaveLoops (t : Nat) : List LoopFr → List LoopFr
  | [] => []
  | f :: rest => if f.first ≤ t ∧ t ≤ f.last then f :: rest else leaveLoops t rest

/-- An instruction completes with the set `x` (its pc still that of the next instruction to run): cycles, interlocks, LE_PC; a pc past
0x3FFF is a fault (R136). -/
def State.leDone (s : State) (e cost : Nat) (uses : List (Nat × Nat)) (prods : List Prod) (x : LeSet) : State :=
  let n := cost + stalls (s.on (Reg.LE_CFG.OPMODE e)) uses 1 x.prods
  let s1 := s.modEng e fun y => { y with cycles := y.cycles + n }
  if 0x3FFF < x.pc then s1.leFault e 6
  else (s1.putSet e { x with prods := (prods :: x.prods).take 3 }).syncPc e

/-- A register instruction of one cycle: `f` on the set in use, then the next instruction. -/
def State.leAlu (s : State) (e : Nat) (uses : LeSet → List (Nat × Nat)) (prods : LeSet → List Prod) (f : LeSet → LeSet) : State :=
  let x := s.set' e
  s.leDone e 1 (uses x) (prods x) ((f x).after x.pc)

/-- Reads of d registers. -/
def useD (l : List Nat) (x : LeSet) : List (Nat × Nat) := l.map fun n => (0, x.phys n)
/-- Reads of accumulators, of use kind `k`. -/
def useA (k : Nat) (l : List Nat) : List (Nat × Nat) := l.map fun n => (k, resA n)
/-- An accumulator is written. -/
def madeA (l : List Nat) : List Prod := l.map fun n => ⟨1, resA n⟩
/-- Nothing of interest to a later instruction. -/
def madeNone (_ : LeSet) : List Prod := []

/-! ### Data access (R117–R119, R125) -/

/-- A load by a law: the word, or nothing at an unassigned address. -/
def State.leLoad (s : State) (e a : Nat) : Option Nat :=
  if a = 0x10602 then some (s.cycleFlags e (s.eng e).onExt)
  else if a < 0x10800 ∨ (0x13000 ≤ a ∧ a < 0x13022) then some (s.leWord e a)
  else if 0x12000 ≤ a ∧ a < 0x12600 then
    let sl := (a - 0x12000) / 64
    let x := s.set' e
    some (s.windowCoef e sl (bits x.window sl 1) (a % 64) (bitAt x.quiet sl))
  else none

/-- The fault of a store by a law at an address: 0 none, 2 unassigned, 3 read-only (R136). -/
def storeFault (a : Nat) : Nat :=
  if a < 0x10000 then 0
  else if a < 0x10600 then
    let o := a % 64
    if (0x20 ≤ o ∧ o ≤ 0x22) ∨ (0x30 ≤ o ∧ o ≤ 0x3D) then 0 else 3
  else if a < 0x10800 ∨ (0x12000 ≤ a ∧ a < 0x12600) ∨ (0x13000 ≤ a ∧ a < 0x13022) then 3
  else 2

/-- The memory an address lies in, for R119: 0 X, 1 Y, 2 the areas with one access per cycle. -/
def memBank (a : Nat) : Nat := if a < 0x8000 then 0 else if a < 0x10000 then 1 else 2

/-- The address of an operand and the pointer after it (R125): pointer, update code, OFF. -/
def LeSet.ea (x : LeSet) (p u : Nat) (off : Int) : Nat × Nat :=
  let v : Int := x.getP p
  let m := sx 18 (tget 0 x.m p)
  let l : Int := (tget 0 x.l p : Nat)
  let b : Int := (tget 0 x.b p : Nat)
  match u with
  | 0 => (ux 18 (v + off), x.getP p)
  | 1 => (x.getP p, ux 18 (v + 1))
  | 2 => (x.getP p, ux 18 (v + m))
  | _ => (x.getP p, if l = 0 then ux 18 (v + m) else ux 18 (b + (v + m - b) % l))

/-- What address generation reads (R135). -/
def useEa (p u : Nat) : List (Nat × Nat) :=
  (2, resP p) :: (if u = 2 then [(2, resM p)] else if u = 3 then [(2, resM p), (2, resL p), (2, resB p)] else [])

/-- A load instruction (R132): the operand's word is taken by `f` after the pointer's update; an unassigned address is fault 2. -/
def State.leRead (s : State) (e p u : Nat) (off : Int) (prods : LeSet → List Prod) (f : LeSet → Nat → LeSet) : State :=
  let x := s.set' e
  let r := x.ea p u off
  match s.leLoad e r.1 with
  | none => s.leFault e 2
  | some w => s.leDone e 1 (useEa p u) (prods x) ((f (x.putP p r.2) w).after x.pc)

/-- A store instruction (R132) of the word `f` gives. -/
def State.leWrite (s : State) (e p u : Nat) (off : Int) (uses : LeSet → List (Nat × Nat)) (f : LeSet → Nat) : State :=
  let x := s.set' e
  let r := x.ea p u off
  match storeFault r.1 with
  | 0 => (s.putLe e r.1 (f x)).leDone e 1 (useEa p u ++ uses x) [] ((x.putP p r.2).after x.pc)
  | c => s.leFault e c

/-! ### Products (R123, R130) -/

/-- A product or accumulation: 0 MPY, 1 MAC, 2 MSU; the exact result. -/
def accum (op : Nat) (acc p : Int) : Int := match op with
  | 0 => p
  | 1 => acc + p
  | _ => acc - p

/-- A Format P result (R130): saturated to 56 bits, and under SATA to [-1, 1 - 2^-47]; its value, V and L. -/
def prodResult (sata : Bool) (v : Int) : Int × Bool × Bool :=
  let r := satS 56 v
  let o := outS 56 v
  if sata && outS 48 r then (satS 48 r, o, true) else (r, o, o)

/-- One move of a Format P instruction on a set: the set and the address read, or nothing at an unassigned address. -/
def State.leMove (s : State) (e : Nat) (x : LeSet) (m : PMove) : Option (LeSet × Nat) :=
  let r := x.ea m.p.val (if m.u then 3 else 1) 0
  (s.leLoad e r.1).map fun w => ((x.putP m.p.val r.2).putD m.d.val (w % 2 ^ 24), r.1)

/-- A move that may be absent: the set, and the address read. -/
def State.leMove? (s : State) (e : Nat) (x : LeSet) (m : Option PMove) : Option (LeSet × Option Nat) :=
  match m with
  | none => some (x, none)
  | some m => (s.leMove e x m).map fun p => (p.1, some p.2)

/-- A Format P instruction (R130): products by `op` (none for MOV), then the moves. -/
def State.leProd (s : State) (e : Nat) (op : Option Nat) (dual : Bool) (ad s1 s2 : Nat) (m0 m1 : Option PMove) : State :=
  let x := s.set' e
  if dual && op.isSome && ad % 2 == 1 then s.leFault e 1
  else
    let sata := x.bit srSATA
    let unit := fun (o k : Nat) => prodResult sata (accum o (x.sA (ad + k)) (x.sD ((s1 + k) % 16) * x.sD ((s2 + k) % 16) * 2))
    let y := match op with
      | none => x
      | some o =>
        let r := unit o 0
        let x1 := ((x.putA ad r.1).flagNZ r.1).flagE r.1
        if dual then
          let q := unit o 1
          ((x1.putA (ad + 1) q.1).putBit srV (r.2.1 || q.2.1)).flagL (r.2.2 || q.2.2)
        else (x1.putBit srV r.2.1).flagL r.2.2
    match s.leMove? e y m0 with
    | none => s.leFault e 2
    | some (y0, ad0) =>
      match s.leMove? e y0 m1 with
      | none => s.leFault e 2
      | some (y1, ad1) =>
        let extra := match ad0, ad1 with
          | some a, some b => if memBank a = memBank b ∧ (memBank a = 2 ∨ !s.on (Reg.LE_CFG.OPMODE e)) then 1 else 0
          | _, _ => 0
        let ms := m0.toList ++ m1.toList
        let uses := (if op.isSome then useD ([s1, s2] ++ if dual then [(s1 + 1) % 16, (s2 + 1) % 16] else []) x else []) ++
          (if op = some 1 ∨ op = some 2 then useA 0 ([ad] ++ if dual then [ad + 1] else []) else []) ++
          ms.flatMap fun (m : PMove) => useEa m.p.val (if m.u then 3 else 1)
        let prods := (if op.isSome then madeA ([ad] ++ if dual then [ad + 1] else []) else []) ++
          ms.map fun (m : PMove) => (⟨0, m.d.val⟩ : Prod)
        s.leDone e (1 + extra) uses prods (y1.after x.pc)

/-! ### Special registers (R120) -/

/-- The special register of a code: its value, or the fault of an unused code. -/
def State.spGet (s : State) (e : Nat) (x : LeSet) (c : Nat) : Option Nat :=
  if c < 8 then some (tget 0 x.m c)
  else if c < 16 then some (tget 0 x.l (c - 8))
  else if c < 24 then some (tget 0 x.b (c - 16))
  else match c with
    | 24 => some (x.sr + 1024 * b2n (s.eng e).onExt)
    | 25 => some x.lc
    | 26 => some x.rrb
    | 27 => some x.ts
    | 28 => some (s.cycleFlags e (s.eng e).onExt)
    | _ => none

/-- The set after a write of a special register, truncated to its width; for the codes that law code may write. -/
def LeSet.spPut (x : LeSet) (c v : Nat) : LeSet :=
  if c < 8 then { x with m := tput 0 x.m c (v % 2 ^ 18) }
  else if c < 16 then { x with l := tput 0 x.l (c - 8) (v % 2 ^ 18) }
  else if c < 24 then { x with b := tput 0 x.b (c - 16) (v % 2 ^ 18) }
  else if c = 24 then { x with sr := Nat.land v 0x31F }
  else if c = 25 then { x with lc := v % 2 ^ 16 }
  else { x with rrb := v % 16 }

/-- What a write of a special register produces (R135). -/
def spProd (c : Nat) : List Prod :=
  if c < 8 then [⟨3, resM c⟩] else if c < 16 then [⟨3, resL (c - 8)⟩] else if c < 24 then [⟨3, resB (c - 16)⟩]
  else if c = 24 then [⟨4, resSr⟩] else if c = 25 then [⟨5, resLc⟩] else []

/-- MTS and LDSI (R131, R133, R136): a write of code 27 or 28 is fault 3, of 29–31 fault 1. -/
def State.spWrite (s : State) (e c v : Nat) (uses : List (Nat × Nat)) : State :=
  let x := s.set' e
  if 29 ≤ c then s.leFault e 1
  else if 27 ≤ c then s.leFault e 3
  else s.leDone e 1 uses (spProd c) ((x.spPut c v).after x.pc)

/-! ### Tasks (R105, R109, R126) -/

/-- The banks in use (R118): bit s for slot s. -/
def State.windowBanks (s : State) (e : Nat) : Nat :=
  (List.range 24).foldl (fun w sl => withBit w sl (s.get (Reg.LAW_STAT.BANK e sl) = 1)) 0

/-- The slots in quiet mode for the computations of ring cycle `n` (R148): bit s for slot s. -/
def State.quietSlots (s : State) (e n : Nat) : Nat :=
  (s.slotsOf e).foldl (fun w p => withBit w p.1 (!s.strongIn p.2 n)) 0

/-- A register set at the start of task `t` for ring cycle `n` (R126): flags cleared, RM and SATA from the entry, rrb 0, empty stacks, ts,
the entry address; the coefficient window takes the banks and modes in use (R118, R149). -/
def State.taskSet (s : State) (e t n : Nat) (x : LeSet) : LeSet :=
  { x with
    sr := 256 * s.get (Reg.TASK_ENTRY.RM e t) + 512 * s.get (Reg.TASK_ENTRY.SATA e t), rrb := 0, loops := [], calls := []
    pc := s.get (Reg.TASK_ENTRY.ADDR e t), task := some t, born := n, prods := []
    ts := (onesBelow 24 (s.get (Reg.TASK_SLOTS.SLOTS e t))).headD 0, window := s.windowBanks e, quiet := s.quietSlots e n }

/-- The slots of a starting main task that name a law of the reference library compute by it (R94, R95). -/
def State.refTask (s : State) (e t n : Nat) : State :=
  forEach (onesBelow 24 (s.get (Reg.TASK_SLOTS.SLOTS e t))) (fun s sl =>
    match s.slotAxis? e sl with
    | some a =>
      if s.refLaws.contains (s.get (Reg.LAW_AXIS.LAW e sl)) then
        s.refRun e sl a (bits (s.eng e).main.window sl 1) (bitAt (s.eng e).main.quiet sl) (decide (n % 4 = 0))
      else s
    | none => s) s

/-- LAW_TASK_START (R105, R109, R126): the next ready main task of engine `e` starts on set 0, where none runs; it pre-empts an extension. -/
def execLawTaskStart (t : Time) (e : Fin 16) (s : State) : Out :=
  live t s fun s =>
    let x := s.eng e.val
    match x.main.task, s.nextMain e.val with
    | none, some (k, n) =>
      let cost := if x.onExt then 10 else 8
      let own := onesBelow 24 (s.get (Reg.TASK_SLOTS.SLOTS e.val k))
      ((s.modEng e.val fun y => { y with
        main := s.taskSet e.val k n y.main, onExt := false, cycles := y.cycles + cost
        arrived := y.arrived.filter fun p => !(p.2 == n && own.contains p.1) }).refTask e.val k n).syncPc e.val
    | _, _ => s

/-- EXT_TASK_START (R126): the first ready extension task starts on set 1, where no main task is ready or runs and none is shed. -/
def execExtTaskStart (t : Time) (e : Fin 16) (s : State) : Out :=
  live t s fun s =>
    let x := s.eng e.val
    match x.extReady with
    | k :: rest =>
      if x.main.task.isSome ∨ (s.nextMain e.val).isSome ∨ x.ext.task.isSome ∨ x.shed then s
      else
        let cost := if x.onExt then 8 else 10
        (s.modEng e.val fun y => { y with
          ext := s.taskSet e.val k s.dev.cycle.toNat y.ext, onExt := true, extReady := rest, cycles := y.cycles + cost }).syncPc e.val
    | [] => s

end Sys2Proof.Machine
end

