-- ==== Sys2Proof/Machine/Lines.lean ====
section
/-! DEFINITION. Line axes (R28–R36) and line actions (R37–R44). -/

namespace Sys2Proof.Machine

/-! ### Sources (R28, R30, R33, R34) -/

/-- The source selected for line `k`; 0 is Off, and 5–7 are taken as Off (R28). -/
def State.lineSource (s : State) (k : Nat) : Nat :=
  let x := s.get (Reg.LINE_CFG.SOURCE k)
  if 5 ≤ x then 0 else x

/-- The edge-time fraction of local encoder `e` at instant `T`: 16 bits (R30). -/
def State.encFrac (s : State) (e T : Nat) : Nat :=
  let x := s.enc e
  match x.edge, x.edge2 with
  | some a, some b => if x.run < 2 ∨ a ≤ b then 0 else min ((T - a) * 65536 / (a - b)) 0xFFFF
  | _, _ => 0

/-- The position of local encoder `e` at instant `T`, line position format: the whole count, and the fraction counted on from it in the
direction of counting (R30, DEDUCED 10). -/
def State.encAt (s : State) (e T : Nat) : Int :=
  let f : Int := s.encFrac e T
  s.int64 (Reg.ENC_CNT_LO e) * 65536 + (if (s.enc e).sign < 0 then -f else f)

/-- Encoder `e` as a line source at instant `T` (R28, R30): in a pair the mirrored sample of this ring cycle's place in its servo cycle
(R306). -/
def State.encLine (s : State) (e T : Nat) : Int :=
  let own := s.encAt e T
  if s.inPair then (s.dev.encUse.getD (s.dev.cycle.toNat % 4) []).getD e own else own

/-- Federation time `f` as local TSC (R333): less FED_OFS, with the rate of its change over the last two cycles. -/
def State.fedToTsc (s : State) (f : Int) : Int :=
  f - (s.int64 Reg.FED_OFS_LO + s.fedDrift * (f - s.fedFt) / 500000)

/-- The source value of line `k` at instant `T` before INVERT, line position format (R28). -/
def State.lineRaw (s : State) (k T : Nat) : Int :=
  let i := s.get (Reg.LINE_CFG.SRC_INDEX k)
  match s.lineSource k with
  | 1 => s.encLine (i % 8) T
  | 2 => s.uposAt i T / 256
  | 3 =>
    let x := tget default s.shared i
    x.pos + x.vel * ((T : Int) - s.fedToTsc x.ft) / 15625
  | _ => 0

/-- The source value after INVERT, modulo 2^64 (R32, R33). -/
def State.lineValue (s : State) (k T : Nat) : Int :=
  let v := s.lineRaw k T
  wrapS 64 (if s.on (Reg.LINE_CFG.INVERT k) then -v else v)

/-- The source of line `k` is healthy (R34). -/
def State.lineHealthy (s : State) (k : Nat) : Bool :=
  let i := s.get (Reg.LINE_CFG.SRC_INDEX k)
  match s.lineSource k with
  | 1 => !s.on (Reg.ENC_STAT.FAULT (i % 8))
  | 2 => s.axState i != axFault
  | 3 => decide ((tget default s.shared i).missed < 3)
  | _ => true

/-- The source of line `k` has given a value (R29): a cartridge with its first accepted uplink, a shared line with its first record. -/
def State.lineValued (s : State) (k : Nat) : Bool :=
  let i := s.get (Reg.LINE_CFG.SRC_INDEX k)
  match s.lineSource k with
  | 2 => (s.fb i).seen
  | 3 => (tget default s.shared i).got
  | _ => true

/-! ### The sample of a ring-cycle start (R29, R31, R34, R35) -/

/-- The sample of line `k`: position and velocity, which saturates; DIR_REV follows a velocity other than 0. R29 has LINE_POS hold it from
200 ns after the cycle-start; what it reads in those 200 ns is open, and the model shows the new sample at once (DESIGN CHOICE 10). -/
def State.showLine (s : State) (k : Nat) (pos vel : Int) : State :=
  let v := satS 32 vel
  let s1 := (s.setWord64 (Reg.LINE_POS_LO k) (ux 64 pos)).setWord (Reg.LINE_VEL k) (ux 32 v)
  let s2 := if v = 0 then s1 else s1.setB (Reg.LINE_STAT.DIR_REV k) (decide (v < 0))
  s2.modLine k fun l => { l with sampled := true }

/-- The source of line `k` is lost (R34): held, SRC_LOST, LINE_SOURCE_LOST, and SS1 of every island synchronised to the line. -/
def State.loseLine (s : State) (k : Nat) : State :=
  let s1 := (s.set (Reg.LINE_STAT.SRC_LOST k) 1).set (Reg.LINE_STAT.RUNNING k) 0
  let s2 := (s1.showLine k (s1.int64 (Reg.LINE_POS_LO k)) 0).log (Src.line k) Ev.LINE_SOURCE_LOST (s.lineSource k)
    (s.get (Reg.LINE_CFG.SRC_INDEX k))
  forEach (s2.img.islandIds.filter fun i => match (s2.flow i).run with
    | some r => (r.seg.desc.kind == 5 || r.seg.desc.kind == 6) && r.seg.desc.line == k
    | none => false) State.ss1 s2

/-- A preset or resumption jumped line `k`: DISCONT, and every pending action of the line is evaluated anew (R35). -/
def State.jumpLine (s : State) (k : Nat) : State := ((s.flag (Reg.LINE_STAT.DISCONT k)).refreshActs k).cmpJump 2 k

/-- LINE_SAMPLE of line `k` (R29): losses, resumptions and presets that wait are taken with it. -/
def State.sampleLine (s : State) (k : Nat) : State :=
  let l := s.line k
  let s0 := s.modLine k fun x => { x with presetReq := false, resumeReq := false, fault := false }
  let src := s.lineSource k
  let old := s.int64 (Reg.LINE_POS_LO k)
  if src = 0 then (s0.showLine k 0 0).set (Reg.LINE_STAT.RUNNING k) 0
  else
    let ok := s.lineHealthy k && !l.fault
    let lost := s.on (Reg.LINE_STAT.SRC_LOST k)
    let s1 := if !lost && !ok then s0.loseLine k
      else if lost && ok && l.resumeReq then (s0.set (Reg.LINE_STAT.SRC_LOST k) 0).jumpLine k else s0
    let resumed := lost && ok && l.resumeReq
    let held := s1.on (Reg.LINE_STAT.SRC_LOST k)
    let s2 := s1.setB (Reg.LINE_STAT.RUNNING k) !held
    let user := s2.lineUser k
    let preset := l.presetReq && user.isNone
    let p := s2.int64 (Reg.LINE_PRESET_LO k)
    let s3 := if l.presetReq && user.isSome then s2.log (Src.line k) Ev.LINE_PRESET_REFUSED (user.getD 0) 0 else s2
    let s4 := if preset then s3.jumpLine k else s3
    if src = 4 then
      let v := sx 32 (s4.word (Reg.LINE_VRATE k))
      s4.showLine k (wrapS 64 ((if preset then p else old) + v)) v
    else if held then
      if preset then
        (s4.modLine k fun x => { x with offset := BitVec.ofNat 64 (ux 64 (p - sx 64 x.src.toNat)) }).showLine k p 0
      else s4.showLine k old 0
    else
      let v := s4.lineValue k s4.dev.cycleTsc
      let d := wrapS 64 (v - sx 64 l.src.toNat)
      let s5 := s4.modLine k fun x => { x with
        src := BitVec.ofNat 64 (ux 64 v), valued := s4.lineValued k
        offset := if preset then BitVec.ofNat 64 (ux 64 (p - v)) else x.offset }
      let pos := wrapS 64 (v + sx 64 (s5.line k).offset.toNat)
      let first := !l.sampled || !l.valued
      (if first then s5.cmpJump 2 k else s5).showLine k pos (if first || resumed then 0 else d)

/-- The records made at this start before the samples carry the samples of this start (R36). -/
def State.resnap (s : State) : State :=
  let fix := fun (r : EventRec) =>
    if r.remote ∨ r.tsc.toNat < s.dev.cycleTsc then r else { r with line := s.lineSnap r.source.toNat }
  { s with toLog := s.toLog.map fix, fed := { s.fed with events := s.fed.events.map fix } }

/-- The samples of a ring-cycle start (R29). -/
def State.sampleLines (s : State) : State := (forN 8 State.sampleLine s).resnap

/-! ### The pool of line actions (R37–R43) -/

/-- Line action `n`. -/
def State.act? (s : State) (n : Nat) : Option Act := tget none s.acts n

/-- ACT_COUNT, ACT_PEND and LINE_STAT.PENDING show the pool after a change of index `n`. -/
def State.syncAct (s : State) (n k : Nat) : State :=
  let b := (s.act? n).isSome
  let s1 := s.setWord (Reg.ACT_PEND (n / 32)) (withBit (s.word (Reg.ACT_PEND (n / 32))) (n % 32) b)
  let l := s1.acts.filterMap fun e => e.2
  (s1.set Reg.ACT_COUNT.COUNT l.length).set (Reg.LINE_STAT.PENDING k) (l.filter fun x => x.line == k).length

/-- Set line action `n` of line `k`; `none` frees the index. -/
def State.putAct (s : State) (n k : Nat) (x : Option Act) : State := { s with acts := tput none s.acts n x }.syncAct n k

/-- Lateness: position minus trigger, counted in the action's direction (R32, R39). -/
def Act.lateness (x : Act) (pos : Int) : Int :=
  let d := wrapS 64 (pos - sx 64 x.trig.toNat)
  if x.reverse then -d else d

/-- Lateness as detail word 1: [31:16] whole counts, [15:0] fraction, saturated. -/
def lateWord (l : Int) : Nat := satU 32 l.toNat

/-- ACTION_EVALUATE and ACTION_SCHEDULE of one action at a ring-cycle start (R39, R40). -/
def State.stepAct (s : State) (n : Nat) : State :=
  match s.act? n with
  | none => s
  | some x =>
    let pos := s.int64 (Reg.LINE_POS_LO x.line)
    let v := sx 32 (s.word (Reg.LINE_VEL x.line))
    let l := x.lateness pos
    let ahead := if x.reverse then -v else v
    let wait := fun (s : State) =>
      if 0 < -l ∧ -l ≤ ahead then
        s.putAct n x.line (some { x with stage := .at (s.dev.cycleTsc + (15625 * -l / ahead).toNat) })
      else s.putAct n x.line (some { x with stage := .waiting })
    match x.stage with
    | .at _ => s
    | .late _ => s
    | .fresh =>
      if s.dev.cycleTsc ≤ x.armedAt then s
      else if l < 0 then wait s
      else if l ≤ (x.tol.toNat : Int) then s.putAct n x.line (some { x with stage := .late l })
      else (s.putAct n x.line none).log (Src.line x.line) Ev.MISSED_ACTION n (lateWord l)
    | .waiting => if 0 ≤ l then s.putAct n x.line (some { x with stage := .at s.dev.cycleTsc }) else wait s

/-- At a servo boundary the late actions within tolerance are executed: LATE_ACTION, and their instant is the boundary (R39). -/
def State.lateAct (s : State) (n : Nat) : State :=
  match s.act? n with
  | some x =>
    match x.stage with
    | .late l =>
      (s.putAct n x.line (some { x with stage := .at s.dev.cycleTsc })).log (Src.line x.line) Ev.LATE_ACTION n (lateWord l)
    | _ => s
  | none => s

/-- Every pending action at a ring-cycle start, lower line first, then lower index (R42). -/
def State.stepActs (s : State) : State :=
  let ids := (List.range 8).flatMap fun k => s.acts.filterMap fun e => match e.2 with
    | some x => if x.line = k then some e.1 else none
    | none => none
  let s1 := forEach ids State.stepAct s
  if s.servo then forEach ids State.lateAct s1 else s1

/-- A BAD_SPEC action (R38). -/
def State.badSpec (s : State) (kind target line : Nat) : Bool :=
  decide (6 ≤ kind) || (kind == 0 && decide (512 ≤ target)) || ((kind == 2 || kind == 3 || kind == 4) && decide (16 ≤ target)) ||
    s.lineSource line == 0

/-- ACT_RESULT (R37, R43): status 0 ARMED, 1 POOL_FULL, 2 BAD_SPEC, 3 CANCELLED, 4 NOT_PENDING. -/
def State.actResult (s : State) (tag status index : Nat) : State :=
  ((s.set Reg.ACT_RESULT.TAG tag).set Reg.ACT_RESULT.STATUS status).set Reg.ACT_RESULT.INDEX index

/-- Arm an action (R37): the check of R38, then the lowest free index. Answers the status and index; the index is 0 with BAD_SPEC and
POOL_FULL, which allocate none (DESIGN CHOICE 10). -/
def State.arm (s : State) (trig tol spec path : Nat) : State × Nat × Nat :=
  let kind := bits spec 0 3
  let line := bits spec 4 3
  let target := bits spec 8 10
  if s.badSpec kind target line then (s, 2, 0)
  else
    match (List.range 1024).find? fun n => (s.act? n).isNone with
    | none => (s.log (Src.line line) Ev.ACTION_POOL_FULL 1024 path, 1, 0)
    | some n =>
      (s.putAct n line (some
        { trig := BitVec.ofNat 64 trig, tol := BitVec.ofNat 32 tol, line := line, reverse := bitAt spec 7, kind := kind
          target := target, armedAt := s.now, stage := .fresh }), 0, n)

/-- The execution of a due action (R38). A gate opens for the segment the flow holds; a second one before the boundary finds none. -/
def State.runAct (s : State) (n : Nat) (x : Act) : State :=
  match x.kind with
  | 0 =>
    if s.flowState x.target = flGated ∧ (s.flow x.target).gateAt.isNone then s.modFlow x.target fun f => { f with gateAt := some s.now }
    else s.log (Src.line x.line) Ev.GATE_EMPTY x.target n
  | 1 => (s.deliverLine x.line x.target []).trigger fun d => d.trigger == 2 && d.source == x.line
  | 2 => s.cmpOpen x.target
  | 3 => s.cmpClose x.target
  | 4 => s.cmpPulse x.target (match x.stage with
    | .at i => i
    | _ => s.now)
  | _ => s.log (Src.line x.line) Ev.LINE_EVENT x.target n

/-- The due actions: instant, line, index. -/
def State.dueActs (s : State) : List (Nat × Nat × Nat) :=
  s.acts.filterMap fun e => match e.2 with
    | some x => match x.stage with
      | .at i => if i ≤ s.now then some (i, x.line, e.1) else none
      | _ => none
    | none => none

/-- The first of some due actions: earliest instant, lower line, lower index (R42). -/
def firstDue : List (Nat × Nat × Nat) → Option (Nat × Nat × Nat)
  | [] => none
  | x :: xs =>
    match firstDue xs with
    | some y =>
      if y.1 < x.1 ∨ (y.1 = x.1 ∧ (y.2.1 < x.2.1 ∨ (y.2.1 = x.2.1 ∧ y.2.2 < x.2.2))) then some y else some x
    | none => some x

/-- The first due action whose instant is `i` at the latest takes its effect, and its index is freed (R38, R41, R42). -/
def State.takeAct (s : State) (i : Nat) : State :=
  match firstDue (s.dueActs.filter fun p => decide (p.1 ≤ i)) with
  | none => s
  | some (_, _, n) =>
    match s.act? n with
    | some x => (s.putAct n x.line none).runAct n x
    | none => s

/-- The due actions up to instant `i` take their effect: an action precedes a compare point of the same instant (R180). -/
def State.takeActs (s : State) (i : Nat) : State := forN s.dueActs.length (fun s _ => s.takeAct i) s

/-- The points of this ring cycle that have not fired yet fire before the next one: a schedule is not withdrawn (R175, R180). -/
def State.restPoints (s : State) (c : Nat) : State :=
  forEach (s.cmp c).points (fun s i => (s.takeActs i).cmpPoint c i) (s.modCmp c fun y => { y with points := [] })

/-- One sample of local encoder `k` (R173, R175): where it counts, the compare channels on it are evaluated. -/
def State.encSample (s : State) (k : Nat) (a b : Bool) (na nb : Nat) : State :=
  let c0 := s.int64 (Reg.ENC_CNT_LO k)
  let s1 := encTransition k a b na nb s
  let c1 := s1.int64 (Reg.ENC_CNT_LO k)
  if c1 = c0 then s1 else (s1.takeActs s1.now).cmpEncoder k (wrapS 48 (c1 - c0))

/-! ### Meanings -/

/-- ENCODER_TRANSITION (R172, R173): a sample of local encoder `k`, with A at level `a` on `na` and B at level `b` on `nb` consecutive
samples; the filter decides whether the change counts. -/
def execEncoderTransition (t : Time) (k : Fin 8) (a b : Bool) (na nb : Nat) (s : State) : Out :=
  live t s fun s => s.encSample k.val a b na nb

/-- ENCODER_INDEX (R172, R173): a sample of local encoder `k` with Z at level `z` on `nz` consecutive samples, beside A and B: a rising
filtered Z latches the count after a count of the same sample and runs the index check. -/
def execEncoderIndex (t : Time) (k : Fin 8) (a b z : Bool) (na nb nz : Nat) (s : State) : Out :=
  live t s fun s => (s.encSample k.val a b na nb).encZ k.val z nz

/-- COMPARE_POINT (R176): the earliest scheduled point of channel `c` whose instant is reached fires, after the line actions of that
instant (R180). -/
def execComparePoint (t : Time) (c : Fin 16) (s : State) : Out :=
  live t s fun s =>
    match (s.cmp c.val).points with
    | i :: rest =>
      if i ≤ s.now then ((s.modCmp c.val fun x => { x with points := rest }).takeActs i).cmpPoint c.val i else s
    | [] => s

/-- LINE_VRATE_WRITE (R31): the rate of a virtual line; the next sample uses it. -/
def State.wLineVrateWrite (s : State) (k : Fin 8) (v : Word) : State := s.setWord (Reg.LINE_VRATE k.val) v.toNat
/-- LINE_VRATE_WRITE. -/
def execLineVrateWrite (t : Time) (k : Fin 8) (v : Word) (s : State) : Out :=
  byHost t s (Reg.LINE_VRATE k.val) v.toNat (fun s => s.wLineVrateWrite k v)

/-- LINE_RESUME (R34): taken at the next ring-cycle start where the source is healthy now; otherwise discarded. -/
def State.wLineResume (s : State) (k : Fin 8) : State :=
  if s.on (Reg.LINE_STAT.SRC_LOST k.val) && s.lineHealthy k.val then s.modLine k.val fun l => { l with resumeReq := true, fault := false } else s
/-- LINE_RESUME. -/
def execLineResume (t : Time) (k : Fin 8) (s : State) : Out :=
  byHost t s (Reg.LINE_CTRL k.val) 2 (fun s => s.wLineResume k)

/-- LINE_PRESET (R35): taken at the next ring-cycle start; ignored on a line that is Off. -/
def State.wLinePreset (s : State) (k : Fin 8) : State :=
  if s.lineSource k.val = 0 then s else s.modLine k.val fun l => { l with presetReq := true }
/-- LINE_PRESET. -/
def execLinePreset (t : Time) (k : Fin 8) (s : State) : Out :=
  byHost t s (Reg.LINE_CTRL k.val) 1 (fun s => s.wLinePreset k)

/-- A write of ACT_ARM (R37, R38): the staged action enters the pool. -/
def State.wActArm (s : State) (tag : BitVec 16) : State :=
  let r := s.arm (s.word64 Reg.ACT_TRIG_LO) (s.word Reg.ACT_TOL) (s.word Reg.ACT_SPEC) 0
  r.1.actResult tag.toNat r.2.1 r.2.2
/-- ACT_ARM (R37, R38): the staged action, or the one a planning core arms by the internal path, enters the pool. -/
def execActArm (t : Time) (tag : BitVec 16) (core : Option ActSpec) (s : State) : Out :=
  match core with
  | none => byHost t s Reg.ACT_ARM tag.toNat (fun s => s.wActArm tag)
  | some a => live t s fun s => (s.arm a.trig.toNat a.tol.toNat a.spec.toNat 1).1

/-- ACT_CANCEL (R43). -/
def State.wActCancel (s : State) (n : Fin 1024) (tag : BitVec 16) : State :=
  match s.act? n.val with
  | none => s.actResult tag.toNat 4 n.val
  | some x =>
    let reached := match x.stage with
      | .at i => decide (i ≤ s.now)
      | _ => false
    if reached then s.actResult tag.toNat 4 n.val
    else (s.putAct n.val x.line none).actResult tag.toNat 3 n.val
/-- ACT_CANCEL. -/
def execActCancel (t : Time) (n : Fin 1024) (tag : BitVec 16) (s : State) : Out :=
  byHost t s Reg.ACT_CANCEL (65536 * tag.toNat + n.val) (fun s => s.wActCancel n tag)

/-- ACTION_EXECUTE (R38, R41, R42): the first due action takes its effect and its index is freed; nothing where none is due. -/
def execActionExecute (t : Time) (s : State) : Out := live t s fun s => s.takeAct s.now

end Sys2Proof.Machine
end

