-- ==== Sys2Proof/Machine/Narrows.lean ====
section
/-! DEFINITION. The narrows (R246–R264): requests, decisions and grants, entries and exits, orphans, clearance and host release, hints,
and the messages between devices. -/

namespace Sys2Proof.Machine

/-- NRW_STATE.STATE codes (R264). -/
def nrwFree : Nat := 0
def nrwGranted : Nat := 1
def nrwPassing : Nat := 2
def nrwOrphaned : Nat := 3

/-- The state of narrows `n`. -/
def State.nrwState (s : State) (n : Nat) : Nat := s.get (Reg.NRW_STATE.STATE n)

/-- Narrows `n` beyond its registers. -/
def State.nrw (s : State) (n : Nat) : NrwSt := tget default s.nrws n
/-- Change narrows `n`. -/
def State.modNrw (s : State) (n : Nat) (f : NrwSt → NrwSt) : State := { s with nrws := tput default s.nrws n (f (s.nrw n)) }

/-- The declared narrows. -/
def State.nrwIds (s : State) : List Nat := (List.range 128).filter fun n => s.on (Reg.NRW_CFG.VALID n)

/-- ms since the grant of narrows `n` as NRW_HELD shows it (R264). -/
def State.nrwHeld (s : State) (n : Nat) : Nat :=
  if s.nrwState n = nrwGranted ∨ s.nrwState n = nrwPassing then satU 32 ((s.now - (s.nrw n).grantAt) / 1000000) else 0

/-- Narrows `n` is a proxy (R246). -/
def State.isProxy (s : State) (n : Nat) : Bool := s.get (Reg.NRW_CFG.ROLE n) == 2

/-- The coding of an island as an owner (R264): local, or of node `node`. -/
def ownerWord (remote : Bool) (node island : Nat) : Nat := 2 ^ 31 * b2n remote + 2 ^ 30 + (if remote then 65536 * node else 0) + island

/-- Member `m` of narrows `n`, coded as an owner. -/
def State.memberWord (s : State) (n m : Nat) : Nat :=
  ownerWord (s.on (Reg.NRW_MEMBER.REMOTE n m)) (s.get (Reg.NRW_MEMBER.NODE n m)) (s.get (Reg.NRW_MEMBER.ISLAND n m))

/-- The member of narrows `n` with a coding. -/
def State.memberOf? (s : State) (n w : Nat) : Option Nat :=
  (List.range 16).find? fun m => s.on (Reg.NRW_MEMBER.VALID n m) && s.memberWord n m == w

/-- The local island an owner word names; none for a remote or an invalid one. -/
def localOf (w : Nat) : Option Nat := if bitAt w 30 && !bitAt w 31 then some (bits w 0 9) else none

/-- NRW_REQ and the PENDING bits show the pending requests. -/
def State.showReq (s : State) (n : Nat) : State :=
  let l := (s.nrw n).order.map (·.1)
  forN 16 (fun s m => s.setB (Reg.NRW_WAIT.PENDING n m) (l.contains m)) (s.set (Reg.NRW_REQ.REQ n) (l.foldl (fun w m => withBit w m true) 0))

/-! ### Hints and grants (R248–R250) -/

/-- The times of released segments up to the one that exits narrows `n`; none where no segment does. -/
def exitTime (n : Nat) : List Seg → Nat → Option Rat
  | [], _ => none
  | g :: rest, v =>
    if g.desc.nrwExit = some n then some (segTime g v) else (exitTime n rest g.desc.blend).map fun t => segTime g v + t

/-- t_r of R250 for local owner `i` of narrows `n`: to the end of its exit segment at σ = 1; none without one released. -/
def State.releaseTime (s : State) (n i : Nat) : Option Rat :=
  let f := s.flow i
  match f.run with
  | some r =>
    let t := if r.seg.desc.kind = 5 then Config.freeRat 11 r.seg.desc.seq else phaseTime r.phases
    if (f.exits r.seg).contains n then some t else (exitTime n f.released r.seg.desc.blend).map fun u => t + u
  | none => exitTime n f.released 0

/-- 0x8000_0000_0000_0000: EST unknown (R249). -/
def estUnknown : Nat := 2 ^ 63

/-- EST of narrows `n` for queue position `q` (R250). A fraction of its last bit is rounded down or up, a free choice. -/
def State.estOf (s : State) (n q : Nat) : Nat × State :=
  let k := s.get (Reg.NRW_CFG.LINE n)
  let vel := sx 32 (s.word (Reg.LINE_VEL k))
  match localOf (s.word (Reg.NRW_OWNER n)) with
  | none => (estUnknown, s)
  | some i =>
    match s.releaseTime n i with
    | none => (estUnknown, s)
    | some t =>
      let st := s.nrwState n
      if (st ≠ nrwGranted ∧ st ≠ nrwPassing) ∨ s.sigma i = 0 ∨ s.flowState i = flHolding ∨ vel = 0 then (estUnknown, s)
      else
        let x : Rat := (vel : Rat) * (t / s.sigma i * 64000)
        let d := if x.den = 1 then (0, s) else s.freeBelow 11 2
        let p := (s.int64 (Reg.LINE_POS_LO k)) + x.floor + d.1 + ((q - 1 : Nat) : Int) * s.int64 (Reg.NRW_PASS_LO n)
        (ux 64 p, d.2)

/-- The order of R252 as a number: the least is chosen first. -/
def State.nrwRank (s : State) (n : Nat) (e : Nat × Nat) : Nat :=
  let m := e.1
  let full := s.get (Reg.NRW_WAIT.COUNT n m) == s.get (Reg.NRW_CFG.WAIT_MAX n)
  (((if full then 0 else 1) * 256 + (255 - s.get (Reg.NRW_MEMBER.PRIO n m))) * 2 ^ 64 + e.2) * 16 + m

/-- The element with the least key. -/
def leastBy {α : Type} (key : α → Nat) : List α → Option α
  | [] => none
  | x :: rest => some (rest.foldl (fun b y => if key y < key b then y else b) x)

/-- QPOS of member `m` of narrows `n` (R249): 1 for the decided next owner, or for the one that would win now; the others behind it in
the order of R252. -/
def State.qpos (s : State) (n m : Nat) : Nat :=
  let next := if s.on (Reg.NRW_STATE.NEXT_VALID n) then s.memberOf? n (s.word (Reg.NRW_NEXT n)) else none
  let o := (s.nrw n).order
  match o.find? fun e => e.1 == m with
  | none => 1
  | some e =>
    if next = some m then 1
    else
      let ahead := o.filter fun x => next == some x.1 || decide (s.nrwRank n x < s.nrwRank n e)
      1 + ahead.length + (match next with
        | some q => if o.any fun x => x.1 == q then 0 else 1
        | none => 0)

/-- The message that tells member `m` of narrows `n` where it stands (R248, R249, R327): GRANT or HINT. -/
def State.nrwTell (s : State) (n m seq : Nat) : NrwMsg × State :=
  let w := s.memberWord n m
  let own := (s.nrwState n == nrwGranted || s.nrwState n == nrwPassing) && s.word (Reg.NRW_OWNER n) == w
  let q := if own then 0 else s.qpos n m
  let est := s.estOf n q
  ({ op := if own then 7 else 8, narrows := n, node := bits w 16 9, island := bits w 0 9, epoch := s.get (Reg.NRW_STATE.EPOCH n)
     est := est.1, qpos := q, next := s.on (Reg.NRW_STATE.NEXT_VALID n) && s.word (Reg.NRW_NEXT n) == w, clear := 0
     line := s.get (Reg.NRW_CFG.LINE n), seq := seq }, est.2)

/-- The operand word of a grant or hint for narrows `n` (R249). -/
def operandWord (n : Nat) (remote : Bool) (x : NrwMsg) : List Nat :=
  [n % 128 + 128 * b2n (x.op == 7), x.qpos] ++ leBytes 2 x.epoch ++ leBytes 8 x.est ++ [x.line, b2n x.next + 2 * b2n remote, 0, 0] ++
  List.replicate 16 0

/-- The slot of kind 2 of an item that waits for its word. -/
def Item.nrwSlot (x : Item) : Option Nat := (x.slots.find? fun p => p.2.kind == 2 && p.2.word.isNone).map (·.1)

/-- The items that wait for the operand of narrows `n`, in the order of admission, with their islands and SEQs. -/
def State.nrwItems (s : State) (n : Nat) : List (Nat × Item) :=
  let l := s.itemList.filter fun p => p.2.nrwSlot.isSome && (parseDesc p.2.desc).nrwEnter == some n
  let rec sortIn (p : Nat × Item) : List (Nat × Item) → List (Nat × Item)
    | [] => [p]
    | q :: rest => if p.2.serial < q.2.serial then p :: q :: rest else q :: sortIn p rest
  l.foldl (fun a p => sortIn p a) []

/-- The operand word is delivered to entry `e` (R77 kind 2). -/
def State.deliverNrw (s : State) (e : Nat) (w : List Nat) : State :=
  match (s.item? e).bind Item.nrwSlot with
  | some k => s.fillSlot e k w
  | none => s

/-! ### Grant, release, decision, orphaning (R252–R256) -/

/-- Member `m` is granted narrows `n` (R252, R255). -/
def State.grantNrw (s : State) (n m : Nat) : State :=
  let w := s.memberWord n m
  let s1 := (((s.set (Reg.NRW_STATE.STATE n) nrwGranted).addMod (Reg.NRW_STATE.EPOCH n) 1).set (Reg.NRW_STATE.CAUSE n) 0).set
    (Reg.NRW_STATE.NEXT_VALID n) 0
  let s2 := (((s1.setWord (Reg.NRW_OWNER n) w).setWord (Reg.NRW_NEXT n) 0).set (Reg.NRW_CLEAR.COUNT n) 0).setWord (Reg.NRW_DMIN n) f32Inf
  let s3 := ((s2.set (Reg.NRW_WAIT.COUNT n m) 0).modNrw n fun x =>
    { x with order := x.order.filter fun e => e.1 != m, grantAt := s.now, exit := 0 }).showReq n
  if bitAt w 31 then
    let t := s3.nrwTell n m 0
    { t.2 with nrwOut := t.2.nrwOut ++ [t.1] }
  else s3

/-- Narrows `n` becomes FREE. -/
def State.freeNrw (s : State) (n : Nat) : State :=
  let s1 := ((s.set (Reg.NRW_STATE.STATE n) nrwFree).set (Reg.NRW_STATE.CAUSE n) 0).set (Reg.NRW_STATE.NEXT_VALID n) 0
  (((s1.setWord (Reg.NRW_OWNER n) 0).setWord (Reg.NRW_NEXT n) 0).set (Reg.NRW_CLEAR.COUNT n) 0).modNrw n fun x => { x with exit := 0 }

/-- The release of narrows `n` (R253): its decided next owner is granted it, else it is FREE. -/
def State.releaseNrw (s : State) (n : Nat) : State :=
  if s.on (Reg.NRW_STATE.NEXT_VALID n) then
    match s.memberOf? n (s.word (Reg.NRW_NEXT n)) with
    | some m => s.grantNrw n m
    | none => s.freeNrw n
  else s.freeNrw n

/-- Narrows `n` is orphaned with a cause (R255): its owner becomes the former owner, the next owner is cleared, ZONE_ORPHANED. -/
def State.orphanNrw (s : State) (n cause : Nat) : State :=
  let s1 := (((s.set (Reg.NRW_STATE.STATE n) nrwOrphaned).addMod (Reg.NRW_STATE.EPOCH n) 1).set (Reg.NRW_STATE.CAUSE n) cause).set
    (Reg.NRW_STATE.NEXT_VALID n) 0
  let s2 := ((s1.setWord (Reg.NRW_NEXT n) 0).set (Reg.NRW_CLEAR.COUNT n) 0).modNrw n fun x => { x with exit := 0 }
  s2.log (Src.narrows n) Ev.ZONE_ORPHANED cause (s2.word (Reg.NRW_OWNER n))

/-- A decision among the pending requests of narrows `n` (R252): the winner; the counters of the losers go up; ZONE_FORCED. -/
def State.decideNrw (s : State) (n : Nat) : Option Nat × State :=
  let o := (s.nrw n).order
  match leastBy (s.nrwRank n) o with
  | none => (none, s)
  | some e =>
    let m := e.1
    let max' := s.get (Reg.NRW_CFG.WAIT_MAX n)
    let prio := fun x => s.get (Reg.NRW_MEMBER.PRIO n x)
    let lost := (o.map (·.1)).filter fun x => x != m
    let loser := leastBy (fun x => 255 - prio x) (lost.filter fun x => decide (prio m < prio x))
    let s1 := forEach lost (fun s x => s.set (Reg.NRW_WAIT.COUNT n x) (min max' (s.get (Reg.NRW_WAIT.COUNT n x) + 1))) s
    let s2 := s1.set (Reg.NRW_WAIT.COUNT n m) 0
    match loser with
    | some x =>
      if s.get (Reg.NRW_WAIT.COUNT n m) = max' then (some m, s2.log (Src.narrows n) Ev.ZONE_FORCED (s.memberWord n m) (s.memberWord n x))
      else (some m, s2)
    | none => (some m, s2)

/-- The decision at the start of the owner's exit segment sets the next owner (R252). -/
def State.decideNext (s : State) (n : Nat) : State :=
  if s.on (Reg.NRW_STATE.NEXT_VALID n) then s
  else
    let d := s.decideNrw n
    match d.1 with
    | some m => (d.2.setWord (Reg.NRW_NEXT n) (s.memberWord n m)).set (Reg.NRW_STATE.NEXT_VALID n) 1
    | none => d.2

/-! ### Requests (R248, R262) -/

/-- Member `m` registers a request for narrows `n` (R248, R255): the former owner of an orphaned narrows is granted it at once. -/
def State.registerNrw (s : State) (n m : Nat) : State :=
  let w := s.memberWord n m
  let st := s.nrwState n
  if (st = nrwGranted ∨ st = nrwPassing) ∧ s.word (Reg.NRW_OWNER n) = w then s
  else if (s.nrw n).order.any fun e => e.1 == m then s
  else if st = nrwOrphaned ∧ s.word (Reg.NRW_OWNER n) = w then s.grantNrw n m
  else (s.modNrw n fun x => { x with order := x.order ++ [(m, s.servoNo)] }).showReq n

/-- Member `m` withdraws its request for narrows `n` (R248, R255). -/
def State.withdrawNrw (s : State) (n m : Nat) : State :=
  let w := s.memberWord n m
  let s1 := ((s.modNrw n fun x => { x with order := x.order.filter fun e => e.1 != m }).showReq n).set (Reg.NRW_WAIT.COUNT n m) 0
  let s2 := if s1.on (Reg.NRW_STATE.NEXT_VALID n) && s1.word (Reg.NRW_NEXT n) == w then
      (s1.setWord (Reg.NRW_NEXT n) 0).set (Reg.NRW_STATE.NEXT_VALID n) 0 else s1
  if s2.nrwState n = nrwGranted ∧ s2.word (Reg.NRW_OWNER n) = w then s2.releaseNrw n else s2

/-- The path of island `i` has passed the entry point of narrows `n` in its running segment. -/
def State.passedEntry (s : State) (n i : Nat) : Bool :=
  s.nrwEntered.contains (i, n) || match (s.flow i).run with
  | some r => r.seg.desc.nrwEnter == some n && decide (r.seg.entry ≤ r.path)
  | none => false

/-- Some item or segment of island `i` still carries a request for narrows `n` ahead of its entry point (R248). -/
def State.carriesNrw (s : State) (n i : Nat) : Bool :=
  let f := s.flow i
  s.flowState i != flStopping &&
  ((s.flowItems i).any (fun p => (parseDesc p.2.desc).nrwEnter == some n) || f.released.any (fun g => g.desc.nrwEnter == some n) ||
   match f.run with
   | some r => r.seg.desc.nrwEnter == some n && !s.passedEntry n i
   | none => false)

/-- A message about narrows `n` from its proxy to its home (R262). -/
def State.tellHome (s : State) (n op island seq clear : Nat) : State :=
  { s with nrwOut := s.nrwOut ++ [{ (default : NrwMsg) with
      op := op, narrows := s.get (Reg.NRW_HOME.NARROWS n), node := s.get (Reg.NRW_HOME.NODE n), island := island
      epoch := s.get (Reg.NRW_STATE.EPOCH n), seq := seq, clear := clear }] }

/-! ### One servo boundary of a narrows (R254) -/

/-- Step 1: the owner's flow is STOPPING, or a FLUSH has discarded the exit segment of an owner in PASSING. -/
def State.nrwStep1 (s : State) (n : Nat) : State :=
  let st := s.nrwState n
  match localOf (s.word (Reg.NRW_OWNER n)) with
  | some i =>
    if st ≠ nrwGranted ∧ st ≠ nrwPassing then s
    else
      let cause := if s.flowState i = flStopping then 1 else if st = nrwPassing && s.nrwFlushed.contains (i, n) then 3 else 0
      if cause = 0 then s
      else
        let s1 := s.orphanNrw n cause
        if s.isProxy n then s1.tellHome n 5 i 0 0 else s1
  | none => s

/-- The zone watchdog of narrows `n` bites (R259): the time since the grant has reached WD in GRANTED or PASSING: SS1 of the owner,
ORPHANED with cause 2. -/
def State.nrwBite (s : State) (n : Nat) : State :=
  let w := s.word (Reg.NRW_OWNER n)
  let s1 := s.log (Src.narrows n) Ev.ZONE_WATCHDOG w (s.nrwHeld n)
  let s2 := match localOf w with
    | some i => s1.ss1 i
    | none => s1
  s2.orphanNrw n 2

/-- The zone watchdog of narrows `n` has reached WD (R259). -/
def State.nrwDue (s : State) (n : Nat) : Bool :=
  let wd := s.get (Reg.NRW_CFG.WD n)
  s.on (Reg.NRW_CFG.VALID n) && !s.isProxy n && (s.nrwState n == nrwGranted || s.nrwState n == nrwPassing) && wd != 0 &&
    decide ((s.nrw n).grantAt + wd * 1000000 ≤ s.now)

/-- Step 2: a zone watchdog that has reached WD bites. -/
def State.nrwStep2 (s : State) (n : Nat) : State :=
  if (s.nrw n).bite then
    let s1 := s.modNrw n fun x => { x with bite := false }
    if s1.nrwDue n then s1.nrwBite n else s1
  else s

/-- Step 3: release by clearance (R257) or by a host write (R258). -/
def State.nrwStep3 (s : State) (n : Nat) : State :=
  let s1 := if s.nrwState n = nrwOrphaned ∧ 16 ≤ s.get (Reg.NRW_CLEAR.COUNT n) then
      (s.freeNrw n).log (Src.narrows n) Ev.ZONE_RELEASED 0 (s.get (Reg.NRW_STATE.EPOCH n))
    else s
  forEach (s1.nrwRels.filter fun r => r.1 == n) (fun s r =>
    let st := if s.isProxy n || !s.on (Reg.NRW_CFG.VALID n) then 3 else if s.nrwState n ≠ nrwOrphaned then 2
      else if s.get (Reg.NRW_STATE.EPOCH n) ≠ r.2.1 then 1 else 0
    let s1 := (s.set Reg.NRW_REL_RESULT.TAG r.2.2).set Reg.NRW_REL_RESULT.STATUS st
    if st = 0 then (s1.freeNrw n).log (Src.narrows n) Ev.ZONE_RELEASED 1 (s1.get (Reg.NRW_STATE.EPOCH n)) else s1) s1

/-- Step 4: the owner's exit segment has ended (R253); an exit of an island that does not hold the narrows is ignored. -/
def State.nrwStep4 (s : State) (n : Nat) : State :=
  forEach (s.nrwExits.filter fun e => e.2.1 == n) (fun s e =>
    if s.holdsNrw n e.1 then
      let s1 := s.releaseNrw n
      if s.isProxy n then s1.tellHome n 4 e.1 e.2.2 0 else s1
    else s.log (Src.narrows n) Ev.ZONE_EXIT_IGNORED e.1 e.2.2) s

/-- Messages to the home of narrows `n`, in the order of their arrival (R262). -/
def State.nrwMessages (s : State) (n : Nat) : State :=
  forEach (s.nrwIn.filter fun x => x.op < 7 && x.narrows == n) (fun s x =>
    match s.memberOf? n (ownerWord true x.node x.island) with
    | none => s
    | some m =>
      let w := s.memberWord n m
      let st := s.nrwState n
      let owns := (st == nrwGranted || st == nrwPassing) && s.word (Reg.NRW_OWNER n) == w
      match x.op with
      | 1 =>
        if owns then
          let t := s.nrwTell n m x.seq
          { t.2 with nrwOut := t.2.nrwOut ++ [t.1] }
        else s.registerNrw n m
      | 2 => s.withdrawNrw n m
      | 3 => if owns then s.modNrw n fun y => { y with exit := 1 } else s
      | 4 => if owns then s.releaseNrw n else s
      | 5 => let s1 := if owns then s.orphanNrw n 1 else s
             if s1.on (Reg.NRW_WAIT.PENDING n m) then s1.withdrawNrw n m else s1
      | 6 => if st = nrwOrphaned ∧ s.word (Reg.NRW_OWNER n) = w ∧ s.get (Reg.NRW_STATE.CAUSE n) ≠ 4 then
               s.set (Reg.NRW_CLEAR.COUNT n) (min 16 x.clear) else s
      | _ => s) s

/-- Grants and hints of its home reach proxy `n` (R262): a grant makes the local island the owner; the operand goes to the oldest item
that waits for it. -/
def State.proxyMessages (s : State) (n : Nat) : State :=
  forEach (s.nrwIn.filter fun x => 7 ≤ x.op && x.narrows == s.get (Reg.NRW_HOME.NARROWS n) && x.node == s.get (Reg.NRW_HOME.NODE n)) (fun s x =>
    match s.nrwMember? n x.island with
    | none => s
    | some m =>
      let s1 := if x.op = 7 ∧ !s.holdsNrw n x.island then (s.grantNrw n m).set (Reg.NRW_STATE.EPOCH n) x.epoch else s
      match (s1.nrwItems n).find? fun p => p.2.flow == x.island with
      | some p => s1.deliverNrw p.1 (operandWord n true x)
      | none => s1) s

/-- Steps 5 and 6: new items register their islands, requests carried by nothing are withdrawn; on a proxy both go to the home. -/
def State.nrwStep6 (s : State) (n : Nat) : State :=
  let s1 := forEach (s.nrwItems n) (fun s p =>
    match s.nrwMember? n p.2.flow with
    | none => s
    | some m =>
      if s.isProxy n then
        if (s.nrw n).asked.contains p.2.serial ∨ s.holdsNrw n p.2.flow then s
        else
          let s1 := if (s.nrw n).order.any fun e => e.1 == m then s
            else (s.modNrw n fun x => { x with order := x.order ++ [(m, s.servoNo)] }).showReq n
          (s1.modNrw n fun x => { x with asked := x.asked ++ [p.2.serial] }).tellHome n 1 p.2.flow (parseDesc p.2.desc).seq 0
      else s.registerNrw n m) s
  let pend := ((s1.nrw n).order.map (·.1)).filter fun m => !s1.on (Reg.NRW_MEMBER.REMOTE n m)
  let own := (localOf (s1.word (Reg.NRW_OWNER n))).toList.filter fun i => s1.nrwState n == nrwGranted && !s1.carriesNrw n i && !s1.passedEntry n i
  let drop := pend.filter fun m => !s1.carriesNrw n (s1.get (Reg.NRW_MEMBER.ISLAND n m))
  let tell := fun (s : State) (i : Nat) => if s.isProxy n then s.tellHome n 2 i 0 0 else s
  let s2 := forEach drop (fun s m => tell (s.withdrawNrw n m) (s.get (Reg.NRW_MEMBER.ISLAND n m))) s1
  forEach own (fun s i => match s.nrwMember? n i with
    | some m => tell (s.withdrawNrw n m) i
    | none => s) s2

/-- Step 7: decisions and grants (R252); the operands of new items, and the hints to remote members that registered (R248, R262). -/
def State.nrwStep7 (s : State) (n : Nat) : State :=
  let i? := localOf (s.word (Reg.NRW_OWNER n))
  let exits := fun (i : Nat) => match (s.flow i).run with
    | some r => s.holdsNrw n i && ((s.flow i).exits r.seg).contains n
    | none => false
  let began := match i? with
    | some i => (s.nrw n).exit == 0 && exits i
    | none => false
  let s0 := if began then
      let s0 := s.modNrw n fun x => { x with exit := 1 }
      if s.isProxy n then (s0.modNrw n fun x => { x with exit := 2 }).tellHome n 3 (i?.getD 0) 0 0 else s0
    else s
  if s.isProxy n then s0
  else
    let s1 := if (s0.nrw n).exit = 1 then (s0.decideNext n).modNrw n fun x => { x with exit := 2 } else s0
    let s2 := if s1.nrwState n = nrwFree then
        let d := s1.decideNrw n
        match d.1 with
        | some m => d.2.grantNrw n m
        | none => d.2
      else s1
    let s3 := forEach (s2.nrwItems n) (fun s p =>
      match s.nrwMember? n p.2.flow with
      | some m =>
        let t := s.nrwTell n m 0
        t.2.deliverNrw p.1 (operandWord n false t.1)
      | none => s) s2
    forEach (s3.nrwIn.filter fun x => x.op == 1 && x.narrows == n) (fun s x =>
      match s.memberOf? n (ownerWord true x.node x.island) with
      | some m =>
        let t := s.nrwTell n m x.seq
        if t.1.op = 8 then { t.2 with nrwOut := t.2.nrwOut ++ [t.1] } else s
      | none => s) s3

/-- A proxy's item whose island holds the narrows gets its grant at once. -/
def State.proxyHeld (s : State) (n : Nat) : State :=
  if s.isProxy n then
    forEach ((s.nrwItems n).filter fun p => s.holdsNrw n p.2.flow) (fun s p =>
      match s.nrwMember? n p.2.flow with
      | some m =>
        let t := s.nrwTell n m 0
        t.2.deliverNrw p.1 (operandWord n true t.1)
      | none => s) s
  else s

/-- GRANTED passes to PASSING at the boundary at which the local owner's path passes its entry point (R251, R255). -/
def State.nrwPass (s : State) (n : Nat) : State :=
  match localOf (s.word (Reg.NRW_OWNER n)) with
  | some i => if s.nrwState n = nrwGranted ∧ s.passedEntry n i then s.set (Reg.NRW_STATE.STATE n) nrwPassing else s
  | none => s

/-- The distance along the path that is left to the entry point of a narrows island `i` does not hold: in the running segment, or in
the first released one, whose stop is made within the running segment where its entry point lies too near its start. -/
def State.toEntry (s : State) (i : Nat) (r : Run) : Option Rat :=
  let f := s.flow i
  let lim := s.stopLimits i r.seg true
  let own := match r.seg.desc.nrwEnter with
    | some n => if !s.holdsNrw n i && decide (r.path < r.seg.entry) then some (r.seg.entry - r.path) else none
    | none => none
  let next := match f.released with
    | g :: _ => match g.desc.nrwEnter with
      | some n => if !s.holdsNrw n i && decide (r.seg.join ≠ 0) && decide (g.entry ≤ stopDist g.start 0 lim.1 lim.2) then
          some (r.seg.len - r.path) else none
      | none => none
    | [] => none
  own.or next

/-- Step 8: the entry check of island `i` (R251): at its entry decision point, the last servo boundary from which the stop can still end
at or before the entry point, an island that does not hold the narrows makes that stop. -/
def State.entryCheck (s : State) (i : Nat) : State :=
  match (s.flow i).run with
  | none => s
  | some r =>
    if s.flowState i ≠ flRunning ∨ r.stop.isSome then s
    else
      match s.toEntry i r with
      | none => s
      | some d =>
        let lim := s.stopLimits i r.seg true
        let x := if r.follows then s.stepMotion r else (runPhases r.phases (servoSec * r.scale (s.sigma i)) r.at').1
        if lim.1 ≤ 0 ∨ lim.2 ≤ 0 ∨ r.path + d < s.stopPath i r x then
          (s.holdStop i hcNarrows true).toFlow i flHolding hcNarrows
        else s

/-- An island in HOLDING with cause NARROWS moves on from rest once the grant is in force (R65, R251). -/
def State.nrwResume (s : State) (i : Nat) : State :=
  let f := s.flow i
  if s.flowState i ≠ flHolding ∨ s.holdCause i ≠ hcNarrows ∨ !f.still then s
  else
    match f.run with
    | some r => if (s.toEntry i r).isNone then s.resumeFlow i else s
    | none => s.nextSegment i 0 0 none

/-- NARROWS_ARBITRATE at a servo boundary, after the interpolator (R248–R258): every narrows in ascending number through the steps of
R254, then the entry checks and the islands whose grant has come. -/
def State.arbitrate (s : State) : State :=
  if !s.nrwReady then { s with nrwExits := [], nrwEntered := [], nrwFlushed := [] }
  else
    let s1 := forEach s.nrwIds (fun s n =>
      let s1 := (((s.nrwStep1 n).nrwStep2 n).nrwStep3 n).nrwStep4 n
      let s2 := if s1.isProxy n then (s1.proxyMessages n).proxyHeld n else s1.nrwMessages n
      ((s2.nrwStep6 n).nrwStep7 n).nrwPass n) s
    let undeclared := s1.nrwRels.filter fun r => !s1.on (Reg.NRW_CFG.VALID r.1)
    let s2 := forEach undeclared (fun s r => (s.set Reg.NRW_REL_RESULT.TAG r.2.2).set Reg.NRW_REL_RESULT.STATUS 3) s1
    let s3 := forEach s2.img.islandIds State.nrwResume s2
    { (forEach s3.img.islandIds State.entryCheck s3) with nrwExits := [], nrwEntered := [], nrwFlushed := [], nrwRels := [], nrwIn := [] }

/-! ### Clearance and start (R242, R257, R260, R261) -/

/-- The boxes of narrows `n`. -/
def State.nrwBoxes (s : State) (n : Nat) : List OBox :=
  ((List.range 512).filter fun b => s.on (Reg.BOX_CFG.VALID b) && s.get (Reg.BOX_CFG.NARROWS b) == n).map fun b =>
    let v := fun (r : Nat → Nat → Nat) (k : Nat) => f32 (s.word (r b k))
    { c := ⟨v Reg.BOX_C 0, v Reg.BOX_C 1, v Reg.BOX_C 2⟩, h := ⟨v Reg.BOX_H 0, v Reg.BOX_H 1, v Reg.BOX_H 2⟩
      w := v Reg.BOX_Q 0, q := ⟨v Reg.BOX_Q 1, v Reg.BOX_Q 2, v Reg.BOX_Q 3⟩ }

/-- The capsules of the subtree of island `i` at pose `k` lie clear of the boxes of narrows `n`: every distance is positive. -/
def State.clearAt (s : State) (n i k : Nat) : Bool :=
  (s.img.subtree i).all fun j => (s.capsulesAt (s.posePos k) j).all fun c => (s.nrwBoxes n).all fun b => decide (0 < downF32 (capBox c.2 b))

/-- The clearance of R257 at a capture, of each orphaned narrows in ascending number (DESIGN CHOICE 26): its former owner, a local
island at rest, is clear of the boxes at all 17 poses. -/
def State.nrwCapture (s : State) : State :=
  let l := (s.nrwIds.filter fun n => s.nrwState n == nrwOrphaned).filterMap fun n => (localOf (s.word (Reg.NRW_OWNER n))).map fun i =>
    (⟨n, 17 * (s.nrwBoxes n).length * (s.img.capsules.filter fun b => (s.img.subtree i).contains b.island).length,
      s.word (Reg.SEPI_TSTOP i) == 0 && (List.range 17).all fun k => s.clearAt n i k⟩ : ClearEval)
  { s with sep := { s.sep with eval := s.sep.eval.map fun e => { e with clear := l } } }

/-- What a publication gives the narrows (R257, R261): the clear counts of orphaned narrows with a local former owner, which a proxy
sends to its home, and NRW_DMIN. -/
def State.nrwPublish (s : State) : State :=
  match s.sep.eval with
  | none => s
  | some e =>
    if !e.computed then s
    else
      forEach s.nrwIds (fun s n =>
        let s1 := match localOf (s.word (Reg.NRW_OWNER n)) with
          | some i =>
            if s.nrwState n = nrwOrphaned ∧ s.get (Reg.NRW_STATE.CAUSE n) ≠ 5 then
              let c := if e.clear.any fun x => x.narrows == n && x.clear then min 16 (s.get (Reg.NRW_CLEAR.COUNT n) + 1) else 0
              let s1 := s.set (Reg.NRW_CLEAR.COUNT n) c
              if s.isProxy n then s1.tellHome n 6 i 0 c else s1
            else s
          | none => s
        let mem := fun (i : Nat) => (s.nrwMember? n i).isSome
        let least := leastDist ((s.pairEntries.filter fun p => mem p.2.1 && mem p.2.2).filterMap fun p =>
          let w := s.word (Reg.PAIR_DMIN p.1)
          if w = f32Inf then none else some (f32 w))
        let old := if s1.word (Reg.NRW_DMIN n) = f32Inf then none else some (f32 (s1.word (Reg.NRW_DMIN n)))
        if (s1.nrw n).grantAt = 0 then s1
        else s1.setWord (Reg.NRW_DMIN n) (distWord (leastDist (least.toList ++ old.toList)))) s

/-- The start evaluation at the first separation boundary of BRING_UP (R260). -/
def State.nrwStart (s : State) : State :=
  if s.nrwReady then s
  else
    let s1 := forEach s.nrwIds (fun s n =>
      let local' := ((List.range 16).filter fun m => s.on (Reg.NRW_MEMBER.VALID n m) && !s.on (Reg.NRW_MEMBER.REMOTE n m)).map
        fun m => s.get (Reg.NRW_MEMBER.ISLAND n m)
      if local'.all fun i => s.clearAt n i 0 then s.freeNrw n
      else ((s.setWord (Reg.NRW_OWNER n) 0).set (Reg.NRW_STATE.CAUSE n) 5).log (Src.narrows n) Ev.ZONE_ORPHANED 5 0) s
    { s1 with nrwReady := true }

/-- LOAD leaves every narrows ORPHANED with nothing pending (R260). -/
def State.nrwLoad (s : State) : State :=
  let s1 := forN 128 (fun s n =>
    let s1 := ((s.setWord (Reg.NRW_STATE n) nrwOrphaned).setWord (Reg.NRW_OWNER n) 0).setWord (Reg.NRW_NEXT n) 0
    let s2 := ((s1.setWord (Reg.NRW_CLEAR n) 0).setWord (Reg.NRW_DMIN n) f32Inf).setWord (Reg.NRW_REQ n) 0
    forN 16 (fun s m => s.setWord (Reg.NRW_WAIT n m) 0) s2) s
  { s1 with nrws := [], nrwRels := [], nrwReady := false, nrwIn := [], nrwOut := [], nrwExits := [], nrwEntered := [], nrwFlushed := [] }

/-- A member's device has gone unheard for 3 federation cycles (R262): its requests are withdrawn, the narrows it holds are orphaned. -/
def State.nrwLost (s : State) (node : Nat) : State :=
  forEach (s.nrwIds.filter fun n => s.get (Reg.NRW_CFG.ROLE n) == 1) (fun s n =>
    let ms := (List.range 16).filter fun m => s.on (Reg.NRW_MEMBER.VALID n m) && s.on (Reg.NRW_MEMBER.REMOTE n m) &&
      s.get (Reg.NRW_MEMBER.NODE n m) == node
    let own := (s.nrwState n == nrwGranted || s.nrwState n == nrwPassing) && ms.any fun m => s.word (Reg.NRW_OWNER n) == s.memberWord n m
    let s1 := if own then s.orphanNrw n 4 else s
    forEach (ms.filter fun m => s1.on (Reg.NRW_WAIT.PENDING n m)) (fun s m => s.withdrawNrw n m) s1) s

/-! ### Meanings -/

/-- ZONE_WATCHDOG (R259): the time since the grant has reached WD. The watchdog counts at servo boundaries: it bites at the boundary of
this instant where that has been worked, else at the next one (step 2 of R254). -/
def execZoneWatchdog (t : Time) (n : Fin 128) (s : State) : Out :=
  live t s fun s =>
    if !s.nrwDue n.val then s
    else if s.atServo then s.nrwBite n.val
    else s.modNrw n.val fun x => { x with bite := true }

/-- NRW_REL (R258): a release waits for the next servo boundary. -/
def State.writeNrwRel (s : State) (n epoch tag : Nat) : State :=
  let s1 := (s.set Reg.NRW_REL_RESULT.TAG tag).set Reg.NRW_REL_RESULT.STATUS 4
  { s1 with nrwRels := s1.nrwRels ++ [(n, epoch, tag)] }

/-- NRW_REL (R258): a write of NRW_REL naming narrows `n` and an epoch. -/
def State.wNrwRel (s : State) (n : Fin 128) (epoch : BitVec 16) (tag : Byte) : State := s.writeNrwRel n.val epoch.toNat tag.toNat
/-- NRW_REL. -/
def execNrwRel (t : Time) (n : Fin 128) (epoch : BitVec 16) (tag : Byte) (s : State) : Out :=
  byHost t s Reg.NRW_REL (65536 * epoch.toNat + 256 * tag.toNat + n.val) (fun s => s.wNrwRel n epoch tag)

end Sys2Proof.Machine
end

