-- ==== Sys2Proof/Machine/Federation.lean ====
section
/-! DEFINITION. Dorlu links and the archipelago (R321–R342): references, slot frames and their records, relays, link delays, federation
time and phase, masters and backups, breaks and healing. -/

namespace Sys2Proof.Machine

/-- FED_STAT.STATE codes (R342). -/
def fedOffState : Nat := 0
def fedListen : Nat := 1
def fedJoining : Nat := 2
def fedMember : Nat := 3
def fedMaster : Nat := 4

/-- The federation state. -/
def State.fedState (s : State) : Nat := s.get Reg.FED_STAT.STATE
/-- Change the federation's state. -/
def State.modFed (s : State) (f : FedSt → FedSt) : State := { s with fed := f s.fed }
/-- The node number of the device. -/
def State.fedNode (s : State) : Nat := s.get Reg.FED_CFG.NODE
/-- FCYC of the last reference acted on or sent. -/
def State.fcyc (s : State) : Nat := s.word64 Reg.FED_CYC_LO
/-- The federation cycle in nanoseconds (R323). -/
def fedNs : Nat := 250000
/-- The unit takes part in the archipelago: a standby only forwards (R303, R321). -/
def State.fedActs (s : State) : Bool := s.takesInputs && s.fedState != fedOffState

/-- A bit of a mask held in consecutive registers. -/
def State.maskBit (s : State) (reg : Nat → Nat) (n : Nat) : Bool := bitAt (s.word (reg (n / 32))) (n % 32)
/-- Set a mask held in 16 consecutive registers to the nodes of a list. -/
def State.setMask (s : State) (reg : Nat → Nat) (l : List Nat) : State :=
  forN 16 (fun s w => s.setWord (reg w) ((l.filter fun n => n / 32 == w).foldl (fun m n => withBit m (n % 32) true) 0)) s

/-! ### Federation time and phase (R332–R334) -/

/-- The remainder of `d` modulo the federation cycle that is nearest to 0. -/
def nearFed (d : Int) : Int := let r := d % 250000; if 125000 < r then r - 250000 else r

/-- The phase error of a separation boundary against a federation instant (R334), and what it gives: FED_PHASE, ALIGNED, the ring cycles
trimmed until it is gone. -/
def State.fedPhase (s : State) (instant : Int) : State :=
  let boundary : Int := (s.dev.cycleTsc : Int) - (s.dev.cycle.toNat % 16 * ringNs : Nat)
  let e := nearFed (boundary - instant)
  let s1 := (s.setWord Reg.FED_PHASE (ux 32 e)).modFed fun f => { f with trim := -e }
  if e.natAbs ≤ 20 then s1.set Reg.FED_STAT.ALIGNED 1 else s1

/-- The length of the ring cycle that begins now: 15 625 ns, and at most 8 ns more or less while the phase is slewed (R334). -/
def State.trimStep (s : State) : Int := max (-8) (min 8 s.fed.trim)

/-- The timer and the rings of a device of the archipelago start at a federation instant (R12, R334, R336); none where the timer runs
already. -/
def State.fedStartRings (s : State) (instant : Nat) : State :=
  if s.dev.timer then s
  else
    let s1 := { s with dev := { s.dev with timer := true, nextCycle := instant } }
    if s1.takesInputs then s1.ringsStart else s1

/-- FED_OFS (R333) takes a value; the change over the last two cycles corrects the rate. -/
def State.putOfs (s : State) (ofs ft : Int) : State :=
  let l := (ofs :: s.fed.ofs).take 3
  let drift := if l.length = 3 then ofs - l.getD 2 0 else 0
  { (s.setWord64 Reg.FED_OFS_LO (ux 64 ofs)).modFed (fun f => { f with ofs := l.take 2 }) with fedFt := ft.toNat, fedDrift := drift }

/-! ### The passing of a federation cycle (R262, R330, R331, R337, R34) -/

/-- The last node heard on a side (R341): the one that reports LOOPED, else the last one accepted. -/
def State.lastOn (s : State) (port : Nat) : Nat :=
  let l := (s.fed.heardPrev.filter fun x => x.2 == port).map (·.1)
  (l.find? fun n => s.fed.looped.contains n).getD (l.getLastD 0)

/-- The shared lines that line axes of this device take (R28). -/
def State.linesUsed (s : State) : List Nat :=
  ((List.range 8).filter fun k => s.get (Reg.LINE_CFG.SOURCE k) == 3).map fun k => s.get (Reg.LINE_CFG.SRC_INDEX k)

/-- A federation cycle has passed: publications that were missing in it count (R34). -/
def State.countLines (s : State) : State :=
  let got := s.fed.gotLines
  let s1 := forEach s.linesUsed (fun s i =>
    let x := tget default s.shared i
    { s with shared := tput default s.shared i { x with missed := if got.contains i then 0 else x.missed + 1 } }) s
  s1.modFed fun f => { f with gotLines := [] }

/-- A federation cycle has passed: what was heard in it shows, publications and members that were missing count. -/
def State.fedRoll (s : State) : State :=
  let f := s.fed
  let nodes := f.heardPrev.map (·.1)
  let s1 := s.countLines
  let members := ((s1.nrwIds.flatMap fun n => (List.range 16).filterMap fun m =>
    if s1.on (Reg.NRW_MEMBER.VALID n m) && s1.on (Reg.NRW_MEMBER.REMOTE n m) then some (s1.get (Reg.NRW_MEMBER.NODE n m)) else none)).eraseDups
  let s2 := forEach members (fun s n =>
    let u := if nodes.contains n then 0 else tget 0 s.fed.unheard n + 1
    let s' := s.modFed fun f => { f with unheard := tput 0 f.unheard n u }
    if u = 3 then s'.nrwLost n else s') s1
  let s3 := s2.setMask Reg.FED_SEEN (f.heard.map (·.1))
  let runs := (f.edges.eraseDups.map fun n => (n, tget 0 f.edgeRuns n + 1)).foldl (fun t p => tput 0 t p.1 p.2) ([] : Tbl Nat)
  let again := f.closed.all nodes.contains
  let s4 := if s3.fedState = fedMaster ∧ s3.get Reg.FED_STAT.MODE = 3 ∧ !f.healed ∧ again then
      (s3.modFed fun f => { f with healed := true }).log Src.archipelago Ev.RING_HEALED (s3.lastOn 1 + 65536 * s3.lastOn 0) f.holes
    else s3
  s4.modFed fun f => { f with
    heardPrev := f.heard, heard := [], edges := [], edgeRuns := runs, slotSent := false
    holes := if again then 0 else f.holes + 1, closed := if s4.get Reg.FED_STAT.MODE = 2 ∨ (s4.fedState ≠ fedMaster ∧ f.ref.isSome ∧ !f.refFolded) then nodes else f.closed
    taken := f.taken.filter fun x => decide (s4.fcyc ≤ x.2 + 1), req := none }

/-! ### The reference the master sends (R325, R331, R337) -/

/-- FT of an instant of the local TSC (R333). -/
def State.fedTimeOf (s : State) (tsc : Nat) : Nat := ux 64 ((tsc : Int) + s.int64 Reg.FED_OFS_LO)

/-- The body of the reference that goes out from a port (R325): ORIGIN 0 on DL1, 1 on DL0. -/
def State.referenceBody (s : State) (port : Nat) (extend : Bool) (ft : Nat) : List Nat :=
  [1, b2n (port == 0) + 2 * b2n s.fed.both + 8 * b2n extend] ++ leBytes 2 s.fedNode ++ [s.get Reg.FED_CFG.RANK, 0, 0, 0] ++
  leBytes 8 s.fcyc ++ leBytes 8 ft ++ leBytes 4 0 ++
  leBytes 4 ((if port = 0 then s.fed.c0 else s.fed.c1).getD 0) ++
  ((List.range 16).flatMap fun w => leBytes 4 (s.word (Reg.FED_MUTE w))) ++ List.replicate 8 0

/-- A frame on the wire: its body and the CRC-32C over it (R324). -/
def fedFrame (body : List Nat) : List Nat := body ++ leBytes 4 (crc32c body)

/-- The port on which a frame that arrives on `port` leaves (R329, R337): the other one, the same one where the other is in loop-back. -/
def State.fedLeaves (s : State) (port : Nat) : Nat := if s.fed.loopPort = some (1 - port) then port else 1 - port

/-- A frame that arrived on `port` is forwarded (R329, R337); a reference that is turned back gets RETURN and its CRC anew. -/
def State.fedForward (s : State) (port : Nat) (f : List Nat) (clean : Bool) : State :=
  let out := s.fedLeaves port
  let turned := clean && out == port && leAt f 0 1 == 1 && frameOk 104 f clean
  let g := if turned then fedFrame (f.take 1 ++ [withBit (leAt f 1 1) 2 true] ++ (f.take 104).drop 2) else f
  s.modFed fun x => { x with forwarded := [(out, g)] }

/-- The copy acted on goes on with the residence time and the delay of the acting link added to ACC_DELAY (R329). The residence is a free
value up to 150 ns (R322). -/
def State.fedPassOn (s : State) (port : Nat) (f : List Nat) : State :=
  let r := s.freeBelow 15 (150 * 16 + 1)
  let acc := leAt f 24 4 + r.1 + (if port = 0 then s.fed.linkDelay0 else s.fed.linkDelay1)
  r.2.fedForward port (fedFrame (f.take 24 ++ leBytes 4 acc ++ (f.take 104).drop 28)) true

/-- The master's registers: MRANK and node of the master. -/
def State.showMaster (s : State) (rank node : Nat) : State :=
  ((s.set Reg.FED_MASTER.VALID 1).set Reg.FED_MASTER.MRANK rank).set Reg.FED_MASTER.NODE node

/-- The looped link counts the federation cycles it has been up; EXTEND then ends the loop-back (R208, R337). -/
def State.fedLoopStep (s : State) (extend : Bool) : State :=
  if !s.on Reg.FED_STAT.LOOPED then s
  else
    let up := s.on Reg.FED_STAT.LINK0 && s.on Reg.FED_STAT.LINK1
    let n := if up then s.fed.loopRun + 1 else 0
    let s1 := (s.modFed fun f => { f with loopRun := n }).setB Reg.FED_STAT.LOOP_LINK (decide (64 ≤ n))
    if extend && s.on Reg.FED_STAT.LOOP_LINK then
      ((s1.set Reg.FED_STAT.LOOPED 0).set Reg.FED_STAT.LOOP_LINK 0).modFed fun f => { f with loopRun := 0, loopPort := none }
    else s1

/-- The master sends the reference of federation cycle `c` at `instant`: mutes, a re-close, the reference on DL1, folded on both. -/
def State.sendReference (s : State) (c instant : Nat) : State :=
  let s0 := (s.setWord64 Reg.FED_CYC_LO c).setWord64 Reg.FED_CYC_BASE_LO (ux 64 ((c : Int) - (s.dev.cycle.toNat / 16 : Nat)))
  let f := s0.fed
  let muted := (((List.range 512).filter fun n => s0.maskBit Reg.FED_MUTE n || f.mutes.contains n)).filter fun n => !f.unmutes.contains n
  let s1 := s0.setMask Reg.FED_MUTE muted
  let reclose := f.reqReclose && s1.get Reg.FED_STAT.MODE == 3
  let ok := f.looped.all f.loopLinks.contains && (!s1.on Reg.FED_STAT.LOOPED || s1.on Reg.FED_STAT.LOOP_LINK)
  let s2 := if reclose then
      if ok then (s1.set Reg.FED_STAT.MODE 2).modFed fun f => { f with recloseAt := some c } else s1.flag Reg.FED_STAT.RECLOSE_REFUSED
    else s1
  let both := match s2.fed.recloseAt with
    | some m => if c = m + 1 then false else f.both
    | none => f.both
  let ft := s2.fedTimeOf instant
  let s3 := s2.modFed fun f => { f with
    prev := match s2.fed.ref with
      | some (t0, _, c0) => some (t0, c0, f.c0, f.c1)
      | none => none
    mutes := [], unmutes := [], reqReclose := false, both := both, ref := some (instant, 0, c), lastRef := instant, due := some (instant + fedNs)
    unreturned := s2.get Reg.FED_STAT.MODE == 2 && !f.both && !f.back, back := false, c0 := none, c1 := none, run := (s2.fedNode, 0) }
  let ext := s3.fed.recloseAt == some c
  let out := (1, fedFrame (s3.referenceBody 1 ext ft)) :: (if both then [(0, fedFrame (s3.referenceBody 0 ext ft))] else [])
  (((s3.modFed fun f => { f with sent := out }).showMaster (s3.get Reg.FED_CFG.RANK) s3.fedNode).set Reg.FED_DELAY.D 0).fedLoopStep ext

/-- The device becomes the master (R335, R336), closed or folded. -/
def State.becomeMaster (s : State) (folded : Bool) : State :=
  ((s.set Reg.FED_STAT.STATE fedMaster).set Reg.FED_STAT.MODE (if folded then 3 else 2)).modFed fun f => { f with
    both := folded, unreturned := false, back := true, recloseAt := none, reqReclose := false, yield := false, healed := false, holes := 0
    edgeRuns := [], relays := [], looped := [], loopLinks := [], due := none }

/-! ### The separation boundary (R323, R340) -/

/-- The samples that this device publishes of its lines, taken at a separation boundary with its FT (R340). -/
def State.fedPublish (s : State) : State :=
  let ft := s.fedTimeOf s.dev.cycleTsc
  let l := (List.range 8).filterMap fun k =>
    if s.on (Reg.FED_PUB.EN k) then some (LinePub.mk k (s.word64 (Reg.LINE_POS_LO k)) (s.word (Reg.LINE_VEL k)) ft) else none
  s.modFed fun f => { f with pubs := l }

/-- FED_TX_DROP at most once each second (R328). -/
def State.fedDrops (s : State) : State :=
  let due := match s.fed.dropAt with
    | some t0 => decide (t0 + 1000000000 ≤ s.now)
    | none => true
  if s.fed.dropped ≠ 0 ∧ due = true then
    (s.modFed fun f => { f with dropped := 0, dropAt := some s.now }).log Src.archipelago Ev.FED_TX_DROP s.fed.dropped 0
  else s

/-- The instant in this ring cycle at which the master's reference is due: 250 µs after the one before, else at a separation boundary
(R323, R333, R336). -/
def State.referenceDue (s : State) : Option Nat :=
  let first := if s.sepCycle then some s.dev.cycleTsc else none
  match s.fed.due with
  | some d => if d < s.dev.cycleTsc then first else if d < s.dev.nextCycle then some d else none
  | none => first

/-- The master begins the federation cycle in the ring cycle that holds its reference instant; one that gave way falls silent. -/
def State.fedReference (s : State) : State :=
  if !s.fedActs ∨ s.fedState ≠ fedMaster then s
  else
    match s.referenceDue with
    | none => s
    | some instant =>
      if s.fed.yield then
        ((s.modFed fun f => { f with yield := false, ref := none, run := (0, 0) }).set Reg.FED_STAT.STATE fedJoining).set Reg.FED_STAT.MODE 0
      else
        let c := s.fcyc + 1
        let s2 := ((s.sendReference c instant).fedRoll).fedPhase instant
        let late := s2.fed.relays.filter fun r => decide (r.2.1 + 1 < c)
        (s2.modFed fun f => { f with relays := f.relays.filter fun r => !decide (r.2.1 + 1 < c) }).addSat Reg.FED_CNT.RELAY_DROP late.length

/-- What a device of the archipelago does at a separation boundary: it samples the lines it publishes. One that acts on no reference, in
LISTEN or as the follower of its pair, counts its federation cycles here, for the publications of R34 (DEDUCED 10). -/
def State.fedBoundary (s : State) : State :=
  let s1 := if s.img.federation && (!s.takesInputs || s.fedState == fedListen) then s.countLines else s
  if s1.fedActs then s1.fedPublish.fedDrops else s1

/-! ### Receiving a reference (R329, R332, R333, R336) -/

/-- Rank `a` of node `m` precedes rank `b` of node `n` (R336): lower, or equal with a lower node number. -/
def rankBefore (a m b n : Nat) : Bool := decide (a < b) || (a == b && decide (m < n))

/-- The device acts on a reference copy that arrives now on a port (R329, R332–R334, R336). -/
def State.actReference (s : State) (port : Nat) (f : List Nat) : State :=
  let st := s.fedState
  let c := leAt f 8 8
  let node := leAt f 2 2 % 512
  let d := leAt f 24 4 + (if port = 0 then s.fed.linkDelay0 else s.fed.linkDelay1)
  let inst : Int := ((s.now : Int) * 16 - d) / 16
  let ft := leAt f 16 8
  let inTime := decide (s.now ≤ s.fed.lastRef + fedNs * (s.get Reg.FED_STAT.MISS_RUN + 1) + 1000)
  let s1 := ((s.setWord64 Reg.FED_CYC_LO c).set Reg.FED_DELAY.D d).showMaster (leAt f 4 1) node
  let s2 := forN 16 (fun s w => s.setWord (Reg.FED_MUTE w) (leAt f (32 + 4 * w) 4)) s1
  let s3 := if inTime ∨ st = fedListen then s2.set Reg.FED_STAT.MISS_RUN 0 else s2
  let run := if s.fed.run.1 = node then s.fed.run.2 + 1 else 1
  let s4 := (s3.modFed fun x => { x with ref := some (s.now, port, c), lastRef := s.now, refFolded := bitAt (leAt f 1 1) 1, run := (node, run) }).putOfs ((ft : Int) - inst) ft
  let s5 := (s4.fedLoopStep (bitAt (leAt f 1 1) 3)).fedRoll
  let s6 := if st = fedListen then (s5.fedStartRings ((inst + 250000).toNat)).set Reg.FED_STAT.STATE fedJoining
    else if st = fedJoining ∧ 2 ≤ run then
      ((s5.set Reg.FED_STAT.STATE fedMember).modFed fun x => { x with slotSent := true }).log Src.archipelago Ev.FED_JOINED node (c % 2 ^ 32)
    else s5
  if s6.dev.begun then
    (s6.setWord64 Reg.FED_CYC_BASE_LO (ux 64 ((c : Int) - (s6.dev.cycle.toNat / 16 : Nat)))).fedPhase inst
  else s6

/-- The master's own reference returns on a port, or a foreign one arrives (R322, R331, R336, R337). -/
def State.masterReference (s : State) (port : Nat) (f : List Nat) : State :=
  let ret := bitAt (leAt f 1 1) 2
  let node := leAt f 2 2 % 512
  if node = s.fedNode then
    match s.fed.ref with
    | some (t0, _, c) =>
      let d := s.now - t0
      if leAt f 8 8 ≠ c then s
      else
        let s1 := (s.setWord Reg.FED_LOOP d).setWord Reg.FED_LOOP_MAX (max (s.word Reg.FED_LOOP_MAX) d)
        let s2 := s1.modFed fun x => if port = 0 then { x with c0 := some d, back := x.back || !ret } else { x with c1 := some d }
        let s3 := if d ≤ 200000 then s2.set Reg.FED_STAT.OVER_BUDGET 0
          else if s2.on Reg.FED_STAT.OVER_BUDGET then s2
          else (s2.set Reg.FED_STAT.OVER_BUDGET 1).log Src.archipelago Ev.RING_DELAY port d
        if port = 0 ∧ !ret ∧ s3.fed.recloseAt.any (fun m => c == m + 1) then
          (s3.modFed fun x => { x with recloseAt := none }).log Src.archipelago Ev.RING_CLOSED d 0
        else s3
    | none => s
  else if ret || s.fed.yield || !rankBefore (leAt f 4 1) node (s.get Reg.FED_CFG.RANK) s.fedNode then s
  else (s.modFed fun x => { x with yield := true }).log Src.archipelago Ev.FED_MASTER (node + 512) (s.get Reg.FED_STAT.MISS_RUN)

/-- A Dorlu frame is well formed: its length for its TYPE, no code error, its CRC-32C (R324). -/
def fedOk (len : Nat) (f : List Nat) (clean : Bool) : Bool := frameOk len f clean

/-- A frame that R324 discards. -/
def State.fedBad (s : State) : State := s.addSat Reg.FED_CNT.CRC 1

/-- REFERENCE_RECEIVE (R329): a reference copy arrives on DL`port`, body and CRC in `frame`; it is acted on or only forwarded. The master
forwards none (DEDUCED 31). -/
def execReferenceReceive (t : Time) (port : Fin 2) (frame : List Byte) (clean : Bool) (s : State) : Out :=
  live t s fun s =>
    let f := natBytes frame
    if !s.fedActs then s.fedForward port.val f clean
    else if !fedOk 104 f clean ∨ leAt f 0 1 ≠ 1 then s.fedBad.fedForward port.val f clean
    else if s.fedState = fedMaster then s.masterReference port.val f
    else
      let c := leAt f 8 8
      let next := decide (s.fcyc + 1 ≤ c) && decide (c ≤ s.fcyc + 1 + s.get Reg.FED_STAT.MISS_RUN)
      if bitAt (leAt f 1 1) 2 ∨ !(s.fedState == fedListen || next) then s.fedForward port.val f clean
      else (s.fedPassOn port.val f).actReference port.val f

/-- REFERENCE_MISSING (R335, R336): no reference has been acted on by 1 µs after the predicted instant: the count rises; a joining
device listens again, a backup at its limit becomes master, folded. -/
def execReferenceMissing (t : Time) (s : State) : Out :=
  live t s fun s =>
    let n := s.get Reg.FED_STAT.MISS_RUN
    if !s.fedActs ∨ !(s.fedState == fedJoining || s.fedState == fedMember) ∨ s.now ≤ s.fed.lastRef + fedNs * (n + 1) + 1000 then s
    else
      let s1 := ((s.set Reg.FED_STAT.MISS_RUN (satInc 8 n)).fedRoll).modFed fun f => { f with ref := none, run := (0, 0) }
      let rank := s.get Reg.FED_CFG.RANK
      if s.fedState = fedJoining then
        ((s1.set Reg.FED_STAT.STATE fedListen).set Reg.FED_STAT.ALIGNED 0).modFed fun f => { f with since := s.now }
      else if 2 ≤ rank ∧ rank ≤ 4 ∧ rank + 1 ≤ n + 1 then
        let s2 := (s1.becomeMaster true).log Src.archipelago Ev.FED_MASTER s.fedNode (n + 1)
        (s2.sendReference (s.fcyc + n + 1) s.now).set Reg.FED_STAT.MISS_RUN 0
      else s1

/-- FED_LISTEN_TIMEOUT (R336): 500 µs + 2 µs × node number after listening began without a reference: a ranked device is master from
FCYC 0, another starts its rings on its own timebase. -/
def execFedListenTimeout (t : Time) (s : State) : Out :=
  live t s fun s =>
    if s.fedActs ∧ s.fedState = fedListen ∧ s.fed.since + 500000 + 2000 * s.fedNode ≤ s.now then
      let rank := s.get Reg.FED_CFG.RANK
      let s1 := s.fedStartRings s.now
      if rank = 0 then s1
      else ((s1.becomeMaster false).putOfs 0 s.now).setWord64 Reg.FED_CYC_LO (2 ^ 64 - 1)
    else s

/-! ### Slot frames (R326–R331) -/

/-- A record (R327): KIND, body length, body. -/
def fedRecord (kind : Nat) (body : List Nat) : List Nat := [kind, body.length] ++ body

/-- The LINE record of a published line (R327, R340). -/
def State.lineRecord (s : State) (p : LinePub) : List Nat :=
  fedRecord 1 ([s.get (Reg.FED_PUB.SHARED p.line), 0, 0, 0] ++ leBytes 8 p.pos ++ leBytes 4 p.vel ++ leBytes 8 p.ft)

/-- The NARROWS record of a message (R327). -/
def narrowsRecord (m : NrwMsg) : List Nat :=
  fedRecord 2 ([m.op, m.narrows % 128] ++ leBytes 2 m.node ++ leBytes 2 m.island ++ leBytes 2 m.epoch ++ leBytes 8 m.est ++
    [m.qpos, b2n m.next, m.clear, m.line % 8] ++ leBytes 4 m.seq)

/-- The SAFETY record of a message, to every node (R327). -/
def safetyRecord (msg : List Nat) : List Nat := fedRecord 3 ([0xFF, 0xFF, 0, 0] ++ msg)

/-- An event record as 32 bytes (R413), with `t` in place of its TSC. -/
def EventRec.bytes (r : EventRec) (t : Nat) : List Nat :=
  leBytes 8 t ++ leBytes 4 (r.source.toNat + 4096 * r.code.toNat + 2 ^ 24 * b2n r.remote + 2 ^ 25 * b2n r.archived +
    2 ^ 26 * b2n r.early + 2 ^ 27 * b2n r.precycle) ++
  leBytes 8 r.line.toNat ++ leBytes 4 r.cycle.toNat ++ leBytes 4 r.d0.toNat ++ leBytes 4 r.d1.toNat

/-- The EVENT record of an exported event: its federation time stands in place of the TSC (R327). -/
def State.eventRecord (s : State) (r : EventRec) : List Nat := fedRecord 4 (r.bytes (s.fedTimeOf r.tsc.toNat))

/-- How many of the records fit, in order, into `room` bytes. -/
def fits : List (List Nat) → Nat → Nat
  | [], _ => 0
  | r :: rest, room => if r.length ≤ room then fits rest (room - r.length) + 1 else 0

/-- The records of the slot frame (R328): lines, safety, narrows, events; one that does not fit waits, and those queued behind it. -/
def State.slotRecords (s : State) : List (List Nat) × State :=
  let ls := s.fed.pubs.map s.lineRecord
  let room0 := 472 - (ls.flatten).length
  let sf := s.fed.safety.map safetyRecord
  let a := fits sf room0
  let room1 := room0 - ((sf.take a).flatten).length
  let nr := s.nrwOut.map narrowsRecord
  let b := fits nr room1
  let room2 := room1 - ((nr.take b).flatten).length
  let ev := s.fed.events.map s.eventRecord
  let c := fits ev room2
  let s1 := { s with nrwOut := s.nrwOut.drop b }.modFed fun f => { f with safety := f.safety.drop a, events := f.events.drop c }
  (ls ++ sf.take a ++ nr.take b ++ ev.take c, s1)

/-- SLOT_FRAME_SEND (R329): at its slot offset after the reference a member or master sends its slot frame. -/
def execSlotFrameSend (t : Time) (s : State) : Out :=
  live t s fun s =>
    match s.fed.ref with
    | none => s
    | some (t0, port, c) =>
      let n := s.fedNode
      let sends := s.fedActs && (s.fedState == fedMember || s.fedState == fedMaster) && !s.fed.slotSent && !s.maskBit Reg.FED_MUTE n
      if sends && decide (t0 + 144 + 488 * n ≤ s.now + 8) then
        let r := s.slotRecords
        let recs := r.1.flatten
        let head := [2, 2 * s.get Reg.FED_STAT.LOOPED + 4 * s.get Reg.FED_STAT.LOOP_LINK] ++ leBytes 2 n ++
          [s.get Reg.FED_CFG.RANK, 0] ++ leBytes 2 recs.length ++ leBytes 8 c
        let outs := if s.fedState = fedMaster then (if s.fed.both then [1, 0] else [1]) else [s.fedLeaves port]
        (r.2.set Reg.FED_TX.LEN recs.length).modFed fun f => { f with
          slotSent := true, sent := outs.map fun o => (o, fedFrame (head ++ recs)) }
      else s

/-- The NARROWS message a record body spells, with the node it comes from. -/
def parseNrw (node : Nat) (b : List Nat) : NrwMsg :=
  { op := leAt b 0 1, narrows := leAt b 1 1 % 128, node := node, island := leAt b 4 2 % 512, epoch := leAt b 6 2, est := leAt b 8 8
    qpos := leAt b 16 1, next := bitAt (leAt b 17 1) 0, clear := leAt b 18 1, line := leAt b 19 1 % 8, seq := leAt b 20 4 }

/-- The event record a body spells, from node `n` (R27, R413). -/
def State.parseEvent (s : State) (n : Nat) (b : List Nat) : EventRec :=
  let w := leAt b 8 4
  { tsc := BitVec.ofNat 64 (ux 64 (s.fedToTsc (leAt b 0 8))), source := BitVec.ofNat 12 w, code := BitVec.ofNat 12 (w / 4096)
    remote := true, archived := false, early := bitAt w 26, precycle := bitAt w 27, line := BitVec.ofNat 64 (leAt b 12 8)
    cycle := BitVec.ofNat 32 (n % 512 + 512 * (leAt b 20 4 % 2 ^ 23)), d0 := BitVec.ofNat 32 (leAt b 24 4), d1 := BitVec.ofNat 32 (leAt b 28 4) }

/-- The consumed Dorlu connections that a safety message names by its CONN_ID (R291, R292). -/
def State.dorluConns (s : State) (msg : List Nat) : List Nat :=
  (List.range 64).filter fun c => s.on (Reg.CONN_CFG.VALID c) && !s.on (Reg.CONN_CFG.DIR c) && s.on (Reg.CONN_CFG.DORLU c) &&
    s.word (Reg.CONN_ID c) == leAt msg 0 4

/-- A record of node `n` is taken (R327); `safety` where SAFETY records count: on a standby they come as mirrored messages. -/
def State.takeRecord (s : State) (n kind : Nat) (b : List Nat) (safety : Bool) : State :=
  match kind with
  | 1 =>
    let i := leAt b 0 1
    let x : SharedLine := ⟨true, sx 64 (leAt b 4 8), sx 32 (leAt b 12 4), leAt b 16 8, (tget default s.shared i).missed⟩
    let s1 := { s with shared := tput default s.shared i x }
    s1.modFed fun f => { f with gotLines := f.gotLines ++ [i] }
  | 2 => if leAt b 2 2 = s.fedNode then { s with nrwIn := s.nrwIn ++ [parseNrw n b] } else s
  | 3 =>
    if safety && (leAt b 0 2 == s.fedNode || leAt b 0 2 == 0xFFFF) && s.chaRuns then
      forEach (s.dorluConns (b.drop 4)) (fun s c => s.connReceive c (b.drop 4) true) s
    else s
  | 4 => { s with toLog := s.toLog ++ [s.parseEvent n b] }
  | _ => s.addSat Reg.FED_CNT.SKIPPED 1

/-- The records in the bytes of a slot frame: KIND and body (R327). -/
def splitRecords : Nat → List Nat → List (Nat × List Nat)
  | 0, _ => []
  | m + 1, l =>
    if l.length < 2 then [] else (leAt l 0 1, (l.drop 2).take (leAt l 1 1)) :: splitRecords m (l.drop (2 + leAt l 1 1))

/-- Take the records of a slot frame of node `n`, in order. -/
def State.takeRecords (s : State) (n : Nat) (l : List (Nat × List Nat)) (safety : Bool) : State :=
  forEach l (fun s r => s.takeRecord n r.1 r.2 safety) s

/-- The start that R330 and R331 expect of a slot frame with FCYC `c`: on the master, C_P later for a first sending that returns on a
port. None where no frame with that FCYC is expected. -/
def State.fedExpected (s : State) (port n c : Nat) (relayed : Bool) : Option Nat :=
  match s.fed.ref with
  | none => none
  | some (t0, _, _) =>
    if s.fedState = fedMaster then
      if relayed then none
      else if c = s.fcyc then (if port = 0 then s.fed.c0 else s.fed.c1).map fun d => t0 + d + 144 + 488 * n
      else match s.fed.prev with
        | some (t1, c1, a, b) => if c = c1 then (if port = 0 then a else b).map fun d => t1 + d + 144 + 488 * n else none
        | none => none
    else if c + b2n relayed = s.fcyc then some (t0 + 144 + 488 * n) else none

/-- A sender with the own rank and a lower node number: the own rank is given up until the next LOAD (R336). -/
def State.checkRank (s : State) (n rank : Nat) : State :=
  if rank = 0 ∨ rank ≠ s.get Reg.FED_CFG.RANK ∨ s.fedNode ≤ n then s
  else
    let s1 := (s.set Reg.FED_CFG.RANK 0).log Src.archipelago Ev.DUPLICATE_RANK n s.fedNode
    if s1.fedState = fedMaster then
      ((s1.set Reg.FED_STAT.STATE fedJoining).set Reg.FED_STAT.MODE 0).modFed fun f => { f with ref := none, run := (0, 0) }
    else s1

/-- What an accepted slot frame gives (R330, R331): heard, its loop flags and rank, its records once, and a relay by the master. -/
def State.acceptSlotFrame (s : State) (port : Nat) (f : List Nat) : State :=
  let n := leAt f 2 2 % 512
  let c := leAt f 8 8
  let relayed := bitAt (leAt f 1 1) 0
  let add := fun (l : List Nat) (b : Bool) => (l.filter (· != n)) ++ (if b then [n] else [])
  let s1 := s.modFed fun x => { x with
    looped := add x.looped (bitAt (leAt f 1 1) 1), loopLinks := add x.loopLinks (bitAt (leAt f 1 1) 2)
    relays := if s.fedState = fedMaster ∧ !relayed then x.relays ++ [(n, c, 1 - port, f.take (16 + leAt f 6 2))] else x.relays }
  if s1.fed.taken.contains (n, c) then s1
  else
    let s2 := s1.modFed fun x => { x with
      taken := x.taken ++ [(n, c)]
      heard := if c = s.fcyc then x.heard ++ [(n, port)] else x.heard
      heardPrev := if c = s.fcyc then x.heardPrev else x.heardPrev ++ [(n, port)] }
    let s3 := if c = s.fcyc then s2 else s2.setWord (Reg.FED_SEEN (n / 32)) (withBit (s2.word (Reg.FED_SEEN (n / 32))) (n % 32) true)
    let s4 := s3.checkRank n (leAt f 4 1 % 8)
    let bytes := (f.drop 16).take (leAt f 6 2)
    let recs := splitRecords bytes.length bytes
    if s4.inPair then
      let m : MirrorRec := ⟨6, s4.servoNo + 2, leBytes 2 n ++ bytes⟩
      let s5 := s4.takeRecords n (recs.filter fun r => r.1 == 3) true
      { s5 with mirrorHeld := s5.mirrorHeld ++ [m], mirrorOut := s5.mirrorOut ++ [m] }
    else s4.takeRecords n recs true

/-- What a device of the archipelago takes from a slot frame that starts to arrive now on DL`port` (R330, R331). -/
def State.takeSlotFrame (s : State) (port : Nat) (f : List Nat) : State :=
  let n := leAt f 2 2 % 512
  let relayed := bitAt (leAt f 1 1) 0
  if n = s.fedNode then s
  else
    match s.fedExpected port n (leAt f 8 8) relayed with
    | none => if s.fedState = fedMaster ∧ relayed = true then s else s.addSat Reg.FED_CNT.EDGE 1
    | some e =>
      if e ≤ s.now + 32 ∧ s.now ≤ e + 48 then s.acceptSlotFrame port f
      else
        let s1 := (s.addSat Reg.FED_CNT.EDGE 1).modFed fun x => { x with edges := x.edges ++ [n] }
        if s.fedState = fedMaster then
          s1.log Src.archipelago Ev.SLOT_EDGE (n + 65536 * port) (ux 32 ((s.now : Int) - e))
        else s1

/-- A slot frame that arrived on `port` goes on (R329), but for the own one that comes relayed on the acting port. The master sends again
instead (R331). -/
def State.slotForward (s : State) (port : Nat) (f : List Nat) (clean : Bool) : State :=
  let own := leAt f 2 2 % 512 = s.fedNode ∧ bitAt (leAt f 1 1) 0 = true ∧ s.fed.ref.any fun r => r.2.1 == port
  if (s.fedActs ∧ s.fedState = fedMaster) ∨ own then s else s.fedForward port f clean

/-- SLOT_FRAME_RECEIVE (R329, R330): a slot frame starts to arrive now on DL`port`, body and CRC in `frame`. -/
def execSlotFrameReceive (t : Time) (port : Fin 2) (frame : List Byte) (clean : Bool) (s : State) : Out :=
  live t s fun s =>
    let f := natBytes frame
    let len := leAt f 6 2
    let s1 := s.slotForward port.val f clean
    if !s.fedActs then s1
    else if leAt f 0 1 ≠ 2 ∨ 472 < len ∨ !fedOk (16 + len) f clean then s1.fedBad
    else s1.takeSlotFrame port.val f

/-- The frame of a slot as the master sends it again: RELAYED is set (R326, R331). -/
def relayFrame (body : List Nat) : List Nat := fedFrame (body.take 1 ++ [withBit (leAt body 1 1) 0 true] ++ body.drop 2)

/-- RELAY_SEND (R331): the time master sends the frame of slot `n` again in the next cycle; one it cannot place in time is dropped and
counted (R322). -/
def execRelaySend (t : Time) (n : Fin 512) (s : State) : Out :=
  live t s fun s =>
    match s.fed.ref, s.fed.relays.find? fun r => r.1 == n.val && r.2.1 + 1 == s.fcyc with
    | some (t0, _, _), some r =>
      if !s.fedActs ∨ s.fedState ≠ fedMaster then s
      else
        let s1 := s.modFed fun f => { f with relays := f.relays.filter fun x => x != r }
        if t0 + 144 + 488 * n.val + 8 < s.now then s1.addSat Reg.FED_CNT.RELAY_DROP 1
        else s1.modFed fun f => { f with sent := [(r.2.2.1, relayFrame r.2.2.2)] }
    | _, _ => s

/-! ### Link delays (R332) -/

/-- The acting port of this cycle. -/
def State.actingPort (s : State) : Option Nat := s.fed.ref.map fun r => r.2.1

/-- The reference guard of the present federation cycle (R323): 96 to 144 ns after the reference instant. -/
def State.inGuard (s : State) : Bool := s.fed.ref.any fun r => decide (r.1 + 96 ≤ s.now) && decide (s.now ≤ r.1 + 144)

/-- LINK_REQ_SEND (R332): in the reference guard of its measurement cycle the device sends LINK_REQ to its upstream neighbour. -/
def execLinkReqSend (t : Time) (s : State) : Out :=
  live t s fun s =>
    match s.actingPort with
    | some p =>
      if s.fedActs ∧ s.fedState ≠ fedMaster ∧ s.fcyc % 16 = s.fedNode % 16 ∧ s.inGuard then
        s.modFed fun f => { f with
          req := some (s.now, p), sent := [(p, fedFrame ([3, 0] ++ leBytes 2 s.fedNode ++ List.replicate 12 0))] }
      else s
    | none => s

/-- LINK_REQ_RECEIVE (R332): a neighbour's LINK_REQ on DL`port` is answered with LINK_RESP and the residence time in ns. -/
def execLinkReqReceive (t : Time) (port : Fin 2) (frame : List Byte) (clean : Bool) (residence : Word) (s : State) : Out :=
  live t s fun s =>
    let f := natBytes frame
    if !s.fedActs then s
    else if !fedOk 16 f clean ∨ leAt f 0 1 ≠ 3 then s.fedBad
    else s.modFed fun x => { x with
      sent := [(port.val, fedFrame ([4, 0] ++ leBytes 2 s.fedNode ++ leBytes 4 residence.toNat ++ List.replicate 8 0))] }

/-- LINK_RESP_RECEIVE (R332): a LINK_RESP gives the link delay (t4 − t1 − r) / 2. -/
def execLinkRespReceive (t : Time) (port : Fin 2) (frame : List Byte) (clean : Bool) (s : State) : Out :=
  live t s fun s =>
    let f := natBytes frame
    if !s.fedActs then s
    else if !fedOk 16 f clean ∨ leAt f 0 1 ≠ 4 then s.fedBad
    else
      match s.fed.req with
      | some (t1, p) =>
        if p = port.val then
          let d := (s.now - t1 - leAt f 4 4) * 8
          s.modFed fun x => if p = 0 then { x with req := none, linkDelay0 := d } else { x with req := none, linkDelay1 := d }
        else s
      | none => s

/-! ### Breaks, mutes and the host's commands (R331, R337, R342) -/

/-- FED_FOLD (R337): the reference of the last cycle did not return on DL0 with RETURN 0: the master sends on both ports, beginning with
the reference of this cycle. -/
def execFedFold (t : Time) (s : State) : Out :=
  live t s fun s =>
    if s.fedActs ∧ s.fedState = fedMaster ∧ s.get Reg.FED_STAT.MODE = 2 ∧ s.fed.unreturned then
      let s1 := (s.set Reg.FED_STAT.MODE 3).modFed fun f => { f with both := true, unreturned := false, recloseAt := none, healed := false, holes := 0 }
      let ft := s1.fedTimeOf s1.fed.lastRef
      s1.modFed fun f => { f with sent := [(1, fedFrame (s1.referenceBody 1 false ft)), (0, fedFrame (s1.referenceBody 0 false ft))] }
    else s

/-- FED_NODE_MUTE (R331): the master mutes a node with an out-of-window frame in each of 3 consecutive cycles. -/
def execFedNodeMute (t : Time) (n : Fin 512) (s : State) : Out :=
  live t s fun s =>
    if s.fedActs ∧ s.fedState = fedMaster ∧ 3 ≤ tget 0 s.fed.edgeRuns n.val ∧ !s.maskBit Reg.FED_MUTE n.val ∧ !s.fed.mutes.contains n.val then
      (s.modFed fun f => { f with mutes := f.mutes ++ [n.val] }).log Src.archipelago Ev.NODE_MUTED n.val 1
    else s

/-- FED_RECLOSE (R337): a re-close is requested, decided with the next reference. -/
def State.wFedReclose (s : State) : State :=
  if s.fedState = fedMaster then s.modFed fun f => { f with reqReclose := true } else s
/-- FED_RECLOSE. -/
def execFedReclose (t : Time) (s : State) : Out :=
  byHost t s Reg.FED_CTRL 1 State.wFedReclose

/-- FED_MUTE (R331): the host mutes the named node, on the master. -/
def State.wFedMute (s : State) (n : Fin 512) : State :=
  if s.fedState = fedMaster ∧ !s.maskBit Reg.FED_MUTE n.val ∧ !s.fed.mutes.contains n.val then
    (s.modFed fun f => { f with mutes := f.mutes ++ [n.val], unmutes := f.unmutes.filter (· != n.val) }).log
      Src.archipelago Ev.NODE_MUTED n.val 3
  else s
/-- FED_MUTE. -/
def execFedMute (t : Time) (n : Fin 512) (s : State) : Out :=
  byHost t s Reg.FED_CTRL (4 + 65536 * n.val) (fun s => s.wFedMute n)

/-- FED_UNMUTE (R331): the host unmutes the named node, on the master. -/
def State.wFedUnmute (s : State) (n : Fin 512) : State :=
  if s.fedState = fedMaster then
    s.modFed fun f => { f with unmutes := f.unmutes ++ [n.val], mutes := f.mutes.filter (· != n.val), edgeRuns := tput 0 f.edgeRuns n.val 0 }
  else s
/-- FED_UNMUTE. -/
def execFedUnmute (t : Time) (n : Fin 512) (s : State) : Out :=
  byHost t s Reg.FED_CTRL (2 + 65536 * n.val) (fun s => s.wFedUnmute n)

/-- FED_CLR (R342): FED_LOOP_MAX and FED_CNT become 0. -/
def State.wFedClr (s : State) : State := (s.setWord Reg.FED_LOOP_MAX 0).setWord Reg.FED_CNT 0
/-- FED_CLR. -/
def execFedClr (t : Time) (s : State) : Out :=
  byHost t s Reg.FED_CTRL 8 State.wFedClr

/-- DORLU_LINK_DOWN (R321, R337): the link of a port goes down: the device loops back and sends the remote-fault sequence on it. -/
def execDorluLinkDown (t : Time) (port : Fin 2) (s : State) : Out :=
  live t s fun s =>
    let s1 := (s.set (if port.val = 0 then Reg.FED_STAT.LINK0 else Reg.FED_STAT.LINK1) 0).set Reg.FED_STAT.LOOPED 1
    (s1.set Reg.FED_STAT.LOOP_LINK 0).modFed fun f => { f with
      loopRun := 0, loopPort := some port.val, remoteFault := f.remoteFault.filter (· != port.val) ++ [port.val] }

/-- DORLU_LINK_UP (R321): the link of a port comes up; a loop-back stays until a re-close (R337). -/
def execDorluLinkUp (t : Time) (port : Fin 2) (s : State) : Out :=
  live t s fun s => (s.set (if port.val = 0 then Reg.FED_STAT.LINK0 else Reg.FED_STAT.LINK1) 1).modFed fun f => { f with
    remoteFault := f.remoteFault.filter (· != port.val) }

/-! ### Device states (R336) -/

/-- POWER_UP, LOAD, UNCONFIGURED, SHUTDOWN_TEST and SAFE_HOLD: the device forwards only (R336). -/
def State.fedForwardOnly (s : State) : State :=
  let s1 := ((s.set Reg.FED_STAT.STATE fedOffState).set Reg.FED_STAT.MODE 0).set Reg.FED_STAT.ALIGNED 0
  let f := s1.fed
  ((s1.set Reg.FED_STAT.MISS_RUN 0).set Reg.FED_MASTER.VALID 0).modFed fun _ =>
    { (default : FedSt) with
      linkDelay0 := f.linkDelay0, linkDelay1 := f.linkDelay1, events := f.events, loopRun := f.loopRun, loopPort := f.loopPort
      remoteFault := f.remoteFault }

/-- BRING_UP is entered (R336): with a FEDN section the device listens; its rings wait for a reference or the end of listening. -/
def State.fedBringUp (s : State) : State :=
  if s.img.federation then (s.set Reg.FED_STAT.STATE fedListen).modFed fun f => { f with since := s.now, ref := none, run := (0, 0) } else s

end Sys2Proof.Machine
end

