-- ==== Sys2Proof/Machine/Log.lean ====
section
/-! DEFINITION. The log ring (R415–R417), EVT_N and the event archive in the flash (R418). -/

namespace Sys2Proof.Machine

/-! ### The log ring (R415–R417) -/

/-- Records the ring can hold: 65 536, or 256 in the on-die buffer (R415, R416). -/
def State.logCap (s : State) : Nat := if s.logst.dram then 65536 else 256

/-- LOG_WPTR and LOG_RPTR. -/
def State.wptr (s : State) : Nat := s.word Reg.LOG_WPTR
def State.rptr (s : State) : Nat := s.word Reg.LOG_RPTR

/-- EVT_N follows its two conditions (R417): the level of unread records, and the time the oldest unread one has stood in the ring. -/
def State.evtUpdate (s : State) : State :=
  let n := s.get Reg.LOG_UNREAD.UNREAD
  let delay := s.get Reg.LOG_CFG.EVT_DELAY
  let old := decide (tget 0 s.logst.written (s.rptr % 65536) + delay * 1000000 ≤ s.now)
  s.setB Reg.LOG_STAT.EVT (s.devState != devPowerUp &&
    (decide (max 1 (s.get Reg.LOG_CFG.EVT_LEVEL) ≤ n) || (delay != 0 && n != 0 && old)))

/-- The count of the record a start given as `v` means (R415): within the records held. -/
def State.placed (s : State) (v : Nat) : Nat :=
  let b := (s.wptr + 2 ^ 32 - v % 2 ^ 32) % 2 ^ 32
  if b ≤ s.logst.held then v % 2 ^ 32
  else if b ≤ 2 ^ 31 then (s.wptr + 2 ^ 32 - s.logst.held) % 2 ^ 32
  else s.wptr

/-- A write of LOG_RPTR (R415, R417). -/
def State.writeRptr (s : State) (v : Nat) : State :=
  let p := s.placed v
  ((s.setWord Reg.LOG_RPTR p).set Reg.LOG_UNREAD.UNREAD ((s.wptr + 2 ^ 32 - p) % 2 ^ 32)).evtUpdate

/-- The 32 bytes of record count `n`. -/
def State.recordAt (s : State) (n : Nat) : List Nat :=
  if s.logst.dram then mread 0 s.mem (0xBFE00000 + 32 * (n % 65536)) 32
  else (tget [] s.logst.buf (n % 256)) ++ List.replicate (32 - (tget [] s.logst.buf (n % 256)).length) 0

/-- Write a record into the ring (R415): where LOG_UNREAD would exceed the ring, the oldest unread record is lost. -/
def State.ringWrite (s : State) (r : EventRec) : State :=
  let n := s.wptr
  let b := EventRec.bytes { r with early := r.early || !s.logst.dram } r.tsc.toNat
  let l := s.logst
  let l1 : LogSt := { l with held := min s.logCap (l.held + 1), written := tput 0 l.written (n % 65536) s.now
                             buf := if l.dram then l.buf else tput [] l.buf (n % 256) b }
  let s1 := { s with logst := l1, mem := if l.dram then mwrite 0 s.mem (0xBFE00000 + 32 * (n % 65536)) b else s.mem }
  let s2 := s1.setWord Reg.LOG_WPTR (n + 1)
  let s3 := if s.logCap ≤ s.get Reg.LOG_UNREAD.UNREAD then
      ((s2.setWord Reg.LOG_RPTR (s2.rptr + 1)).addSat Reg.LOG_STAT.LOST 1).flag Reg.LOG_STAT.OVERFLOW
    else s2.set Reg.LOG_UNREAD.UNREAD (s2.get Reg.LOG_UNREAD.UNREAD + 1)
  s3.evtUpdate

/-- The log ring is cleared at POWER_UP (R415). -/
def State.logPowerUp (s : State) : State := { s with logst := default }

/-! ### The archive (R418) -/

/-- The archive's area in the flash: its start, and its end by the flash's size (R370). -/
def arcStart : Nat := 0x04220000
def State.arcEnd (s : State) : Nat := s.get Reg.FL_INFO.SIZE_MIB * 0x100000

/-- ARC_STAT.PENDING follows the page buffer. -/
def State.showArc (s : State) : State := s.set Reg.ARC_STAT.PENDING (min 127 s.arc.buf.length)

/-- An archived record enters the page buffer. -/
def State.arcKeep (s : State) (r : EventRec) : State :=
  { s with arc := { s.arc with buf := s.arc.buf ++ [r], since := if s.arc.buf.isEmpty then s.now else s.arc.since } }.showArc

/-- The bytes of a page (R418). -/
def arcPage (pseq : Nat) (rs : List EventRec) : List Nat :=
  let h := leBytes 4 0x4145514B ++ leBytes 4 pseq ++ leBytes 2 rs.length ++ List.replicate 18 0
  let b := rs.flatMap fun r => r.bytes r.tsc.toNat
  h ++ leBytes 4 (crc32c (h ++ b)) ++ b

/-- PSEQ of the page at an address, where it is valid (R418). -/
def State.arcPseq? (s : State) (a : Nat) : Option Nat :=
  let p := s.flashRead a 4096
  let n := leAt p 8 2
  if leAt p 0 4 = 0x4145514B ∧ 1 ≤ n ∧ n ≤ 127 ∧ leAt p 28 4 = crc32c (p.take 28 ++ (p.drop 32).take (32 * n)) then
    some (leAt p 4 4)
  else none

/-- The page after the one at `a`, wrapping at the end of the flash. -/
def State.arcNext (s : State) (a : Nat) : Nat := if s.arcEnd ≤ a + 8192 - 1 then arcStart else a + 4096

/-- POWER_UP finds the newest page (R418). Only a page with a programmed byte can be valid. -/
def State.arcPowerUp (s : State) : State :=
  let pages := ((s.flash.map fun c => c.1 / 4096).filter fun p => decide (arcStart / 4096 ≤ p) && decide (4096 * p < s.arcEnd)).eraseDups
  let best : Option (Nat × Nat) := pages.foldl (fun b p => match s.arcPseq? (4096 * p), b with
    | some q, some x => if newer q x.2 then some (4096 * p, q) else some x
    | some q, none => some (4096 * p, q)
    | none, b => b) none
  match best with
  | some x =>
    let s1 := (((s.set Reg.ARC_STAT.VALID 1).setWord Reg.ARC_PSEQ x.2).setWord Reg.ARC_ADDR x.1)
    { s1 with arc := { (default : ArcSt) with pos := s.arcNext x.1, pseq := (x.2 + 1) % 2 ^ 32 } }
  | none => { s with arc := { (default : ArcSt) with pos := arcStart, pseq := 1 } }

/-- A page is due (R418): 127 records, 10 s since the first, or the entry to STOPPING or SHUTDOWN_TEST. -/
def State.arcDue (s : State) : Bool :=
  !s.arc.buf.isEmpty && (decide (127 ≤ s.arc.buf.length) || s.arc.flush || decide (s.arc.since + 10000000000 ≤ s.now))

/-- The device enters STOPPING or SHUTDOWN_TEST: the page buffer is written (R418). -/
def State.arcFlush (s : State) : State := { s with arc := { s.arc with flush := !s.arc.buf.isEmpty } }

/-- ARCHIVE_PAGE_WRITE (R418): a page that is due is written, its sector erased first where it begins one; an erase or a program that
fails logs ARCHIVE_FAILED and keeps the records for the next page. -/
def execArchivePageWrite (t : Time) (eraseOk programOk : Bool) (s : State) : Out := live t s fun s =>
  if !s.arcDue || !s.on Reg.FL_INFO.PRESENT then s
  else
    let a := s.arc.pos
    let first := a % 0x10000 == 0
    let rs := s.arc.buf.take 127
    let rest := s.arc.buf.drop 127
    let fail := fun (s : State) (what : Nat) =>
      (({ s with arc := { s.arc with pos := s.arcNext a, flush := false, since := s.now } }.flag Reg.ARC_STAT.FAILED).log Src.service
        Ev.ARCHIVE_FAILED a what).imgResume
    if first && !eraseOk then fail s 0
    else
      let s1 := if first then s.flashErase a 0x10000 else s
      if !programOk then fail s1 1
      else
        let s2 := s1.flashProgram a (arcPage s.arc.pseq rs)
        let s3 := ((s2.set Reg.ARC_STAT.VALID 1).setWord Reg.ARC_PSEQ s.arc.pseq).setWord Reg.ARC_ADDR a
        ({ s3 with arc := { buf := rest, since := s.now, flush := s.arc.flush && !rest.isEmpty, pos := s.arcNext a
                            pseq := (s.arc.pseq + 1) % 2 ^ 32 } }.showArc).imgResume

/-! ### Commands -/

/-- LOG_RECORD_WRITE (R416, R417): the record made longest ago is written into the ring, an archived one into the page buffer too; before
step 4 of R387 records stay in the on-die buffer. -/
def execLogRecordWrite (t : Time) (s : State) : Out := live t s fun s =>
  match s.toLog with
  | r :: rest =>
    if s.devState = devPowerUp then s
    else
      let s1 := { s with toLog := rest }.ringWrite r
      if r.archived && !r.remote then s1.arcKeep r else s1
  | [] => s

/-- LOG_RPTR_WRITE. -/
def State.wLogRptrWrite (s : State) (v : Word) : State := s.writeRptr v.toNat
/-- LOG_RPTR_WRITE. -/
def execLogRptrWrite (t : Time) (v : Word) (s : State) : Out :=
  byHost t s Reg.LOG_RPTR v.toNat (fun s => s.wLogRptrWrite v)

/-- EVT_DELAY_EXPIRY (R417). -/
def execEvtDelayExpiry (t : Time) (s : State) : Out := live t s State.evtUpdate

end Sys2Proof.Machine
end

