-- ==== Sys2Proof/Machine/Power.lean ====
section
/-! DEFINITION. The governor (R423–R429): temperature sensors, peak credit, boost, throttle levels and thermal stop; and the life sum of
the device (R430). -/

namespace Sys2Proof.Machine

/-- Change what the governor holds. -/
def State.modGov (s : State) (f : GovSt → GovSt) : State := { s with gov := f s.gov }

/-! ### Temperature (R423) -/

/-- Insert into a rising list. -/
def insertInt (x : Int) : List Int → List Int
  | [] => [x]
  | y :: l => if x ≤ y then x :: y :: l else y :: insertInt x l

/-- Twice the median of a list; an even count takes the mean of the two in the middle. -/
def median2 (l : List Int) : Int :=
  let r := l.foldl (fun a x => insertInt x a) []
  r.getD (r.length / 2) 0 + r.getD ((r.length - 1) / 2) 0

/-- A reading within −50 to +150 °C, in 1/64 °C. -/
def inSpan (x : Int) : Bool := decide (-3200 ≤ x) && decide (x ≤ 9600)

/-- The readings that are not excluded (R423): within the span, and within 10 K of the median of the others. -/
def goodSensors (l : List Int) : List Int :=
  let z := (List.range l.length).zip l
  (z.filter fun e =>
    let rest := (z.filter fun d => d.1 != e.1 && inSpan d.2).map (·.2)
    inSpan e.2 && (rest.isEmpty || decide ((2 * e.2 - median2 rest).natAbs ≤ 2 * 640))).map (·.2)

/-- Tj in 1/64 °C (R423): the highest reading not excluded; with fewer than 8, at least 105 °C. -/
def tjOf (good : List Int) : Int :=
  match good with
  | [] => 6720
  | x :: l =>
    let m := l.foldl max x
    if good.length < 8 then max m 6720 else m

/-! ### Boost, throttle, stop (R425–R427) -/

/-- The first condition of R425 that fails, by its cause in R433; 0 none. -/
def State.boostBar (s : State) (tj : Int) : Nat :=
  let st := s.devState
  if !s.on Reg.PT_CFG.BOOST_EN then 1
  else if st ≠ devReduced ∧ st ≠ devAutomatic then 2
  else if s.on Reg.PT_STAT.LEVEL then 3
  else if s.get Reg.PT_CREDIT.CREDIT = 0 ∨ s.on Reg.PT_STAT.CREDIT_LOCK then 4
  else if 6400 ≤ tj then 5 else 0

/-- Every core in service shows whether boost is in force. -/
def State.showBoost (s : State) (b : Bool) : State :=
  forN 16 (fun s c => s.setB (Reg.CORE_STAT.BOOST c) (b && !s.on (Reg.CORE_STAT.ISOLATED c))) (s.setB Reg.PT_STAT.BOOST b)

/-- The throttle level changes to `n`. -/
def State.setLevel (s : State) (n : Nat) (tj : Int) : State :=
  (s.set Reg.PT_STAT.LEVEL n).log Src.power Ev.THERMAL_THROTTLE n (ux 32 tj)

/-- Boost is granted or removed (R425). -/
def State.boostStep (s : State) (tj : Int) : State :=
  let bar := s.boostBar tj
  if s.on Reg.PT_STAT.BOOST then
    if bar = 0 then s
    else
      let s1 := (s.showBoost false).log Src.power Ev.BOOST_REMOVED bar (ux 32 tj)
      if bar = 4 then s1.set Reg.PT_STAT.CREDIT_LOCK 1 else s1
  else if bar = 0 then s.showBoost true else s

/-- The root islands. -/
def Img.roots (g : Img) : List Nat := g.islandIds.filter fun i => (g.parent? i).isNone

/-- Thermal stop (R427): set at 115 °C, clear below 105 °C. -/
def State.stopStep (s : State) (tj : Int) : State :=
  if s.on Reg.PT_STAT.STOP then
    if tj < 6720 then (s.set Reg.PT_STAT.STOP 0).modGov fun g => { g with stopped := false } else s
  else if 7360 ≤ tj then (s.set Reg.PT_STAT.STOP 1).log Src.power Ev.THERMAL_STOP (ux 32 tj) s.img.roots.length
  else s

/-- At every servo boundary while STOP is set (R427): SS1 of every root island at the first, and at each a disable request to every axis. -/
def State.thermalBoundary (s : State) : State :=
  if !s.on Reg.PT_STAT.STOP then s
  else
    let s1 := if s.gov.stopped then s else (forEach s.img.roots State.ss1 s).modGov fun g => { g with stopped := true }
    forEach s.img.axisIds State.askDisable s1

/-! ### Life (R430) -/

/-- The ageing factor at a temperature in 1/64 °C: exact where the exponent is whole. -/
def ageingFactor (tj : Rat) : Rat :=
  let x := (tj / 64 - 85) / 10
  if x.den = 1 then pow2 x.num else Config.ageing (tj / 64)

/-- A second of powered time ends with a mean Tj. -/
def State.lifeSecond (s : State) (tj : Rat) : State :=
  let af := ageingFactor tj
  s.modGov fun g => { g with sum := g.sum + af / 3600, afs := (af :: g.afs).take 2592000, powered := g.powered + 1 }

/-- PT_LIFE_EQH, PT_LIFE_FRAC, PT_LIFE_AF and PT_LIFE_POWERED (R430, R434). -/
def State.showAgeing (s : State) : State :=
  let g := s.gov
  let mean : Rat := if g.afs.isEmpty then 0 else (g.afs.foldl (· + ·) 0) / g.afs.length
  (((s.setWord Reg.PT_LIFE_EQH (toF32 g.sum)).setWord Reg.PT_LIFE_FRAC (toF32 (g.sum / 350640))).setWord Reg.PT_LIFE_AF (toF32 mean)).setWord
    Reg.PT_LIFE_POWERED (satU 32 (g.powered / 3600))

/-- The life sum goes into on-die non-volatile memory, where at least `hours` of powered time have passed since the last store (R430). -/
def State.storeLife (s : State) (hours : Nat) : State :=
  if s.gov.powered < s.gov.stored + 3600 * hours then s
  else { s with nvm := { s.nvm with sum := s.gov.sum, afs := s.gov.afs, powered := s.gov.powered }
                gov := { s.gov with stored := s.gov.powered } }

/-- POWER_UP: the governor starts from what non-volatile memory holds; the credit is full (R424, R430). -/
def State.govPowerUp (s : State) : State :=
  { s with gov := { (default : GovSt) with sum := s.nvm.sum, afs := s.nvm.afs, powered := s.nvm.powered, stored := s.nvm.powered } }.showAgeing

/-! ### Commands -/

/-- The peak credit after a sample (R424). -/
def State.creditStep (s : State) (power : Nat) : State :=
  let c := s.get Reg.PT_CREDIT.CREDIT
  if 950 < power then (s.set Reg.PT_CREDIT.CREDIT (c - 1)).modGov fun g => { g with half := false }
  else
    let c1 := if s.gov.half then min 60000 (c + 1) else c
    let s1 := (s.set Reg.PT_CREDIT.CREDIT c1).modGov fun g => { g with half := !g.half }
    if 30000 ≤ c1 then s1.set Reg.PT_STAT.CREDIT_LOCK 0 else s1

/-- GOVERNOR_SAMPLE (R423–R427, R429, R430): the 16 readings in 1/64 °C and the power of the last 1 ms in 0.1 W. -/
def execGovernorSample (t : Time) (temps : List (BitVec 16)) (power : BitVec 16) (s : State) : Out := live t s fun s =>
  let raw := (temps.take 16).map fun w => sx 16 w.toNat
  let good := goodSensors raw
  let tj := tjOf good
  let s1 := (s.set Reg.PT_STAT.SENSORS_OK good.length).set Reg.PT_TJ.TJ (ux 16 tj)
  let s2 := if good.length < 16 then s1.flag Reg.PT_STAT.SENSOR_BAD else s1
  let s3 := if sx 16 (s2.get Reg.PT_TJ.MAX) < tj then s2.set Reg.PT_TJ.MAX (ux 16 tj) else s2
  let s4 := (s3.set Reg.PT_POWER.POWER power.toNat).set Reg.PT_POWER.PEAK (max (s3.get Reg.PT_POWER.PEAK) power.toNat)
  let s5 := (s4.creditStep power.toNat).modGov fun g => { g with
    hot := if 6720 ≤ tj then some (g.hot.getD s4.now) else none
    cool := if tj < 6400 then some (g.cool.getD s4.now) else none }
  let rises := decide (6720 ≤ tj) && s5.get Reg.PT_STAT.LEVEL == 0
  let s6 := if rises then
      let s' := (s5.set Reg.PT_STAT.LEVEL 1).boostStep tj
      (s'.log Src.power Ev.THERMAL_THROTTLE 1 (ux 32 tj)).modGov fun g => { g with hot := some s5.now }
    else s5.boostStep tj
  let s7 := s6.stopStep tj
  let s8 := s7.modGov fun g => { g with count := g.count + 1, tsum := g.tsum + tj }
  if s8.gov.count < 1000 then s8
  else ((s8.lifeSecond ((s8.gov.tsum : Rat) / s8.gov.count)).modGov fun g => { g with count := 0, tsum := 0 }).showAgeing

/-- THERMAL_THROTTLE (R426): a further second at or above 105 °C raises the level, a second below 100 °C lowers it by one step. -/
def execThermalThrottle (t : Time) (s : State) : Out := live t s fun s =>
  let n := s.get Reg.PT_STAT.LEVEL
  let tj := sx 16 (s.get Reg.PT_TJ.TJ)
  let due := fun (o : Option Nat) => o.any fun x => decide (x + 1000000000 ≤ s.now)
  if due s.gov.hot && decide (1 ≤ n) && decide (n < 3) then (s.setLevel (n + 1) tj).modGov fun g => { g with hot := some s.now }
  else if due s.gov.cool && decide (1 ≤ n) then ((s.setLevel (n - 1) tj).modGov fun g => { g with cool := some s.now })
  else s

/-- LIFE_SUM_STORE (R430): after every 64 h of powered time. -/
def execLifeSumStore (t : Time) (s : State) : Out := live t s fun s => s.storeLife 64

/-- PT_CTRL.CLR_MAX (R434). -/
def State.ptClrMax (s : State) : State := (s.set Reg.PT_TJ.MAX 0).set Reg.PT_POWER.PEAK 0

/-- PT_CLR_MAX. -/
def execPtClrMax (t : Time) (s : State) : Out :=
  byHost t s Reg.PT_CTRL 1 State.ptClrMax

end Sys2Proof.Machine
end

