-- ==== Sys2Proof/Machine/Time.lean ====
section
/-! DEFINITION. Ethernet ports and network time (R343–R355): what the ports answer, domain time, the servo, offset and path delay
measurements, the states of a domain, snapshots. -/

namespace Sys2Proof.Machine

/-- TD_STATE.STATE codes and the causes of HOLDOVER (R355). -/
def tdDisabled : Nat := 0
def tdAcquiring : Nat := 1
def tdLocked : Nat := 2
def tdHoldover : Nat := 3
def tdMaster : Nat := 4
def tcMaster : Nat := 1
def tcJump : Nat := 2
def tcDelay : Nat := 3

/-- Time domain `d`. -/
def State.td (s : State) (d : Nat) : TdSt := tget default s.tds d
/-- Change time domain `d`. -/
def State.modTd (s : State) (d : Nat) (f : TdSt → TdSt) : State := { s with tds := tput default s.tds d (f (s.td d)) }
/-- The state of domain `d`. -/
def State.tdState (s : State) (d : Nat) : Nat := s.get (Reg.TD_STATE.STATE d)
/-- A frame goes out of an Ethernet port: the bytes of its fields. -/
def State.sendEth (s : State) (port kind : Nat) (bytes : List Nat) : State := { s with ethOut := [⟨port, kind, bytes⟩] }

/-! ### Domain time (R346, R349) -/

/-- One nanosecond in the unit of domain time, 2^-41 ns. -/
def nsUnit : Int := 2 ^ 41

/-- RATE of domain `d`. -/
def State.tdRate (s : State) (d : Nat) : Int := sx 32 (s.word (Reg.TD_RATE d))

/-- Domain time at TSC `T` (R346). -/
def State.tdAt (s : State) (d T : Nat) : Int := (s.td d).time + ((T : Int) - (s.td d).base) * (nsUnit + s.tdRate d)

/-- RATE takes a value; time goes on from now. -/
def State.setRate (s : State) (d : Nat) (r : Int) : State :=
  (s.modTd d fun x => { x with time := s.tdAt d s.now, base := s.now }).setWord (Reg.TD_RATE d) (ux 32 r)

/-- The domain steps by `n` ns (R346, R350). -/
def State.stepTime (s : State) (d : Nat) (n : Int) : State :=
  s.modTd d fun x => { x with time := x.time + n * nsUnit, stepped := true }

/-- Domain time as seconds and nanoseconds. -/
def secNs (t : Int) : Nat × Nat :=
  let ns := t / nsUnit
  (ux 64 (ns / 1000000000), (ns % 1000000000).toNat)

/-- A time that a message carries as 48 bits of seconds and nanoseconds, nearest to the domain's own seconds (R349), as domain time. -/
def State.originTime (s : State) (d sec ns : Nat) : Int :=
  let own : Int := s.tdAt d s.now / nsUnit / 1000000000
  let near := own + sx 48 (ux 48 ((sec : Int) - own))
  (near * 1000000000 + (ns : Int)) * nsUnit

/-- A correctionField, units of 2^-16 ns, as domain time. -/
def corrTime (c : BitVec 64) : Int := sx 64 c.toNat * 2 ^ 25

/-- Domain time in whole nanoseconds; where it is none, by a free rounding. -/
def wholeNs (t : Int) : Int := if t % nsUnit = 0 then t / nsUnit else Config.wholeNs ((t : Rat) / (nsUnit : Rat))

/-! ### States and the servo (R347, R350, R351) -/

/-- The domain enters a state with a cause. -/
def State.tdEnter (s : State) (d st cause : Nat) : State :=
  (s.set (Reg.TD_STATE.STATE d) st).set (Reg.TD_STAT.CAUSE d) cause

/-- The domain enters ACQUIRING; `back` by R351. -/
def State.tdAcquire (s : State) (d : Nat) (back : Bool) : State :=
  (s.tdEnter d tdAcquiring 0).modTd d fun x => { x with seen := false, back := back, good := 0, delays := [], cmd := none }

/-- The domain becomes a master: RATE 0, never stepped (R347). -/
def State.tdToMaster (s : State) (d : Nat) : State := ((s.setRate d 0).tdEnter d tdMaster 0).modTd d fun x => { x with cmd := none }

/-- The servo (R347): I and RATE from a measured offset in ns; RATE_MAX is 2^31 − 1. -/
def State.tdServo (s : State) (d : Nat) (th : Int) : State :=
  let lim := fun (x : Int) => max (-(2 ^ 31 - 1)) (min (2 ^ 31 - 1) x)
  let i := lim ((s.td d).int + (s.get (Reg.TD_SERVO.KI d) : Int) * th)
  (s.setRate d (lim ((s.get (Reg.TD_SERVO.KP d) : Int) * th + i))).modTd d fun x => { x with int := i }

/-- STEP_MAX, LOCK_NS and DELAY_STEP in ns (R350, R355). -/
def State.stepMax (s : State) (d : Nat) : Nat := s.get (Reg.TD_THRESH.STEP_MAX d) * 1000
def State.lockNs (s : State) (d : Nat) : Nat := s.get (Reg.TD_THRESH.LOCK_NS d) * 4
def State.delayStep (s : State) (d : Nat) : Nat := s.get (Reg.TD_THRESH.DELAY_STEP d) * 4

/-- Into HOLDOVER by the rules of R350: a path delay step before a jump; none trips: nothing. -/
def State.tdRefuse (s : State) (d : Nat) (th mpd : Int) : Option State :=
  let r := sx 32 (s.word (Reg.TD_MPD_REF d))
  if (s.delayStep d : Int) < (mpd - r).natAbs then
    some (((s.tdEnter d tdHoldover tcDelay).modTd d fun x => { x with stable := none }).log (Src.domain d) Ev.PATH_DELAY_STEP (ux 32 mpd) (ux 32 r))
  else if s.stepMax d < th.natAbs then
    some ((s.tdEnter d tdHoldover tcJump).log (Src.domain d) Ev.TIME_JUMP_REFUSED (ux 32 (satS 32 th)) (s.stepMax d))
  else none

/-- A path delay in HOLDOVER with cause DELAY joins the stable ones, or starts them anew (R350). -/
def State.tdStable (s : State) (d : Nat) (mpd : Int) : State :=
  let lim : Rat := (s.get (Reg.TD_THRESH.DELAY_STEP d) : Rat)
  let fresh := some (s.now, 1, mpd, mpd, mpd)
  s.modTd d fun x => { x with stable := match x.stable with
    | none => fresh
    | some (t0, n, sum, lo, hi) =>
      let sum' := sum + mpd
      let mean : Rat := (sum' : Rat) / ((n + 1 : Nat) : Rat)
      let lo' := min lo mpd
      let hi' := max hi mpd
      if mean - lo' ≤ lim ∧ hi' - mean ≤ lim then some (t0, n + 1, sum', lo', hi') else fresh }

/-- An offset measurement (R347, R350, R351): θ and the mean path delay in ns. -/
def State.tdMeasure (s : State) (d : Nat) (th mpd : Int) : State :=
  let s1 := (s.setWord (Reg.TD_OFFSET d) (ux 32 (satS 32 th))).setWord (Reg.TD_MPD d) (ux 32 (satS 32 mpd))
  let s2 := s1.modTd d fun x => { x with
    delays := if s.on (Reg.TD_CFG.P2P d) then x.delays else (mpd :: x.delays).take 16, cmd := none, seen := true }
  let x := s.td d
  let st := s.tdState d
  let cause := s.get (Reg.TD_STAT.CAUSE d)
  if st = tdAcquiring then
    if !x.seen ∧ !x.back then
      ((s2.stepTime d (-th)).tdServo d th).log (Src.domain d) Ev.TIME_STEPPED (ux 32 (satS 32 (-th))) 0
    else if x.back ∧ s.stepMax d < th.natAbs then
      (s2.tdEnter d tdHoldover tcJump).log (Src.domain d) Ev.TIME_JUMP_REFUSED (ux 32 (satS 32 th)) (s.stepMax d)
    else
      let good := if th.natAbs < s.lockNs d then x.good + 1 else 0
      let s3 := (s2.tdServo d th).modTd d fun x => { x with good := good }
      if 16 ≤ good then
        let l := (s3.td d).delays
        let sum := l.foldl (· + ·) 0
        let r := if l ≠ [] ∧ sum % (l.length : Int) = 0 then sum / (l.length : Int) else Config.wholeNs ((sum : Rat) / (l.length : Rat))
        ((s3.setWord (Reg.TD_MPD_REF d) (ux 32 r)).tdEnter d tdLocked 0).log (Src.domain d) Ev.TIME_LOCKED ((s3.td d).gm % 2 ^ 32) (ux 32 r)
      else s3
  else if st = tdLocked then (s2.tdRefuse d th mpd).getD (s2.tdServo d th)
  else if st = tdHoldover then
    if cause = tcMaster then
      match s2.tdRefuse d th mpd with
      | some s3 => s3
      | none => (s2.tdServo d th).tdEnter d tdLocked 0
    else if cause = tcJump then
      if x.cmd = some 1 then
        ((s2.stepTime d (-th)).tdAcquire d false).log (Src.domain d) Ev.TIME_STEPPED (ux 32 (satS 32 (-th))) 1
      else s2
    else if x.cmd = some 2 then (s2.setWord (Reg.TD_MPD_REF d) (ux 32 mpd)).tdEnter d tdLocked 0
    else s2.tdStable d mpd
  else s2

/-- The offset (R348): arrival less origin, corrections, mean path delay and TD_ASYM. -/
def State.tdOffset (s : State) (d : Nat) (arrival origin corr mpd : Int) : Int :=
  wholeNs (arrival - origin - corr - mpd * nsUnit - sx 32 (s.word (Reg.TD_ASYM d)) * nsUnit)

/-! ### Messages (R344, R345, R348) -/

/-- The enabled domain that runs on a port with a domainNumber and a transport (R345). -/
def State.tdOf (s : State) (port dom : Nat) (udp : Bool) : Option Nat :=
  (List.range 4).find? fun d => s.on (Reg.TD_CFG.EN d) && s.get (Reg.TD_CFG.PORT d) == port && s.get (Reg.TD_CFG.DOMAIN d) == dom &&
    s.on (Reg.TD_CFG.UDP d) == udp && s.tdState d != tdDisabled

/-- A frame is discarded and counted (R343, R345). -/
def State.ethDiscard (s : State) (port : Nat) : State := s.addSat (Reg.ETH_CNT.DISCARD port) 1

/-- A message of a domain: its effect on the domain it belongs to, on the unit that runs IEEE 1588 (R303, R352); discarded where no
domain takes it. -/
def ptpMessage (t : Time) (port : Fin 2) (dom : Byte) (udp : Bool) (s : State) (f : Nat → State → State) : Out :=
  live t s fun s =>
    if !s.takesInputs then s
    else match s.tdOf port.val dom.toNat udp with
      | some d => f d s
      | none => s.ethDiscard port.val

/-- The domain is a slave. -/
def State.tdSlave (s : State) (d : Nat) : Bool := s.tdState d == tdAcquiring || s.tdState d == tdLocked || s.tdState d == tdHoldover

/-- Domain time of a message that arrives now (R344): the raw stamp plus ETH_LAT.RX_NS. -/
def State.rxTime (s : State) (d port : Nat) : Int := s.tdAt d (s.now + s.get (Reg.ETH_LAT.RX_NS port))
/-- Domain time of a message that is scheduled to go out now: less ETH_LAT.TX_NS. -/
def State.txTime (s : State) (d port : Nat) : Int := s.tdAt d (s.now - s.get (Reg.ETH_LAT.TX_NS port))

/-- With peer delay, a Sync whose origin is known completes an offset measurement with the last mean path delay (R348). -/
def State.peerOffset (s : State) (d : Nat) : State :=
  match (s.td d).sync with
  | some (_, arrival, some origin, corr) =>
    if s.on (Reg.TD_CFG.P2P d) then
      let mpd := sx 32 (s.word (Reg.TD_MPD d))
      (s.modTd d fun x => { x with sync := none }).tdMeasure d (s.tdOffset d arrival origin corr mpd) mpd
    else s
  | _ => s

/-- PTP_SYNC_RECEIVE (R348): a Sync message is time-stamped; one-step it carries its origin, two-step Follow_Up brings it. -/
def execPtpSyncReceive (t : Time) (port : Fin 2) (dom : Byte) (udp : Bool) (seq : BitVec 16) (twoStep : Bool)
    (sec : BitVec 48) (ns : Word) (corr : BitVec 64) (s : State) : Out :=
  ptpMessage t port dom udp s fun d s =>
    if !s.tdSlave d then s
    else
      let o := if twoStep then none else some (s.originTime d sec.toNat ns.toNat)
      (s.modTd d fun x => { x with sync := some (seq.toNat, s.rxTime d port.val, o, corrTime corr), syncAt := s.now }).peerOffset d

/-- PTP_FOLLOW_UP_RECEIVE (R348): the precise origin time of the Sync taken, and its correction. -/
def execPtpFollowUpReceive (t : Time) (port : Fin 2) (dom : Byte) (udp : Bool) (seq : BitVec 16)
    (sec : BitVec 48) (ns : Word) (corr : BitVec 64) (s : State) : Out :=
  ptpMessage t port dom udp s fun d s =>
    match (s.td d).sync with
    | some (q, arrival, none, c) =>
      if q = seq.toNat ∧ s.tdSlave d then
        (s.modTd d fun x => { x with sync := some (q, arrival, some (s.originTime d sec.toNat ns.toNat), c + corrTime corr) }).peerOffset d
      else s
    | _ => s

/-- PTP_DELAY_REQ_SEND (R345): a slave domain sends Delay_Req, or Pdelay_Req with peer delay. -/
def execPtpDelayReqSend (t : Time) (d : Fin 4) (s : State) : Out :=
  live t s fun s =>
    let d := d.val
    let p := s.get (Reg.TD_CFG.PORT d)
    if s.takesInputs ∧ s.tdSlave d then
      let q := (s.td d).seq
      (s.modTd d fun x => { x with req := some (q, s.txTime d p), seq := (q + 1) % 65536 }).sendEth p
        (if s.on (Reg.TD_CFG.P2P d) then 5 else 4) (s.get (Reg.TD_CFG.DOMAIN d) :: beBytes 2 q)
    else s

/-- PTP_DELAY_RESP_RECEIVE (R348): with the time at which the master received the Delay_Req, it completes an offset and path delay
measurement. -/
def execPtpDelayRespReceive (t : Time) (port : Fin 2) (dom : Byte) (udp : Bool) (seq : BitVec 16)
    (sec : BitVec 48) (ns : Word) (corr : BitVec 64) (s : State) : Out :=
  ptpMessage t port dom udp s fun d s =>
    match (s.td d).req, (s.td d).sync with
    | some (q, t3), some (_, t2, some t1, c) =>
      if q = seq.toNat ∧ s.tdSlave d ∧ !s.on (Reg.TD_CFG.P2P d) then
        let t4 := s.originTime d sec.toNat ns.toNat
        let sum := (t2 - t1 - c) + (t4 - t3 - corrTime corr)
        let mpd := if sum % (2 * nsUnit) = 0 then sum / (2 * nsUnit) else Config.wholeNs ((sum : Rat) / (2 * nsUnit : Int))
        (s.modTd d fun x => { x with req := none }).tdMeasure d (s.tdOffset d t2 t1 c mpd) mpd
      else s
    | _, _ => s

/-- PTP_PDELAY_RESP_RECEIVE (R348): a Pdelay response, with the peer's turnaround time (2^-16 ns) and corrections, completes a peer
delay measurement. -/
def execPtpPdelayRespReceive (t : Time) (port : Fin 2) (dom : Byte) (udp : Bool) (seq : BitVec 16) (turnaround corr : BitVec 64)
    (s : State) : Out :=
  ptpMessage t port dom udp s fun d s =>
    match (s.td d).req with
    | some (q, t1) =>
      if q = seq.toNat ∧ s.tdSlave d ∧ s.on (Reg.TD_CFG.P2P d) then
        let sum := s.rxTime d port.val - t1 - corrTime turnaround - corrTime corr
        let mpd := if sum % (2 * nsUnit) = 0 then sum / (2 * nsUnit) else Config.wholeNs ((sum : Rat) / (2 * nsUnit : Int))
        (s.modTd d fun x => { x with req := none, delays := (mpd :: x.delays).take 16 }).setWord (Reg.TD_MPD d) (ux 32 (satS 32 mpd))
      else s
    | none => s

/-- Seconds (48 bits) and nanoseconds of a time in a message. -/
def msgTime (t : Int) : List Nat := let x := secNs t; beBytes 6 x.1 ++ beBytes 4 x.2

/-- PTP_DELAY_REQ_RECEIVE (R348): a master domain answers a Delay_Req with the time of its reception. -/
def execPtpDelayReqReceive (t : Time) (port : Fin 2) (dom : Byte) (udp : Bool) (seq : BitVec 16) (s : State) : Out :=
  ptpMessage t port dom udp s fun d s =>
    if s.tdState d = tdMaster then s.sendEth port.val 6 (dom.toNat :: beBytes 2 seq.toNat ++ msgTime (s.rxTime d port.val)) else s

/-- PTP_PDELAY_REQ_RECEIVE (R348): a Pdelay_Req is answered with the time of its reception. -/
def execPtpPdelayReqReceive (t : Time) (port : Fin 2) (dom : Byte) (udp : Bool) (seq : BitVec 16) (s : State) : Out :=
  ptpMessage t port dom udp s fun d s => s.sendEth port.val 7 (dom.toNat :: beBytes 2 seq.toNat ++ msgTime (s.rxTime d port.val))

/-- PTP_ANNOUNCE_RECEIVE (R345, R350, R351): an Announce message feeds the BMCA of IEEE 1588-2019 clause 9, which selects the foreign
master (`foreign`) or this clock; the foreign grandmaster's identity. -/
def execPtpAnnounceReceive (t : Time) (port : Fin 2) (dom : Byte) (udp : Bool) (foreign : Bool) (gm : BitVec 64) (s : State) : Out :=
  ptpMessage t port dom udp s fun d s =>
    let role := s.get (Reg.TD_CFG.ROLE d)
    if role = 2 then s
    else if foreign then
      let s1 := s.modTd d fun x => { x with gm := gm.toNat }
      if s.tdState d = tdMaster then s1.tdAcquire d true else s1
    else if role = 0 ∧ s.tdSlave d then s.tdToMaster d else s

/-- The Sync interval of domain `d` in ns. -/
def State.syncNs (s : State) (d : Nat) : Nat :=
  let l := sx 8 (s.get (Reg.TD_CFG.LOG_SYNC d))
  if 0 ≤ l then 1000000000 * 2 ^ l.toNat else 1000000000 / 2 ^ (-l).toNat

/-- PTP_SYNC_SEND (R345): a master domain sends Sync at its interval; two-step, Follow_Up carries the origin. -/
def execPtpSyncSend (t : Time) (d : Fin 4) (s : State) : Out :=
  live t s fun s =>
    let d := d.val
    let p := s.get (Reg.TD_CFG.PORT d)
    let due := match (s.td d).sentAt with
      | some t0 => decide (t0 + s.syncNs d ≤ s.now)
      | none => true
    if s.takesInputs ∧ s.tdState d = tdMaster ∧ due = true then
      let q := (s.td d).seq
      let s1 := s.modTd d fun x => { x with sentAt := some s.now, seq := (q + 1) % 65536 }
      let dom := s.get (Reg.TD_CFG.DOMAIN d)
      let o := msgTime (s.txTime d p)
      { s1 with ethOut := if s.on (Reg.TD_CFG.ONE_STEP d) then [⟨p, 2, dom :: beBytes 2 q ++ o⟩] else [⟨p, 2, dom :: beBytes 2 q⟩, ⟨p, 3, dom :: beBytes 2 q ++ o⟩] }
    else s

/-- PTP_ANNOUNCE_SEND (R345): a master domain sends Announce. -/
def execPtpAnnounceSend (t : Time) (d : Fin 4) (s : State) : Out :=
  live t s fun s =>
    let d := d.val
    if s.takesInputs ∧ s.tdState d = tdMaster then s.sendEth (s.get (Reg.TD_CFG.PORT d)) 8 [s.get (Reg.TD_CFG.DOMAIN d)] else s

/-- TIME_HOLDOVER (R350): a locked domain loses its master: 1 announce receipt timeout, 2 three Sync intervals without Sync, 3 link down. A
BMCA domain without a master in ACQUIRING is selected as master. -/
def execTimeHoldover (t : Time) (d : Fin 4) (cause : Fin 4) (s : State) : Out :=
  live t s fun s =>
    let d := d.val
    let c := cause.val
    let present := c = 1 ∨ (c = 2 ∧ (s.td d).syncAt + 3 * s.syncNs d ≤ s.now) ∨ (c = 3 ∧ !s.on (Reg.ETH_STAT.LINK (s.get (Reg.TD_CFG.PORT d))))
    if !s.takesInputs then s
    else if present ∧ s.tdState d = tdLocked then (s.tdEnter d tdHoldover tcMaster).log (Src.domain d) Ev.TIME_HOLDOVER c 0
    else if c = 1 ∧ s.tdState d = tdAcquiring ∧ s.get (Reg.TD_CFG.ROLE d) = 0 then s.tdToMaster d
    else s

/-- ASYMMETRY_UNVERIFIED (R350): 60 s of stable delay in HOLDOVER with cause DELAY: the domain locks again on the new delay. -/
def execAsymmetryUnverified (t : Time) (d : Fin 4) (s : State) : Out :=
  live t s fun s =>
    let d := d.val
    match (s.td d).stable with
    | some (t0, n, sum, _, _) =>
      if s.takesInputs ∧ s.tdState d = tdHoldover ∧ s.get (Reg.TD_STAT.CAUSE d) = tcDelay ∧ t0 + 60000000000 ≤ s.now then
        let r := if sum % (n : Int) = 0 then sum / (n : Int) else Config.wholeNs ((sum : Rat) / (n : Rat))
        ((s.setWord (Reg.TD_MPD_REF d) (ux 32 r)).tdEnter d tdLocked 0).log (Src.domain d) Ev.ASYMMETRY_UNVERIFIED (ux 32 r) (s.word (Reg.TD_ASYM d))
      else s
    | none => s

/-- A host command for the next measurement, where it matches the state and cause; else CMD_IGNORED (R350). -/
def State.tdCommand (s : State) (d cmd cause : Nat) : State :=
  if s.tdState d = tdHoldover ∧ s.get (Reg.TD_STAT.CAUSE d) = cause then s.modTd d fun x => { x with cmd := some cmd }
  else s.flag (Reg.TD_STAT.CMD_IGNORED d)

/-- TD_ACCEPT_STEP (R350). -/
def State.wTdAcceptStep (s : State) (d : Fin 4) : State := s.tdCommand d.val 1 tcJump
/-- TD_ACCEPT_STEP. -/
def execTdAcceptStep (t : Time) (d : Fin 4) (s : State) : Out :=
  byHost t s (Reg.TD_CTRL d.val) 1 (fun s => s.wTdAcceptStep d)

/-- TD_CONFIRM_ASYM (R350). -/
def State.wTdConfirmAsym (s : State) (d : Fin 4) : State := s.tdCommand d.val 2 tcDelay
/-- TD_CONFIRM_ASYM. -/
def execTdConfirmAsym (t : Time) (d : Fin 4) (s : State) : Out :=
  byHost t s (Reg.TD_CTRL d.val) 2 (fun s => s.wTdConfirmAsym d)

/-! ### The ports (R343) -/

/-- ETH_LINK (R343): the link of a port goes down or comes up. -/
def execEthLink (t : Time) (port : Fin 2) (up : Bool) (s : State) : Out :=
  live t s fun s =>
    if s.on (Reg.ETH_STAT.LINK port.val) = up then s
    else (s.setB (Reg.ETH_STAT.LINK port.val) up).log (Src.eth port.val) Ev.ETH_LINK (b2n up) 0

/-- The NETADDR entry of a port with an IPv4 address. -/
def State.portAddr (s : State) (port ip : Nat) : Option NetAddr := s.img.net.find? fun a => a.port == port && a.ip == ip

/-- ARP_REQUEST (R343): an ARP request for the port's address is answered with its MAC address. -/
def execArpRequest (t : Time) (port : Fin 2) (ip : Word) (s : State) : Out :=
  live t s fun s =>
    match s.portAddr port.val ip.toNat with
    | some a => s.sendEth port.val 0 (beBytes 6 a.mac ++ beBytes 4 a.ip)
    | none => s

/-- ICMP_ECHO (R343): an echo request to the port's address is answered with its data. -/
def execIcmpEcho (t : Time) (port : Fin 2) (ip : Word) (data : List Byte) (s : State) : Out :=
  live t s fun s =>
    match s.portAddr port.val ip.toNat with
    | some _ => s.sendEth port.val 1 (natBytes data)
    | none => s

/-- ETH_FRAME_DISCARD (R343): an unsupported frame is discarded and counted, one with a failed FCS as such. -/
def execEthFrameDiscard (t : Time) (port : Fin 2) (badFcs : Bool) (s : State) : Out :=
  live t s fun s => if badFcs then s.addSat (Reg.ETH_CNT.CRC port.val) 1 else s.ethDiscard port.val

/-! ### LOAD, and the snapshot at a separation boundary (R350, R353) -/

/-- The end of LOAD: each enabled domain starts (R350). -/
def State.tdLoad (s : State) : State :=
  forN 4 (fun s d =>
    let s1 := (s.modTd d fun x => { x with int := 0, sync := none, req := none, stable := none, cmd := none, sentAt := none }).setRate d 0
    if !s.on (Reg.TD_CFG.EN d) then s1.tdEnter d tdDisabled 0
    else if s.get (Reg.TD_CFG.ROLE d) = 2 then s1.tdToMaster d else s1.tdAcquire d false) s

/-- Every enabled domain latches its time with the TSC of the separation boundary (R353). -/
def State.tdSnap (s : State) : State :=
  forN 4 (fun s d =>
    if !s.on (Reg.TD_CFG.EN d) then s
    else
      let x := secNs (s.tdAt d s.dev.cycleTsc)
      let s1 := ((s.setWord64 (Reg.TD_SNAP_TSC_LO d) s.dev.cycleTsc).setWord64 (Reg.TD_SNAP_SEC_LO d) x.1).setWord (Reg.TD_SNAP_NS d)
        (x.2 + 2 ^ 31 * b2n (s.td d).stepped)
      s1.modTd d fun y => { y with stepped := false }) s

/-! ### The mirror of a pair (R306, R352) -/

/-- The body of a record of kind 5 for the next servo boundary: for each domain state, cause, RATE, I and time. -/
def State.tdMirror (s : State) : List Nat :=
  (List.range 4).flatMap fun d =>
    [s.tdState d, s.get (Reg.TD_STAT.CAUSE d)] ++ leBytes 4 (s.word (Reg.TD_RATE d)) ++ leBytes 8 (ux 64 (s.td d).int) ++
      leBytes 16 (ux 128 (s.tdAt d (s.dev.cycleTsc + 4 * 15625)))

/-- The standby takes its domains' states from a record of kind 5 at its boundary of use. -/
def State.tdTakeMirror (s : State) (b : List Nat) : State :=
  forN 4 (fun s d =>
    let o := 30 * d
    ((s.tdEnter d (leAt b o 1) (leAt b (o + 1) 1)).setWord (Reg.TD_RATE d) (leAt b (o + 2) 4)).modTd d fun x => { x with
      int := sx 64 (leAt b (o + 6) 8), time := sx 128 (leAt b (o + 14) 16), base := s.dev.cycleTsc }) s

end Sys2Proof.Machine
end

