-- ==== Sys2Proof/Machine/Trace.lean ====
section
/-! DEFINITION. The trace unit of each logical engine (R111–R114). -/

namespace Sys2Proof.Machine

/-- TR_STAT.STATE codes (R116). -/
def trIdle : Nat := 0
def trArmed : Nat := 1
def trTriggered : Nat := 2
def trDone : Nat := 3

/-- A 24-bit value sign-extended to a word (R111). -/
def ext24 (w : Nat) : Nat := ux 32 (sx 24 w)

/-- The nodes inside the reference law (R94, R95, R111): 2 e_ω, 3 and 4 the current errors, 7 iq_ref, 8 and 9 the measured currents, 10 to 12
the integrators. -/
def RefLaw.node (q : RefLaw) (node : Nat) : Rat :=
  match node with
  | 2 => q.ew
  | 3 => q.eq
  | 4 => q.ed
  | 7 => q.iqRef
  | 8 => q.miq
  | 9 => q.mid
  | 10 => q.iv
  | 11 => q.iq
  | _ => q.id

/-- The value of trace node `node` of slot `sl` (R111): the word of a record, and the state with free values drawn. The nodes inside a law
(errors, integrators, measured currents) are those of the reference law for a slot under it; under another law they are values of its
firmware, free here. Node 5 is x* as a fraction of the position base (DEDUCED 38). -/
def State.traceNode (s : State) (e sl node : Nat) : Nat × State :=
  let m := fun (o : Nat) => (ext24 (s.leWord e (mboxAddr sl o)), s)
  if node = 0 ∨ 32 ≤ node then (0, s)
  else if node = 1 then m 0x10
  else if node = 6 then m 0x11
  else if node = 17 then m 0x12
  else if node = 13 ∨ node = 14 ∨ node = 15 then m (0x20 + (node - 13))
  else if node = 16 then
    (s.get (Reg.LAW_STAT.BANK e sl) + 2 * s.get (Reg.LAW_STAT.BAND e sl) + 256 * s.get (Reg.BAND_COUNT.OUT_CNT e sl)
      + 65536 * s.get (Reg.BAND_COUNT.DWELL_CNT e sl), s)
  else if node = 5 then
    let a := s.get (Reg.LAW_AXIS.AXIS e sl)
    (ext24 (perUnitSat ((s.countsOf a (s.setpt a).x : Rat) / 16777216) (((s.img.law? e sl).map (·.pBase)).getD 0)), s)
  else if 18 ≤ node then (ext24 ((s.slot e sl).nodes.getD (node - 18) 0), s)
  else if s.refLaws.contains (s.get (Reg.LAW_AXIS.LAW e sl)) then (ext24 (fracSat ((s.slot e sl).ref.node node)), s)
  else
    let d := s.freeBelow 5 (2 ^ 24)
    (ext24 d.1, d.2)

/-- The words of the channels of a record, channel 0 first. -/
def State.traceWords (s : State) (e : Nat) : Nat → Nat → List Nat × State
  | 0, _ => ([], s)
  | n + 1, c =>
    let v := s.traceNode e (s.get (Reg.TR_CH.SLOT e c)) (s.get (Reg.TR_CH.NODE e c))
    let r := v.2.traceWords e n (c + 1)
    (v.1 :: r.1, r.2)

/-- The words of trace memory of engine `e` from word `a` on. -/
def State.putTrace (s : State) (e a : Nat) : List Nat → State
  | [] => s
  | w :: ws => { s with trmem := tput 0 s.trmem (16384 * e + a % 16384) (BitVec.ofNat 32 w) }.putTrace e (a + 1) ws

/-- The trigger condition of TR_TRIG for a record with channel 0 `v` (R112). A channel that reaches TR_LEVEL exactly has risen or fallen
through it: the spec does not say (DESIGN CHOICE 38). -/
def State.traceHit (s : State) (e : Nat) (v : Int) : Bool :=
  let x := s.trace e
  let lvl := sx 24 (s.get (Reg.TR_LEVEL.LEVEL e))
  x.force || match s.get (Reg.TR_TRIG.SOURCE e) with
    | 1 => (match x.prev with
      | some p => decide (p < lvl) && decide (lvl ≤ v)
      | none => false)
    | 2 => (match x.prev with
      | some p => decide (lvl < p) && decide (v ≤ lvl)
      | none => false)
    | 3 => decide (lvl < v.natAbs)
    | 4 => x.switched.contains (s.get (Reg.TR_TRIG.SLOT e))
    | 5 => x.overran
    | _ => false

/-- A configuration that waits is applied (R113): its words, WRAPPED 0, capture in ARMED; a trigger seen before is dropped. -/
def State.traceApply (s : State) (e : Nat) : State :=
  let x := s.trace e
  if x.pending.isEmpty then s
  else
    let s1 := forEach x.pending (fun s w => s.setWord w.1 w.2) (s.modTrace e fun y => { y with pending := [], prev := none, post := 0 })
    let s2 := (s1.set (Reg.TR_STAT.LENGTH_PENDING e) 0).set (Reg.TR_STAT.WRAPPED e) 0
    if s2.get (Reg.TR_STAT.STATE e) = trTriggered then (s2.set (Reg.TR_STAT.STATE e) trArmed).flag (Reg.TR_STAT.TRIG_LOST e) else s2

/-- Capture ends in DONE (R112): TRACE_DONE with the trigger index and the write pointer; a configuration that waits applies at once. -/
def State.traceDone (s : State) (e : Nat) : State :=
  let s1 := (s.set (Reg.TR_STAT.STATE e) trDone).log (s.engineSrc e) Ev.TRACE_DONE (s.get (Reg.TR_PTR.TRIG_PTR e)) (s.get (Reg.TR_PTR.WPTR e))
  let x := s1.trace e
  (forEach x.pending (fun s w => s.setWord w.1 w.2) (s1.modTrace e fun y => { y with pending := [] })).set (Reg.TR_STAT.LENGTH_PENDING e) 0

/-- One record (R111, R112): header and channels at the write pointer, the trigger test in ARMED, the count after the trigger. -/
def State.traceWrite (s : State) (e : Nat) : State :=
  let s0 := if s.get (Reg.TR_PTR.WPTR e) = 0 then s.traceApply e else s
  let nch := s0.get (Reg.TR_CFG.NCH e)
  let len := s0.get (Reg.TR_CFG.LEN e)
  let w := s0.get (Reg.TR_PTR.WPTR e)
  let r := s0.traceWords e (nch + 1) 0
  let v := sx 24 (r.1.headD 0)
  let x := r.2.trace e
  let hit := r.2.get (Reg.TR_STAT.STATE e) = trArmed ∧ r.2.traceHit e v
  let trig := decide hit && x.pending.isEmpty
  let hdr := s.dev.cycle.toNat % 65536 * 65536 + 2 * b2n trig + b2n x.gap
  let s1 := r.2.putTrace e (w * (nch + 2)) (hdr :: r.1)
  let s2 := s1.modTrace e fun y => { y with prev := some v, gap := false, force := false, switched := [], overran := false }
  let nw := if w + 1 < len then w + 1 else 0
  let s3 := (s2.set (Reg.TR_PTR.WPTR e) nw).setB (Reg.TR_STAT.WRAPPED e) (s2.on (Reg.TR_STAT.WRAPPED e) || decide (nw = 0))
  if trig then
    let post := min (s3.get (Reg.TR_POST.POST e) % 8192) (len - 1)
    let s4 := ((s3.set (Reg.TR_PTR.TRIG_PTR e) w).set (Reg.TR_STAT.STATE e) trTriggered).modTrace e fun y => { y with post := post }
    if post = 0 then s4.traceDone e else s4
  else if hit then s3.flag (Reg.TR_STAT.TRIG_LOST e)
  else if s3.get (Reg.TR_STAT.STATE e) = trTriggered then
    let s4 := s3.modTrace e fun y => { y with post := y.post - 1 }
    if x.post ≤ 1 then s4.traceDone e else s4
  else s3

/-- TRACE_RECORD of engine `e` for the ring cycle that ends (R111, R114): a record at every (DECIM + 1)-th sample of the rate, while
capture runs and the extension tasks are not shed. -/
def State.traceCycle (s : State) (e : Nat) : State :=
  let st := s.get (Reg.TR_STAT.STATE e)
  if (st ≠ trArmed ∧ st ≠ trTriggered) ∨ (s.eng e).shed ∨ (s.on (Reg.TR_CFG.RATE e) ∧ !s.servo) then s
  else
    let x := s.trace e
    if x.skipped < s.get (Reg.TR_CFG.DECIM e) then s.modTrace e fun y => { y with skipped := y.skipped + 1 }
    else (s.modTrace e fun y => { y with skipped := 0 }).traceWrite e

/-! ### Meanings -/

/-- TRACE_ARM (R112): the buffer is cleared and capture starts at index 0 in ARMED. -/
def State.wTraceArm (s : State) (e : Fin 16) : State :=
  let s0 := s.traceApply e.val
  let s1 := { s0 with trmem := s0.trmem.filter fun p => p.1 / 16384 ≠ e.val }
  let s2 := s1.modTrace e.val fun y => { y with skipped := 0, prev := none, force := false, post := 0, switched := [], overran := false }
  let s3 := ((s2.set (Reg.TR_PTR.WPTR e.val) 0).set (Reg.TR_PTR.TRIG_PTR e.val) 0).set (Reg.TR_STAT.WRAPPED e.val) 0
  s3.set (Reg.TR_STAT.STATE e.val) trArmed
/-- TRACE_ARM. -/
def execTraceArm (t : Time) (e : Fin 16) (s : State) : Out :=
  byHost t s (Reg.TR_CTRL e.val) 1 (fun s => s.wTraceArm e)

/-- TRACE_STOP (R112): capture ends in IDLE; a configuration that waits applies at once (R113). -/
def State.wTraceStop (s : State) (e : Fin 16) : State :=
  let s1 := s.set (Reg.TR_STAT.STATE e.val) trIdle
  (forEach (s1.trace e.val).pending (fun s w => s.setWord w.1 w.2) (s1.modTrace e.val fun y => { y with pending := [] })).set
    (Reg.TR_STAT.LENGTH_PENDING e.val) 0
/-- TRACE_STOP. -/
def execTraceStop (t : Time) (e : Fin 16) (s : State) : Out :=
  byHost t s (Reg.TR_CTRL e.val) 2 (fun s => s.wTraceStop e)

/-- TRACE_FORCE (R112): a trigger at the next record. -/
def State.wTraceForce (s : State) (e : Fin 16) : State := s.modTrace e.val fun y => { y with force := true }
/-- TRACE_FORCE. -/
def execTraceForce (t : Time) (e : Fin 16) (s : State) : Out :=
  byHost t s (Reg.TR_CTRL e.val) 4 (fun s => s.wTraceForce e)

/-- TR_CFG (0) and TR_CH0–TR_CH7 (1–8) of engine `e`. -/
def traceAddr (e : Nat) (r : Fin 9) : Nat := if r.val = 0 then Reg.TR_CFG e else Reg.TR_CH e (r.val - 1)

/-- A TR_CFG word that is refused (R113): LEN 0 or above 8 192, or LEN × (NCH + 2) above 16 384. -/
def traceBad (w : Nat) : Bool :=
  let len := bits w 0 14
  len == 0 || decide (8192 < len) || decide (16384 < len * (bits w 19 3 + 2))

/-- TRACE_CFG_WRITE (R113): applied at once in IDLE or DONE, held in ARMED and TRIGGERED, or refused. -/
def State.wTraceCfgWrite (s : State) (e : Fin 16) (r : Fin 9) (v : Word) : State :=
  let a := traceAddr e.val r
  let w := s.mergeRw a v.toNat
  let st := s.get (Reg.TR_STAT.STATE e.val)
  if r.val = 0 ∧ traceBad v.toNat then s.flag (Reg.TR_STAT.CFG_REFUSED e.val)
  else if st = trIdle ∨ st = trDone then s.setWord a w
  else (s.modTrace e.val fun y => { y with pending := (y.pending.filter fun p => p.1 ≠ a) ++ [(a, w)] }).set
    (Reg.TR_STAT.LENGTH_PENDING e.val) 1
/-- TRACE_CFG_WRITE. -/
def execTraceCfgWrite (t : Time) (e : Fin 16) (r : Fin 9) (v : Word) (s : State) : Out :=
  byHost t s (traceAddr e.val r) v.toNat (fun s => s.wTraceCfgWrite e r v)

end Sys2Proof.Machine
end

