-- ==== Sys2Proof/Machine/Host.lean ====
section
/-! DEFINITION. The service interface (R4–R7, R23, R401–R411): what a host read returns, what a host write does at each register, the
SPI and UDP transports. -/

namespace Sys2Proof.Machine

/-! ### Device requests (R20, R23) -/

/-- A RELOAD request waits for the next boundary (R20). -/
def State.wReload (s : State) : State := { s with dev := { s.dev with reqReload := true } }
/-- A REDUCED_REQ waits. -/
def State.wReducedReq (s : State) : State := { s with dev := { s.dev with reqReduced := true } }
/-- An AUTO_REQ waits. -/
def State.wAutoReq (s : State) : State := { s with dev := { s.dev with reqAuto := true } }

/-- A write of DEV_CTRL: with several bits the first that has a row of R19 for the present state (R23). -/
def State.wDevCtrl (s : State) (v : Nat) : State :=
  let st := s.devState
  if bits v 0 3 = 4 then s.wReload
  else if bits v 0 3 = 2 then s.wReducedReq
  else if bits v 0 3 = 1 then s.wAutoReq
  else if bitAt v 2 ∧ (st = devUnconfigured ∨ st = devReduced ∨ st = devAutomatic) then s.wReload
  else if bitAt v 1 ∧ st = devAutomatic then s.wReducedReq
  else if bitAt v 0 ∧ st = devReduced then s.wAutoReq
  else s

/-! ### Host writes (R4–R6, R402–R404, R411, R412) -/

/-- An address of the DRAM window, and of the trace windows (R411). -/
def inDram (a : Nat) : Bool := decide (0x40000000 ≤ a) && decide (a < 0xC0000000)
def inTrace (a : Nat) : Bool := decide (0x10000000 ≤ a) && decide (a < 0x10100000)

/-- The outcome the transport reports of a write to an address (R404, R409): 0 executed, 1 ADDRESS, 2 READ_ONLY. -/
def writeStatus (a : Nat) : Nat :=
  if a % 4 ≠ 0 then 1
  else if inDram a then (if fabWritable a then 0 else 2)
  else if inTrace a then 2
  else match Regs.find a with
    | none => 1
    | some (r, _) => if r.rw = 0 ∧ r.w1c = 0 ∧ r.wo = 0 then 2 else 0

/-- A write with no effect but on the word itself (R5–R7): RW fields take their bits of `v`; W1C bits written as 1 clear, but for
one the controller sets at the same instant. -/
def State.wPlain (s : State) (r : RegRow) (a v : Nat) : State :=
  let w := s.mergeRw a v
  s.setWord a (w - Nat.land (Nat.land w v) (s.clearable a r.w1c))

/-- CMP_SKIP: bit 16 clears DROPS, bit 0 clears SKIPS (R187); a count made at the same instant stays (R7). -/
def State.wCmpSkip (s : State) (c v : Nat) : State :=
  let s1 := if bitAt v 16 then s.clearFld (Reg.CMP_SKIP.DROPS c) else s
  if bitAt v 0 then s1.clearFld (Reg.CMP_SKIP.SKIPS c) else s1

/-- SCHED_SHD: ignored while a swap is pending (R201). -/
def State.wShadow (s : State) (r : RegRow) (k a v : Nat) : State :=
  if s.on (Reg.RSCHED_STAT.SWAP_PENDING k) then s.flag (Reg.RSCHED_STAT.WRITE_IGNORED k) else s.wPlain r a v

/-- A bit of a control register that performs an action. -/
def State.act (s : State) (v i : Nat) (f : State → State) : State := if bitAt v i then f s else s

/-- ISL_CTRL (R48, R65). -/
def State.wIslCtrl (s : State) (i v : Nat) : State :=
  let n := Fin.ofNat 512 i
  if bitAt v 5 then s.wIslSs1 n
  else if bitAt v 1 then s.wIslDisable n
  else if bitAt v 4 then s.wIslFlush n
  else if bitAt v 2 then s.wIslHold n
  else if bitAt v 3 then s.wIslResume n
  else s.act v 0 (·.wIslEnable n)

/-- TR_CTRL (R112, R116): STOP wins over ARM. -/
def State.wTrCtrl (s : State) (e v : Nat) : State :=
  let n := Fin.ofNat 16 e
  (if bitAt v 1 then s.wTraceStop n else s.act v 0 (·.wTraceArm n)).act v 2 (·.wTraceForce n)

/-- RING_CTRL (R213): MUTE wins over UNMUTE. -/
def State.wRingCtrl (s : State) (k v : Nat) : State :=
  let r := Fin.ofNat 16 k
  let n := Fin.ofNat 32 (bits v 8 5)
  let s1 := (s.act v 0 (·.wRingSwap r)).act v 1 (·.wRingReclose r)
  let s2 := if bitAt v 3 then s1.wRingMute r n else s1.act v 2 (·.wRingUnmute r n)
  s2.act v 4 (·.wRingClr r)

/-- FED_CTRL (R342): MUTE wins over UNMUTE. -/
def State.wFedCtrl (s : State) (v : Nat) : State :=
  let n := Fin.ofNat 512 (bits v 16 9)
  let s1 := s.act v 0 State.wFedReclose
  let s2 := if bitAt v 2 then s1.wFedMute n else s1.act v 1 (·.wFedUnmute n)
  s2.act v 3 State.wFedClr

/-- IMG_CTRL (R379): ABORT wins over BEGIN and COMMIT; BEGIN is taken before COMMIT (DESIGN CHOICE 20). -/
def State.wImgCtrl (s : State) (v : Nat) : State :=
  if bitAt v 2 then s.wImgAbort else if bitAt v 0 then s.imgBegin else s.act v 1 State.imgCommit

/-- ROT_CFG (R397, R400): a PERIOD outside 60–3600 is ignored. -/
def State.wRotCfg (s : State) (r : RegRow) (a v : Nat) : State :=
  if 60 ≤ bits v 16 16 ∧ bits v 16 16 ≤ 3600 then s.wPlain r a v
  else s.set Reg.ROT_CFG.EN (bits v 0 1)

/-- BIST_CTRL (R398): RESTORE wins over RUN. -/
def State.wBistCtrl (s : State) (v : Nat) : State :=
  if bitAt v 9 then s.bistRestore (bits v 16 16) (bits v 0 8)
  else s.act v 8 (·.bistRun (bits v 16 16) (bits v 0 8))

/-- SVC_CMD (R211): OP 1 read, 2 write; others do nothing. -/
def State.wSvcCmd (s : State) (k v : Nat) : State :=
  if bits v 0 2 = 1 ∨ bits v 0 2 = 2 then s.hostTxn k (bits v 0 2) (bits v 16 16) (bits v 8 5) (bits v 2 6) else s

/-- LAW_SWITCH (R103): ACTION 1 forces bank A, 2 forces bank B. -/
def State.wLawSwitch (s : State) (e v : Nat) : State :=
  let sl := Fin.ofNat 32 (bits v 16 5)
  if bits v 0 2 = 1 then s.wLawSwitchForceA (Fin.ofNat 16 e) sl
  else if bits v 0 2 = 2 then s.wLawSwitchForceB (Fin.ofNat 16 e) sl
  else s

/-- Registers of the line axes, actions, islands, planning (chapters 01–04): the effect of a write, where `r` has one of its own. -/
def State.writeA (s : State) (r : RegRow) (i v : Nat) : Option State :=
  let b := r.addr
  if b = Reg.DEV_CTRL then some (s.wDevCtrl v)
  else if b = Reg.LINE_VRATE 0 then some (s.wLineVrateWrite (Fin.ofNat 8 i) (BitVec.ofNat 32 v))
  else if b = Reg.LINE_CTRL 0 then
    some ((s.act v 1 (·.wLineResume (Fin.ofNat 8 i))).act v 0 (·.wLinePreset (Fin.ofNat 8 i)))
  else if b = Reg.ACT_ARM then some (s.wActArm (BitVec.ofNat 16 v))
  else if b = Reg.ACT_CANCEL then
    some (s.wActCancel (Fin.ofNat 1024 v) (BitVec.ofNat 16 (v / 65536)))
  else if b = Reg.ISL_CTRL 0 then some (s.wIslCtrl i v)
  else if b = Reg.PG_CTRL 0 then
    some (if bitAt v 1 then s.wPgStop (Fin.ofNat 256 i) else s.act v 0 (·.wPgGo (Fin.ofNat 256 i) (Fin.ofNat 4 (bits v 2 2))))
  else if b = Reg.SCHED_OPND then
    some (s.wSchedOpnd (Fin.ofNat 1024 v) (Fin.ofNat 4 (bits v 10 2)) (BitVec.ofNat 16 (v / 65536)))
  else if b = Reg.FAB_CTRL then some (s.act v 0 State.wFabClrMax)
  else none

/-- Registers of the loop engines (chapters 05, 06). -/
def State.writeB (s : State) (r : RegRow) (i j a v : Nat) : Option State :=
  let b := r.addr
  let e := Fin.ofNat 16 i
  let w := BitVec.ofNat 32 v
  if b = Reg.LE_CTRL 0 then some ((s.act v 0 (·.wLeRestore e)).act v 1 (·.wLeClrPeak e))
  else if b = Reg.LAW_COEF_DATA 0 then some (s.wLawCoefDataWrite e w)
  else if b = Reg.LAW_SWITCH 0 then some (s.wLawSwitch i v)
  else if b = Reg.TR_CFG 0 then some (s.wTraceCfgWrite e 0 w)
  else if b = Reg.TR_CH 0 0 then some (s.wTraceCfgWrite e (Fin.ofNat 9 (j + 1)) w)
  else if b = Reg.TR_CTRL 0 then some (s.wTrCtrl i v)
  else if b = Reg.BAND_OUTER 0 0 then some (s.wBandWrite e (Fin.ofNat 24 j) 0 w)
  else if b = Reg.BAND_INNER 0 0 then some (s.wBandWrite e (Fin.ofNat 24 j) 1 w)
  else if b = Reg.BAND_CFG 0 0 then some (s.wBandWrite e (Fin.ofNat 24 j) 2 w)
  else if b = Reg.LAW_STAT 0 0 then some ((s.act v 16 (·.wLiveWriteClear e (Fin.ofNat 24 j))).wPlain r a v)
  else if b = Reg.LE_PCTRL 0 then some (s.act v 0 (·.wLeClrCount e))
  else if b = Reg.LE_MEM_DATA 0 then some (s.wLeMemDataWrite e w)
  else none

/-- Registers of the axis channels, the feedback, the compare and emulation outputs (chapters 07, 08). -/
def State.writeC (s : State) (r : RegRow) (i v : Nat) : Option State :=
  let b := r.addr
  let x := Fin.ofNat 256 i
  let c := Fin.ofNat 16 i
  let u := Fin.ofNat 4 i
  let w := BitVec.ofNat 32 v
  if b = Reg.AX_CTRL 0 then some (if bitAt v 1 then s.wAxDisable x else if bitAt v 2 then s.wAxClear x else s.act v 0 (·.wAxEnable x))
  else if b = Reg.QS_UP 0 then some (s.wQsWrite x 0 w)
  else if b = Reg.QS_DOWN 0 then some (s.wQsWrite x 1 w)
  else if b = Reg.QS_CFG 0 then some (s.wQsWrite x 2 w)
  else if b = Reg.FB_CTRL 0 then some ((s.act v 0 (·.wFbPreset x)).act v 1 (·.wFbClrFault x))
  else if b = Reg.ENC_CTRL 0 then some (s.act v 1 (·.wEncClrFault (Fin.ofNat 8 i)))
  else if b = Reg.CMP_CFG 0 then some (s.wCmpValueWrite c 0 w)
  else if b = Reg.CMP_VAL_LO 0 then some (s.wCmpValueWrite c 1 w)
  else if b = Reg.CMP_VAL_HI 0 then some (s.wCmpValueWrite c 2 w)
  else if b = Reg.CMP_SPC_LO 0 then some (s.wCmpValueWrite c 3 w)
  else if b = Reg.CMP_SPC_HI 0 then some (s.wCmpValueWrite c 4 w)
  else if b = Reg.CMP_LIMIT 0 then some (s.wCmpValueWrite c 5 w)
  else if b = Reg.CMP_SKIP 0 then some (s.wCmpSkip i v)
  else if b = Reg.CMP_CTRL 0 then some ((if bitAt v 1 then s.wCmpCtrlClose c else s.act v 0 (·.wCmpCtrlOpen c)).act v 2 (·.wCmpCtrlPulse c))
  else if b = Reg.EMU_CFG 0 then some (s.wEmuCfgWrite u 0 w)
  else if b = Reg.EMU_N 0 then some (s.wEmuCfgWrite u 1 w)
  else if b = Reg.EMU_M 0 then some (s.wEmuCfgWrite u 2 w)
  else if b = Reg.EMU_ZPER 0 then some (s.wEmuCfgWrite u 3 w)
  else if b = Reg.EMU_CTRL 0 then some (s.act v 0 (·.wEmuAlign u))
  else none

/-- Registers of the rings, separation, narrows, duplex, archipelago, time and queues (chapters 09–17). -/
def State.writeD (s : State) (r : RegRow) (i a v : Nat) : Option State :=
  let b := r.addr
  if b = Reg.RING_CTRL 0 then some (s.wRingCtrl i v)
  else if b = Reg.SCHED_SHD 0 0 then some (s.wShadow r i a v)
  else if b = Reg.SVC_CMD 0 then some (s.wSvcCmd i v)
  else if b = Reg.SEP_CTRL then some (s.act v 0 State.wSepClrPeak)
  else if b = Reg.SH_CFG 0 then some (s.wShoalActiveWrite (Fin.ofNat 256 i) (bitAt v 0))
  else if b = Reg.NRW_REL then some (s.writeNrwRel (bits v 0 7) (bits v 16 16) (bits v 8 8))
  else if b = Reg.DPX_CTRL then some ((s.act v 0 State.wDpxHandover).act v 1 State.wDpxRejoin)
  else if b = Reg.FED_CTRL then some (s.wFedCtrl v)
  else if b = Reg.TD_CTRL 0 then
    some (if bitAt v 0 then s.wTdAcceptStep (Fin.ofNat 4 i) else s.act v 1 (·.wTdConfirmAsym (Fin.ofNat 4 i)))
  else if b = Reg.HQ_PUSH then some (s.wHqPush (Fin.ofNat 32 v) (Fin.ofNat 64 (bits v 8 6)) (bitAt v 15) (BitVec.ofNat 16 (v / 65536)))
  else if b = Reg.Q_CFG 0 then some (s.wQWatermarkWrite (Fin.ofNat 32 i) (Fin.ofNat 512 (bits v 16 9)) (Fin.ofNat 512 (bits v 0 9)))
  else if b = Reg.Q_CTRL 0 then some (s.act v 0 (·.wQFlush (Fin.ofNat 32 i)))
  else none

/-- Registers of the image, the life cycle, the log and the power block (chapters 18–21). -/
def State.writeE (s : State) (r : RegRow) (a v : Nat) : Option State :=
  let b := r.addr
  if b = Reg.IMG_CTRL then some (s.wImgCtrl v)
  else if b = Reg.IMG_OFS then some (s.imgOfs v)
  else if b = Reg.IMG_DATA then some (s.imgData v)
  else if b = Reg.LC_CTRL then some (s.lcWrite (bits v 16 16) (bits v 0 3) (s.on Reg.LC_STATE.SVC_MODE))
  else if b = Reg.ROT_CFG then some (s.wRotCfg r a v)
  else if b = Reg.BIST_CTRL then some (s.wBistCtrl v)
  else if b = Reg.LOG_RPTR then some (s.writeRptr v)
  else if b = Reg.LOG_CFG then some (s.wPlain r a v).evtUpdate
  else if b = Reg.PT_CTRL then some (s.act v 0 State.ptClrMax)
  else none

/-- The effect of a host write of `v` to the writable address `a` (R5): a word of DRAM, an action or the register's own word. -/
def State.writeReg (s : State) (a v : Nat) : State :=
  match Regs.find a with
  | none => s.fabWrite a (leBytes 4 v)
  | some (r, i, j) =>
    ((s.writeA r i v <|> s.writeB r i j a v) <|> (s.writeC r i v <|> s.writeD r i a v) <|> s.writeE r a v).getD (s.wPlain r a v)

/-- One word written over a transport (R402–R404), from `ip` with SVC_LAST_SRC `src`: the state and the status of R409. -/
def State.hostWrite (s : State) (ip src a v : Nat) : State × Nat :=
  if writeStatus a ≠ 0 then (s, writeStatus a)
  else if s.ignoresWrite a then (s, 2)
  else ((s.countWrite ip src).takeWrite a v fun s => s.writeReg a v, 0)

/-! ### Host reads (R4, R5, R23, R25, R402) -/

/-- The words of MIR_DATA, CAP_DATA and the engine's windows, and other words computed at the read: of row `r`, indices `i` and `j`. -/
def State.computed (s : State) (r : RegRow) (i : Nat) : Option Nat :=
  let b := r.addr
  if b = Reg.TSC_LO then some (s.now % 2 ^ 32)
  else if b = Reg.TSC_HI then some (s.now / 2 ^ 32)
  else if b = Reg.CYCLE_LO then some (s.dev.cycle.toNat % 2 ^ 32)
  else if b = Reg.CYCLE_HI then some (s.dev.cycle.toNat / 2 ^ 32)
  else if b = Reg.CYCLE_TSC_LO then some (s.dev.cycleTsc % 2 ^ 32)
  else if b = Reg.CYCLE_TSC_HI then some (s.dev.cycleTsc / 2 ^ 32 % 2 ^ 32)
  else if b = Reg.SCHED_STAT then
    some (setBits (s.word Reg.SCHED_STAT) 16 5 ((List.range 16).filter fun c => !s.on (Reg.CORE_STAT.ISOLATED c)).length)
  else if b = Reg.CORE_STAT 0 then
    let x := tget (0, 0) s.coreSwap i
    some (if s.now < x.1 then setBits (s.word (Reg.CORE_STAT i)) 20 3 x.2 else s.word (Reg.CORE_STAT i))
  else if b = Reg.LAW_COEF_READ 0 then
    some (s.lawCoef i (s.get (Reg.LAW_COEF_SEL.SLOT i)) (s.get (Reg.LAW_COEF_SEL.BANK i)) (s.get (Reg.LAW_COEF_SEL.INDEX i)))
  else if b = Reg.LE_CFG 0 ∧ 16 ≤ i then some (setBits (s.word (Reg.LE_CFG i)) 0 5 0x1F)
  else if b = Reg.LE_MEM_DATA 0 then some ((s.leLoad i (s.get (Reg.LE_MEM_ADDR.ADDR i))).getD 0)
  else if b = Reg.MIR_DATA 0 then some (s.mirrorWord (s.get Reg.MIR_SEL.INDEX) i)
  else if b = Reg.CAP_DATA0 ∨ b = Reg.CAP_DATA 0 then
    some (match s.img.capsules[s.get Reg.CAP_SEL.INDEX]? with
      | some c => if b = Reg.CAP_DATA0 then 2 ^ 31 + 65536 * c.island + c.link else c.nums.getD i 0
      | none => 0)
  else if b = Reg.PER_STAT 0 then
    some (setBits (s.word (Reg.PER_STAT i)) 16 16 (match (s.person i).at' with
      | some t => satU 16 ((s.now - t) / 1000000)
      | none => 0))
  else if b = Reg.GRP_STAT 0 then some (setBits (s.word (Reg.GRP_STAT i)) 0 16 (s.ss1Elapsed i))
  else if b = Reg.CONN_AGE 0 then some (s.connAge i)
  else if b = Reg.NRW_HELD 0 then some (s.nrwHeld i)
  else if b = Reg.TD_SEC_LO 0 then some ((secNs (s.tdAt i s.now)).1 % 2 ^ 32)
  else if b = Reg.TD_SEC_HI 0 then some ((secNs (s.tdAt i s.now)).1 / 2 ^ 32 % 2 ^ 32)
  else if b = Reg.TD_NS 0 then some (secNs (s.tdAt i s.now)).2
  else if b = Reg.EL_STAT then some s.elStat
  else none

/-- The word a host read of `a` would return now, latches and effects apart. The log area reads as 0 where the on-die buffer serves as the
log ring (R416). -/
def State.present (s : State) (a : Nat) : Nat :=
  if a % 4 ≠ 0 then 0
  else if inDram a then (if 0xBFE00000 ≤ a ∧ s.logst.dram = false then 0 else leVal (mread 0 s.mem a 4))
  else if inTrace a then (tget 0 s.trmem ((a - 0x10000000) / 4)).toNat
  else match Regs.find a with
    | none => 0
    | some (r, i, _) => (s.computed r i).getD (s.word a)

/-- The lower halves whose read latches words that follow, and how many (R23, R25, R44, R187, R213, R245, R264, R300, R342, R355). -/
def latching : List (Nat × Nat) :=
  [(Reg.CYCLE_LO, 1), (Reg.TSC_LO, 1), (Reg.CYCLE_TSC_LO, 1), (Reg.LINE_POS_LO 0, 1), (Reg.FB_POS_LO 0, 1), (Reg.FB_UPOS_LO 0, 1),
   (Reg.FB_IDX_LO 0, 1), (Reg.FB_PRESET_LO 0, 1), (Reg.ENC_CNT_LO 0, 1), (Reg.ENC_IDX_LO 0, 1), (Reg.NODE_SERIAL_LO 0 0, 1),
   (Reg.SH_LREF_LO 0, 1), (Reg.NRW_PASS_LO 0, 1), (Reg.SAFE_SIG_LO, 1), (Reg.SAFE_CONF_LO, 1), (Reg.FED_CYC_LO, 1),
   (Reg.FED_OFS_LO, 1), (Reg.FED_CYC_BASE_LO, 1), (Reg.TD_SEC_LO 0, 2), (Reg.TD_SNAP_TSC_LO 0, 4)]

/-- The number of words a read of `a` latches. -/
def latchCount (a : Nat) : Nat :=
  match Regs.find a with
  | some (r, _) => ((latching.find? fun p => p.1 == r.addr).map (·.2)).getD 0
  | none => 0

/-- The latch of the word at `a` for a transport (0 SPI, 1 UDP) (R402). -/
def latchKey (tr a : Nat) : Nat := 2 ^ 32 * tr + a

/-- A read of a lower half latches the words that follow it, for its transport. -/
def State.latch (s : State) (tr a : Nat) : State :=
  forN (latchCount a) (fun s i => { s with latches := tput 0 s.latches (latchKey tr (a + 4 * (i + 1))) (1 + s.present (a + 4 * (i + 1))) }) s

/-- One word read over a transport (R4, R402, R404): the word, whether the address is assigned, and the state after it. -/
def State.hostRead (s : State) (tr a : Nat) : Nat × Bool × State :=
  let ok := a % 4 = 0 && (inDram a || inTrace a || Regs.assigned a)
  if a = Reg.FL_DATA then
    let r := s.flData
    (r.1, ok, r.2)
  else match tget 0 s.latches (latchKey tr a) with
    | 0 => (s.present a, ok, s.latch tr a)
    | w + 1 => (w, ok, { s with latches := tput 0 s.latches (latchKey tr a) 0 }.latch tr a)

/-- A command that is the host's read of one word over SPI or UDP; the word stands in `out`. -/
def readBy (t : Time) (s : State) (udp : Bool) (a : Nat) : Out :=
  live t s fun s => let r := s.hostRead (b2n udp) a; { r.2.2 with out := [r.1] }

/-- CYCLE_LO_READ (R23). -/
def execCycleLoRead (t : Time) (udp : Bool) (s : State) : Out := readBy t s udp Reg.CYCLE_LO
/-- TSC_LO_READ (R25). -/
def execTscLoRead (t : Time) (udp : Bool) (s : State) : Out := readBy t s udp Reg.TSC_LO
/-- CYCLE_TSC_LO_READ (R25). -/
def execCycleTscLoRead (t : Time) (udp : Bool) (s : State) : Out := readBy t s udp Reg.CYCLE_TSC_LO
/-- LINE_POS_LO_READ (R44). -/
def execLinePosLoRead (t : Time) (udp : Bool) (k : Fin 8) (s : State) : Out := readBy t s udp (Reg.LINE_POS_LO k.val)
/-- FB_POS_LO_READ (R187): of FB_POS, FB_UPOS, FB_IDX or FB_PRESET. -/
def execFbPosLoRead (t : Time) (udp : Bool) (a : Fin 256) (r : Fin 4) (s : State) : Out :=
  readBy t s udp ([Reg.FB_POS_LO a.val, Reg.FB_UPOS_LO a.val, Reg.FB_IDX_LO a.val, Reg.FB_PRESET_LO a.val].getD r.val 0)
/-- ENC_CNT_LO_READ (R187): of ENC_CNT or ENC_IDX. -/
def execEncCntLoRead (t : Time) (udp : Bool) (k : Fin 8) (r : Fin 2) (s : State) : Out :=
  readBy t s udp ([Reg.ENC_CNT_LO k.val, Reg.ENC_IDX_LO k.val].getD r.val 0)
/-- NODE_SERIAL_LO_READ (R213). -/
def execNodeSerialLoRead (t : Time) (udp : Bool) (k : Fin 16) (n : Fin 25) (s : State) : Out :=
  readBy t s udp (Reg.NODE_SERIAL_LO k.val n.val)
/-- SH_LREF_LO_READ (R245). -/
def execShLrefLoRead (t : Time) (udp : Bool) (k : Fin 256) (s : State) : Out := readBy t s udp (Reg.SH_LREF_LO k.val)
/-- NRW_PASS_LO_READ (R264). -/
def execNrwPassLoRead (t : Time) (udp : Bool) (n : Fin 128) (s : State) : Out := readBy t s udp (Reg.NRW_PASS_LO n.val)
/-- SAFE_SIG_LO_READ (R300): of SAFE_SIG or SAFE_CONF. -/
def execSafeSigLoRead (t : Time) (udp : Bool) (r : Fin 2) (s : State) : Out :=
  readBy t s udp ([Reg.SAFE_SIG_LO, Reg.SAFE_CONF_LO].getD r.val 0)
/-- FED_LO_READ (R342): of FED_CYC, FED_OFS or FED_CYC_BASE. -/
def execFedLoRead (t : Time) (udp : Bool) (r : Fin 3) (s : State) : Out :=
  readBy t s udp ([Reg.FED_CYC_LO, Reg.FED_OFS_LO, Reg.FED_CYC_BASE_LO].getD r.val 0)
/-- TD_SEC_LO_READ (R355). -/
def execTdSecLoRead (t : Time) (udp : Bool) (d : Fin 4) (s : State) : Out := readBy t s udp (Reg.TD_SEC_LO d.val)
/-- TD_SNAP_TSC_LO_READ (R355). -/
def execTdSnapTscLoRead (t : Time) (udp : Bool) (d : Fin 4) (s : State) : Out := readBy t s udp (Reg.TD_SNAP_TSC_LO d.val)

/-- REGISTER_WRITE (R5, R401): one word written over SPI. -/
def execRegisterWrite (t : Time) (a v : Word) (s : State) : Out :=
  live t s fun s => (s.hostWrite 0 0 a.toNat v.toNat).1

/-! ### The SPI transport (R405, R406) -/

/-- Write words from an address on; the words, statuses and the state after them: the flags ADDRESS (1) and READ_ONLY (2) met. -/
def spiWords (a : Nat) : List Nat → Nat → State → State × Nat
  | [], f, s => (s, f)
  | v :: vs, f, s =>
    let r := s.hostWrite 0 0 a v
    spiWords ((a + 4) % 2 ^ 32) vs (Nat.lor f r.2) r.1

/-- Read `n` words over a transport: the words, and the indices at which the address was bad. `step` is the address step. -/
def readWords (tr step : Nat) : Nat → Nat → State → List Nat × List Bool × State
  | 0, _, s => ([], [], s)
  | n + 1, a, s =>
    let r := s.hostRead tr a
    let q := readWords tr step n ((a + step) % 2 ^ 32) r.2.2
    (r.1 :: q.1, r.2.1 :: q.2.1, q.2.2)

/-- The SPI status word (R406): words executed, LENGTH, ADDRESS, READ_ONLY. -/
def spiStatus (n : Nat) (long : Bool) (f : Nat) : Nat :=
  65536 * n + 64 * b2n long + 32 * b2n (bitAt f 1) + 16 * b2n (bitAt f 0)

/-- SPI_WRITE (R405): the first 256 words are executed as their last nibbles are clocked. -/
def execSpiWrite (t : Time) (a : Word) (words : List Word) (s : State) : Out :=
  live t s fun s =>
    let l := (words.map (·.toNat)).take 256
    let r := spiWords a.toNat l 0 s
    { r.1 with svc := { r.1.svc with spi := spiStatus l.length (decide (256 < words.length)) r.2, spiOpen := true } }

/-- SPI_READ (R405): `n` words are clocked; those beyond the 256th read as 0. -/
def execSpiRead (t : Time) (a : Word) (n : BitVec 16) (s : State) : Out :=
  live t s fun s =>
    let k := min 256 n.toNat
    let r := readWords 0 4 k a.toNat s
    let f := b2n (r.2.1.any fun ok => !ok)
    { r.2.2 with
      out := r.1 ++ List.replicate (n.toNat - k) 0
      svc := { r.2.2.svc with spi := spiStatus k (decide (256 < n.toNat)) f, spiOpen := true } }

/-- SPI_STATUS (R406): the word is read, and the end of this transaction leaves it as it is. -/
def execSpiStatus (t : Time) (s : State) : Out :=
  live t s fun s => { s with out := [s.svc.spi], svc := { s.svc with spiOpen := false } }

/-- SPI_BAD_COMMAND (R405): BAD_CMD is set; nothing more until SVC_CS_N rises. -/
def execSpiBadCommand (t : Time) (s : State) : Out :=
  live t s fun s => { s with svc := { s.svc with spi := withBit s.svc.spi 3 true, spiOpen := false } }

/-- SPI_DESELECT (R405): the transaction ends; an incomplete word is discarded and sets PARTIAL. -/
def execSpiDeselect (t : Time) (incomplete : Bool) (s : State) : Out :=
  live t s fun s =>
    { s with svc := { s.svc with
        spi := if s.svc.spiOpen && incomplete then withBit s.svc.spi 7 true else s.svc.spi, spiOpen := false } }

/-! ### The UDP protocol (R407–R410) -/

/-- A request as R407 lays it out. -/
structure UdpReq where
  op : Nat
  tag : Nat
  addr : Nat
  count : Nat
  flags : Nat
  data : List Nat
  deriving DecidableEq, Repr

/-- The bytes of a response (R407): status, DETAIL, the response ADDR and its data. -/
def UdpReq.response (q : UdpReq) (status detail addr : Nat) (data : List Nat) : List Nat :=
  let b := [0x4B, 0x53, 1, q.op % 256] ++ leBytes 4 q.tag ++ leBytes 4 addr ++ leBytes 2 q.count ++ [status, q.flags % 256] ++
    leBytes 4 detail ++ data
  b ++ leBytes 4 (crc32c b)

/-- COUNT is in its range and the data has the length it calls for (R408, R409). -/
def UdpReq.fits (q : UdpReq) : Bool :=
  let n := q.data.length
  match q.op with
  | 0 => q.count == 0 && n == 0
  | 1 | 3 => 1 ≤ q.count && q.count ≤ 360 && n == 0
  | 2 | 4 => 1 ≤ q.count && q.count ≤ 360 && n == 4 * q.count
  | 5 => 1 ≤ q.count && q.count ≤ 40 && n == 36 * q.count
  | 6 => 1 ≤ q.count && q.count ≤ 45 && n == 0
  | _ => false

/-- Write words over UDP: the statuses in order. -/
def udpWords (ip src step : Nat) : Nat → List Nat → State → List Nat × State
  | _, [], s => ([], s)
  | a, v :: vs, s =>
    let r := s.hostWrite ip src a v
    let q := udpWords ip src step ((a + step) % 2 ^ 32) vs r.1
    (r.2 :: q.1, q.2)

/-- STATUS and DETAIL of the statuses of a request's words (R409): the lowest non-zero one, at the first word that has it. -/
def worst (l : List Nat) : Nat × Nat :=
  if l.contains 1 then (1, l.findIdx (· == 1)) else if l.contains 2 then (2, l.findIdx (· == 2)) else (0, 0)

/-- The words of a byte list. -/
def wordsOf (l : List Nat) : List Nat := (List.range (l.length / 4)).map fun i => leAt l (4 * i) 4

/-- Push entries of 36 bytes into queue `q` as HQ_PUSH does, up to the first that is not PUSHED (R408): how many were pushed, the status of
the entry that stopped it, and the state. Each entry executed counts as one write (R403); in a pair it is mirrored as its word (R366). -/
def State.pushEntries (s : State) (ip src q tag : Nat) : Nat → List Nat → Nat → Nat × Nat × State
  | 0, _, n => (n, 0, s)
  | k + 1, l, n =>
    let c := leAt l 32 4
    let valid := bits c 0 6
    let last := bitAt c 6
    let s1 := (s.countWrite ip src).mirror 1 (q :: (valid + 64 * b2n last) :: padWord (l.take (min 32 valid)))
    let s2 := s1.hqPush q valid last (l.take 32) tag
    let st := s2.get Reg.HQ_RESULT.STATUS
    if st = 0 then s2.pushEntries ip src q tag k (l.drop 36) (n + 1) else (n, st, s2)

/-- LOG_READ (R408): the records from the placed start, and the response ADDR; CONSUME moves LOG_RPTR, not on a unit that ignores the
write (R404). -/
def State.logRead (s : State) (ip src : Nat) (q : UdpReq) : Nat × List Nat × State :=
  let start := if bitAt q.flags 1 then s.placed q.addr else s.rptr
  let n := min q.count ((s.wptr + 2 ^ 32 - start) % 2 ^ 32)
  let d := (List.range n).flatMap fun i => s.recordAt ((start + i) % 2 ^ 32)
  let s1 := if bitAt q.flags 0 && !s.ignoresWrite Reg.LOG_RPTR then (s.countWrite ip src).writeRptr ((start + n) % 2 ^ 32) else s
  (start, d, s1)

/-- Execute a request (R408, R409): the response's bytes, the words read, and the state. -/
def State.udpRun (s : State) (ip src : Nat) (q : UdpReq) : List Nat × List Nat × State :=
  if !q.fits then (q.response 3 0 q.addr [], [], s)
  else match q.op with
  | 1 | 3 =>
    let r := readWords 1 (if q.op = 1 then 4 else 0) q.count q.addr s
    let st := worst (r.2.1.map fun ok => if ok then 0 else 1)
    (q.response st.1 st.2 q.addr (r.1.flatMap (leBytes 4)), r.1, r.2.2)
  | 2 | 4 =>
    let r := udpWords ip src (if q.op = 2 then 4 else 0) q.addr (wordsOf q.data) s
    let st := worst r.1
    (q.response st.1 st.2 q.addr [], [], r.2)
  | 5 =>
    if !s.takesInputs then (q.response 2 0 q.addr [], [], s)
    else
      let r := s.pushEntries ip src (bits q.addr 0 5) (bits q.tag 0 16) q.count q.data 0
      if r.2.1 = 0 then (q.response 0 r.1 q.addr [], [], r.2.2) else (q.response 4 (r.1 + 65536 * r.2.1) q.addr [], [], r.2.2)
  | 6 =>
    let r := s.logRead ip src q
    let kept := bitAt q.flags 0 && s.ignoresWrite Reg.LOG_RPTR
    (q.response (if kept then 2 else 0) (if kept then 0 else r.2.1.length / 32) r.1 r.2.1, wordsOf r.2.1, r.2.2)
  | _ => (q.response 0 0 q.addr [], [], s)

/-- A port that has an address (R343). -/
def State.portUp (s : State) (port : Nat) : Bool := s.img.net.any fun a => a.port == port

/-- A request from a client (R407–R410): discarded where 16 wait, answered from the kept response where it repeats the client's last TAG,
otherwise executed and answered. -/
def State.udpRequest (s : State) (c : UdpFrom) (q : UdpReq) : State :=
  if !s.portUp c.port.val then s
  else if c.full then s.addSat Reg.SVC_STAT.UDP_DROP 1
  else
    let ip := c.ip.toNat
    let port := c.sport.toNat
    let others := s.svc.clients.filter fun x => !(x.ip == ip && x.port == port)
    match s.svc.clients.find? fun x => x.ip == ip && x.port == port && x.tag == q.tag with
    | some x =>
      ({ s with svc := { s.svc with clients := x :: others } }.addSat Reg.SVC_STAT.REPLAYS 1).sendEth c.port.val 9 x.resp
    | none =>
      let r := s.udpRun ip (65536 * port + 2 * c.port.val + 1) q
      let s1 := r.2.2
      ({ s1 with out := r.2.1, svc := { s1.svc with clients := ((⟨ip, port, q.tag, r.1⟩ : SvcClient) :: others).take 8 } }).sendEth c.port.val 9 r.1

/-- A request by its fields. -/
def fromClient (c : UdpFrom) (op : Nat) (addr : Word) (count : BitVec 16) (flags : Byte) (data : List Byte) : UdpReq :=
  ⟨op, c.tag.toNat, addr.toNat, count.toNat, flags.toNat, natBytes data⟩

/-- UDP_NOP (R408). -/
def execUdpNop (t : Time) (c : UdpFrom) (addr : Word) (count : BitVec 16) (flags : Byte) (data : List Byte) (s : State) : Out :=
  live t s fun s => s.udpRequest c (fromClient c 0 addr count flags data)
/-- UDP_READ (R408). -/
def execUdpRead (t : Time) (c : UdpFrom) (addr : Word) (count : BitVec 16) (flags : Byte) (data : List Byte) (s : State) : Out :=
  live t s fun s => s.udpRequest c (fromClient c 1 addr count flags data)
/-- UDP_WRITE (R408). -/
def execUdpWrite (t : Time) (c : UdpFrom) (addr : Word) (count : BitVec 16) (flags : Byte) (data : List Byte) (s : State) : Out :=
  live t s fun s => s.udpRequest c (fromClient c 2 addr count flags data)
/-- UDP_READ_FIXED (R408). -/
def execUdpReadFixed (t : Time) (c : UdpFrom) (addr : Word) (count : BitVec 16) (flags : Byte) (data : List Byte) (s : State) : Out :=
  live t s fun s => s.udpRequest c (fromClient c 3 addr count flags data)
/-- UDP_WRITE_FIXED (R408). -/
def execUdpWriteFixed (t : Time) (c : UdpFrom) (addr : Word) (count : BitVec 16) (flags : Byte) (data : List Byte) (s : State) : Out :=
  live t s fun s => s.udpRequest c (fromClient c 4 addr count flags data)
/-- UDP_QUEUE_PUSH (R408). -/
def execUdpQueuePush (t : Time) (c : UdpFrom) (addr : Word) (count : BitVec 16) (flags : Byte) (data : List Byte) (s : State) : Out :=
  live t s fun s => s.udpRequest c (fromClient c 5 addr count flags data)
/-- UDP_LOG_READ (R408). -/
def execUdpLogRead (t : Time) (c : UdpFrom) (addr : Word) (count : BitVec 16) (flags : Byte) (data : List Byte) (s : State) : Out :=
  live t s fun s => s.udpRequest c (fromClient c 6 addr count flags data)

/-- UDP_BAD_REQUEST (R409): a datagram to the service port as it came. One that fails MAGIC, VERSION or CRC is counted and not answered; any
other is a request, and one with an unused OP is answered with BAD_REQUEST. -/
def execUdpBadRequest (t : Time) (c : UdpFrom) (datagram : List Byte) (s : State) : Out :=
  live t s fun s =>
    let b := natBytes datagram
    let n := b.length
    if !s.portUp c.port.val then s
    else if n < 24 ∨ leAt b 0 2 ≠ 0x534B ∨ leAt b 2 1 ≠ 1 ∨ crc32c (b.take (n - 4)) ≠ leAt b (n - 4) 4 then
      s.addSat Reg.SVC_STAT.UDP_BAD 1
    else s.udpRequest c ⟨leAt b 3 1, leAt b 4 4, leAt b 8 4, leAt b 12 2, leAt b 15 1, (b.take (n - 4)).drop 20⟩

end Sys2Proof.Machine
end

