-- ==== Sys2Proof/Machine/Device.lean ====
section
/-! DEFINITION. Device states (R19–R21, R459): what entering each does, POWER_UP and its steps (R384, R387–R389), LOAD (R12, R373, R378),
BRING_UP, STOPPING, the shutdown self-test (R391, R392), and the events evaluated at ring-cycle boundaries (R20). -/

namespace Sys2Proof.Machine

/-! ### Entering a state -/

/-- The states in which rings, archipelago and separation engine are silent (R207, R243, R336). -/
def silentState (st : Nat) : Bool := !(st == devBringUp || st == devReduced || st == devAutomatic || st == devStopping)

/-- The rings, the archipelago, the separation engine and channel A's reports stop (R207, R243, R271, R336). -/
def State.fallSilent (s : State) : State := (s.ringsOff.fedForwardOnly.sepStop).chbHold

/-- A unit of a pair that gives up its device state: the role ends (R302, R314). -/
def State.dpxEnd (s : State) : State := if s.role = roleSolo then s else s.roleFault

/-- SAFE_STAT.A_STATE in a silent state: LOADING in LOAD, OFF in the others; a halted channel A stays so until POWER_UP (R286). -/
def State.chaSilent (s : State) (st : Nat) : State :=
  if s.get Reg.SAFE_STAT.A_STATE = 3 then s else s.set Reg.SAFE_STAT.A_STATE (b2n (st == devLoad))

/-- The device enters a state (R19): an image session is aborted where it may not stand (R380), the archive's page is written (R418), a
rotation ends (R397), a silent state silences the motion side, and the pins of R185 take their levels. -/
def State.enterState (s : State) (st : Nat) : State :=
  let s1 := (s.set Reg.DEV_STATE.STATE st).imgLeave st
  let s2 := { s1 with dev := { s1.dev with enteredAt := s.now } }
  let s3 := if st = devStopping ∨ st = devShutdownTest then s2.arcFlush else s2
  let s4 := if st = devReduced ∨ st = devAutomatic then s3 else s3.rotAbandon
  let s5 := if silentState st then (s4.dpxEnd.fallSilent).chaSilent st else s4
  s5.pinsEnter.syncPort

/-- AUTOMATIC is entered (R19, R275, R459): the open AUTO_ONLY inputs give their stop; a pending auto-start ends. -/
def State.enterAutomatic (s : State) : State :=
  let s1 := s.enterState devAutomatic
  { s1 with dev := { s1.dev with autoStart := false } }.openInputs

/-- STOPPING is entered (R19): SS1 on every island, a disable of every axis in none. -/
def State.enterStopping (s : State) (c : StopCause) : State :=
  let s1 := s.enterState devStopping
  let s2 := { s1 with dev := { s1.dev with stopCause := c } }.ss1All
  forEach (s2.img.axisIds.filter fun a => (s2.img.islandOf? a).isNone) State.askDisable s2

/-! ### LOAD (R8, R12, R378) -/

/-- The bits of a register that a LOAD does not restart: what the image loads and what the host sets. -/
def restMask (a : Nat) : Nat :=
  match Regs.find a with
  | some (r, _) => Nat.lor r.img r.rw
  | none => 0

/-- The registers from `lo` up to `hi` restart: what the block itself shows takes its reset value. -/
def State.restart (s : State) (lo hi : Nat) : State :=
  forEach (s.regs.filter fun e => decide (lo ≤ e.1) && decide (e.1 < hi)) (fun s e =>
    let w := e.2.toNat
    let m := restMask e.1
    let r := (Regs.resetWord e.1).toNat
    s.setWord e.1 (Nat.land w m + (r - Nat.land r m))) s

/-- LE_STAT restarts but for PHYS; the 16 logical engines are in service (R93, R116). -/
def State.restartEngines (s : State) : State :=
  let phys := (List.range 18).map fun e => s.get (Reg.LE_STAT.PHYS e)
  let s1 := s.restart 0x80000 0xC8000
  forN 18 (fun s e => (s.set (Reg.LE_STAT.PHYS e) (phys.getD e 0)).setB (Reg.LE_STAT.IN_SERVICE e) (decide (e < 16))) s1

/-- The scheduler restarts: every store entry empty, every dependence counter at its INIT (R79); physical numbers and isolations stay. -/
def State.restartSched (s : State) : State :=
  let keep := (List.range 16).map fun c => (s.get (Reg.CORE_STAT.PHYS c), s.get (Reg.CORE_STAT.ISOLATED c))
  let s0 := { s with
    items := [], flowPrev := [], flowCore := [], trigs := [], submitted := [], coreSwap := [], dcs := [] }.restart 0x40000 0x46000
  let s1 := forN 64 (fun s k => s.set (Reg.DC_VAL.VALUE k) (s.get (Reg.DC_CFG.INIT k))) s0
  forN 16 (fun s c =>
    let k := keep.getD c (c, 0)
    ((s.set (Reg.CORE_STAT.PHYS c) k.1).set (Reg.CORE_STAT.ISOLATED c) k.2).set (Reg.CORE_STAT.STATE c) (4 * k.2)) s1

/-- Motion starts afresh at the end of LOAD: lines and actions (R29, R35), islands and generators (R54), planning, control laws (R97, R116),
axes in OFF with nothing latched (R159), feedback (R164), compare and emulation outputs (R184). -/
def State.loadMotion (s : State) : State :=
  let s1 := ((({ s with lines := [], acts := [], flows := [], setpts := [], pgs := [] }.restart 0x10100 0x10400).setWord Reg.ACT_COUNT 0).restart
    0x10900 0x10A00).restart 0x48000 0x50000
  let s2 := { s1.restartSched with engines := [], coefQ := [], slots := [], traces := [], trmem := [], refLaws := Config.refLaws s1.freeCount, freeCount := s1.freeCount + 1 }.restartEngines
  let s3 := { s2 with axes := [], fbs := [], cmps := [], lifeDue := [] }.restart 0x100000 0x120000
  let s4 := (s3.restart 0x121000 0x122000).restart 0x124000 0x128000
  let s5 := forN 8 State.encLoad s4
  forN 4 (fun s u => s.modEmu u fun x => { x with align := true }) s5

/-- The other blocks start afresh: cartridges (R218), separation (R232, R243), queues (R357), rotation (R400). -/
def State.loadRest (s : State) : State :=
  let s1 := s.restart 0x161000 0x163000
  let s2 := { s1 with persons := [], sep := { s1.sep with eval := none, rise := [], shoalWrites := [], persons := [] } }.restart 0x181000 0x18C000
  let s3 := forEach s2.img.pconns (fun s p => s.connUnknown p.conn) s2
  let s4 := forN 32 State.showQueue ({ s3 with queues := [], mirrorHeld := [], mirrorOut := [], psErrAt := none }.restart 0x241000 0x242000)
  let s5 := (s4.setWord Reg.ROT_COUNT 0).set Reg.ROT_STAT.SUSPENDED 0
  let s6 := forN 16 (fun s k => s.set (Reg.RSCHED_STAT.SWAP_PENDING k) 0) s5
  s6.modRep fun r => { r with rotAt := s.now }

/-- The end of a LOAD: the ORIGIN 2 record of this POWER_UP falls due (R388). -/
def State.loadOver (s : State) : State :=
  if s.dev.firstLoad then { s with dev := { s.dev with firstLoad := false } }.modRep fun r => { r with due := r.due ++ [2] } else s

/-- What the device state takes from the image at the end of a LOAD: a pending auto-start (R459), and the cycle timer, which starts now where
there is no archipelago (R12). -/
def State.startTimer (s : State) : State :=
  let start := !s.dev.timer && !s.img.federation
  { s with dev := { s.dev with
    autoStart := s.img.autoStart && s.lifecycle == lcProduction, timer := s.dev.timer || start
    nextCycle := if start then s.now else s.dev.nextCycle } }

/-- LOAD ends with a copy selected (R12, R19): both channels have agreed on its signature; the cycle timer starts, without an archipelago at
once; BRING_UP begins, and with it rings, duplex and archipelago. -/
def State.loaded (s : State) : State :=
  let s1 := ((s.loadMotion.loadRest).chbLoad true s.img.signature).chaLoad
  let s2 := (if s1.get Reg.SAFE_STAT.A_STATE = 3 then s1 else s1.set Reg.SAFE_STAT.A_STATE 2).nrwLoad.dpxLoad.tdLoad.loadOver
  let s4 := (s2.startTimer.enterState devBringUp).dpxBringUp.fedBringUp
  if s4.role = roleSolo ∧ (s4.dev.timer = true ∨ !s4.img.federation) then s4.ringsStart else s4

/-- IMAGE_COPIES_READ (R19, R377, R378): LOAD's check of both copies ends; `agA` and `agB` tell whether channel B agrees on the signature of
each copy. -/
def execImageCopiesRead (t : Time) (agA agB : Bool) (s : State) : Out :=
  live t s fun s =>
    if s.devState ≠ devLoad then s
    else
      let r := s.readCopies agA agB
      if r.2 then r.1.loaded
      else ((r.1.loadMotion.loadRest).chbLoad false 0).loadOver.enterState devUnconfigured

/-- LOAD is entered (R19). An auto-start ends with the next LOAD (R459). -/
def State.enterLoad (s : State) : State :=
  let s1 := s.enterState devLoad
  { s1 with dev := { s1.dev with autoStart := false } }

/-! ### POWER_UP (R19, R384, R387–R389) -/

/-- The registers that show channel B's own state, which a reset of the controller die does not touch (R10). -/
def chbWords : List Nat :=
  (List.range 8).map (fun i => Reg.IN_STAT i) ++ [Reg.CHB_STAT, Reg.SAFE_CONF_LO, Reg.SAFE_CONF_HI]

/-- The controller die is reset (R384, R440): everything but what is non-volatile, what channel B holds, and the commands that wait. A warm
start keeps the TSC and the test results (R392). -/
def State.dieReset (s : State) (cold : Bool) : State :=
  let r := State.reset
  let s1 : State := { r with
    pending := s.pending, tsc := if cold then 0 else s.tsc, lastTsc := if cold then [] else s.lastTsc, freeCount := s.freeCount
    flash := s.flash, cartMirror := s.cartMirror, mirrorSeen := s.mirrorSeen, nvm := s.nvm, chb := s.chb
    dev := { r.dev with powered := true, trained := s.dev.trained, firstLoad := true, nextCycle := (if cold then 0 else s.now) + ringNs }
    rep := { r.rep with factory := s.rep.factory, factoryFailed := s.rep.factoryFailed, locked := s.rep.locked, rcd := s.rep.rcd
                        carried := !cold && s.rep.carried } }
  let s2 := forEach chbWords (fun x a => x.setWord a (s.word a)) s1
  let s3 := (s2.set Reg.SAFE_STAT.OVERTEMP (s.get Reg.SAFE_STAT.OVERTEMP)).set Reg.SAFE_STAT.B_STATE (if s.chb.faulted then 2 else 0)
  s3.set Reg.MIR_STAT.USED s.cartMirror.length

/-- Straps and flash parameters as latched at the rise of PGOOD (R381, R451). -/
def State.latchStraps (s : State) (node pos flash : Nat) (svc : Bool) : State :=
  let s1 := ((s.set Reg.FED_CFG.NODE node).set Reg.DPX_CFG.POS pos).setB Reg.LC_STATE.SVC_MODE svc
  (s1.set Reg.FL_INFO.SIZE_MIB flash).setB Reg.FL_INFO.PRESENT (flash != 0)

/-- Step 4 of R387 and the state it leads to (R19, R416): SRAM and DRAM are cleared; the log ring is in the DRAM of stack 1 where that stack
is trained and not failed and uncovered, otherwise in the on-die buffer. -/
def State.powerUpEnd (s : State) : State :=
  let usable := bitAt s.dev.trained 1 && s.rep.rcd.state 177 != 2
  let s1 := { s.logPowerUp with mem := [] }
  let s2 := { s1 with logst := { s1.logst with dram := usable } }.arcPowerUp
  let s3 := (s2.modRep fun r => { r with run := none }).showRun
  let st := if s.lifecycle = lcBlank ∨ s.lifecycle = lcRetired then devUnconfigured else if s.dev.bound then devSafeHold else devLoad
  ((s3.set Reg.ST_STAT.PHASE 0).enterState st).evtUpdate

/-- Steps 2 and 3 of R387: record and mapping, then the tests that are due; without one, step 4 follows at once. -/
def State.powerUpSteps (s : State) : State :=
  let r := s.readRecord
  let s1 := r.1.applyMap.showRepair
  if s1.lifecycle = lcBlank ∨ s1.lifecycle = lcRetired then s1.powerUpEnd
  else if r.2 then s1.startRun 1 allElements true
  else
    let bad := s1.rep.rcd.uncovered
    let s2 := forEach bad (fun s e => s.log Src.repair Ev.SPARES_EXHAUSTED e 0) { s1 with dev := { s1.dev with bound := !bad.isEmpty } }
    match allElements.filter fun e => s2.rep.rcd.untested e == 8 with
    | [] => s2.powerUpEnd
    | es => s2.startRun 1 es false

/-- POWER_UP begins: the stored life-cycle state shows (R8), channel B's part, and the steps, once channel B has reported itself ready (R384). -/
def State.powerUp (s : State) : State :=
  let s1 := s.chbPowerUp.showConfirmed.set Reg.LC_STATE.STATE s.lifecycle
  if s1.chb.ready then s1.powerUpSteps else { s1 with dev := { s1.dev with waitB := true } }

/-- The governor's life figures stand across a warm start; at power-on they come from non-volatile memory (R430). -/
def State.govStart (s old : State) (cold : Bool) : State :=
  let s1 := s.govPowerUp
  if cold then s1
  else { s1 with gov := { s1.gov with sum := old.gov.sum, afs := old.gov.afs, powered := old.gov.powered, stored := old.gov.stored } }.showAgeing

/-- POWER_GOOD (R387): PGOOD rises. `node`, `pos`, `svc`: the straps; `flash`: MiB of the flash attached, 0 none; `trained`: the DRAM stacks
whose training succeeds. -/
def execPowerGood (node : Fin 512) (pos : Fin 2) (svc : Bool) (flash : BitVec 16) (trained : Fin 4) (s : State) : Out :=
  if s.dev.powered then .next s
  else
    let s1 := (s.dieReset true).latchStraps node.val pos.val flash.toNat svc
    let s2 := { s1 with dev := { s1.dev with trained := trained.val } }
    .next (s2.govStart s true).powerUp

/-- A warm start (R19, R392): POWER_UP from SHUTDOWN_TEST or STOPPING; the supplies stay up, straps and the level of SHDN_REQ_N stand. -/
def State.warmStart (s : State) : State :=
  let s1 := (s.dieReset false).latchStraps (s.get Reg.FED_CFG.NODE) (s.get Reg.DPX_CFG.POS) (s.get Reg.FL_INFO.SIZE_MIB)
    (s.on Reg.LC_STATE.SVC_MODE)
  ((s1.govStart s false).set Reg.DEV_STATE.SHDN_REQ (s.get Reg.DEV_STATE.SHDN_REQ)).powerUp

/-- POWER_GOOD_LOSS (R10, R384, R440, R444): the controller die is in reset, and its outputs with it; channel B holds STO on every group. A
test in progress counts as untested; what no non-volatile memory holds is lost. The partner-link port has its last words (R314). -/
def execPowerGoodLoss (t : Time) (s : State) : Out :=
  live t s fun s =>
    let r := s.dieReset true
    let s1 := { r with tsc := s.tsc, dev := { r.dev with powered := false }, dpx := s.lastWords r.dpx }
    s1.chbHold.applySto allGroups 19

/-- CHANNEL_B_READY (R384): channel B reports itself ready; a POWER_UP that waits for it proceeds, with SAFE_SUPPLY_ORDER. -/
def execChannelBReady (t : Time) (s : State) : Out :=
  liveB t s fun s =>
    let s1 := s.modB fun b => { b with ready := true }
    if s1.dev.powered && s1.dev.waitB then
      ({ s1 with dev := { s1.dev with waitB := false } }.log Src.power Ev.SAFE_SUPPLY_ORDER 0 (satU 32 (s.now / 1000000))).powerUpSteps
    else s1

/-! ### Self-test steps (R390–R393) -/

/-- A test at start has run its groups (R19, R388, R389): after a full test a new record with ORIGIN 1 and SEQ 1 goes into copy A, and an
uncovered failure leads to SAFE_HOLD; a carried-over test logs TEST_CARRIED. Step 4 of R387 follows. -/
def State.startTestEnd (s : State) (x : TestRun) : State :=
  if x.full then
    let s1 := s.writeRecord 1 0
    ({ s1 with dev := { s1.dev with bound := !s1.rep.rcd.uncovered.isEmpty } }).powerUpEnd
  else (s.log Src.repair Ev.TEST_CARRIED x.elements x.total).powerUpEnd

/-- SELFTEST_STEP_END (R390, R392, R393): 50 ms after its beginning the step in progress ends. `fails`: elements that fail in it, with the
failing rows of a memory. -/
def execSelftestStepEnd (t : Time) (fails : List (Byte × List Word)) (s : State) : Out :=
  live t s fun s =>
    match s.rep.run with
    | none => s
    | some x =>
      if x.groups.isEmpty ∨ s.now < x.since + 50000000 then s
      else
        let s1 := s.runStep (fails.map fun f => (f.1.toNat, f.2.map BitVec.toNat))
        match s1.rep.run with
        | none => s1
        | some y =>
          if y.abandon then s1.abandonRun.warmStart
          else if !y.groups.isEmpty then s1
          else if y.path = 1 then s1.startTestEnd y
          else if y.path = 3 then s1.directEnd ((x.groups.flatMap fun g => g.2.1).headD 0) (s1.get Reg.ST_STAT.FAILS == 0)
          else s1.set Reg.ST_STAT.PHASE 2

/-- TEST_SEQUENCE_COMPLETE (R19, R388, R391): the groups of the shutdown test have run; the record is written, after the flash writes
that go first, and OFF_READY asserted. -/
def execTestSequenceComplete (t : Time) (s : State) : Out :=
  live t s fun s =>
    match s.rep.run with
    | none => s
    | some x =>
      if s.devState ≠ devShutdownTest ∨ !x.groups.isEmpty ∨ s.flashPending then s
      else
        let s1 := (s.writeRecord 1 s.recordTarget).modRep fun r => { r with run := none }
        (((s1.showRun).set Reg.ST_STAT.PHASE 3).set Reg.DEV_STATE.OFF_READY 1).storeLife 48

/-! ### Requests and the level of SHDN_REQ_N (R19, R20) -/

/-- RELOAD: a write of DEV_CTRL.RELOAD. -/
def execReload (t : Time) (s : State) : Out := byHost t s Reg.DEV_CTRL 4 State.wReload
/-- REDUCED_REQ: a write of DEV_CTRL.REDUCED_REQ. -/
def execReducedReq (t : Time) (s : State) : Out := byHost t s Reg.DEV_CTRL 2 State.wReducedReq
/-- AUTO_REQ: a write of DEV_CTRL.AUTO_REQ. -/
def execAutoReq (t : Time) (s : State) : Out := byHost t s Reg.DEV_CTRL 1 State.wAutoReq
/-- The level of SHDN_REQ_N as accepted (R20); the active of a pair mirrors it (R306). -/
def State.shdnLevel (s : State) (v : Nat) : State :=
  let s1 := s.set Reg.DEV_STATE.SHDN_REQ v
  if s.takesInputs then s1.mirror 8 [v] else s1
/-- SHDN_REQ_ASSERTED (R20): the level counts from the next boundary on. -/
def execShdnReqAsserted (t : Time) (s : State) : Out := live t s fun s => s.shdnLevel 1
/-- SHDN_REQ_RELEASED (R20). -/
def execShdnReqReleased (t : Time) (s : State) : Out := live t s fun s => s.shdnLevel 0

/-- Life record writes that still wait for credit go into the mirror entries instead (R391). -/
def State.lifeToMirror (s : State) : State :=
  forEach s.ringIds (fun s k => forN 24 (fun s n =>
    let x := s.node k n
    if x.due then
      ((s.mirrorPut (s.word64 (Reg.NODE_SERIAL_LO k n)) x.ident x.life).modNode k n fun y => { y with due := false }).showLife k n
    else s) s) s

/-- SHUTDOWN_TEST is entered (R391): the record copy that will be written is erased, and the full test starts. -/
def State.enterShutdownTest (s : State) : State :=
  let s1 := s.lifeToMirror.enterState devShutdownTest
  let s2 := if s1.on Reg.FL_INFO.PRESENT then s1.flashErase (repairBase s1.recordTarget) 0x10000 else s1
  s2.startRun 0 allElements false

/-- The stop is over (R19): STOPPING with every axis torque-free, OFF_READY not asserted yet. -/
def State.stopOver (s : State) : Bool := s.devState == devStopping && s.allOff && !s.on Reg.DEV_STATE.OFF_READY

/-- The rows of R19 for a stop that is over. -/
def State.stopEnds (s : State) : State :=
  match s.dev.stopCause with
  | .reload => s.enterLoad
  | .shdn =>
    if !s.on Reg.DEV_STATE.SHDN_REQ then s.enterState devReduced
    else if s.lcTests then s.enterShutdownTest
    else s.lifeToMirror.set Reg.DEV_STATE.OFF_READY 1

/-- STOPPING_COMPLETE (R19, R20): every axis is torque-free; the event is there for the next boundary. -/
def execStoppingComplete (t : Time) (s : State) : Out :=
  live t s fun s => if s.stopOver then { s with dev := { s.dev with reqStopped := true } } else s

/-- The rings of the image that have not left STARTING (R19). -/
def State.ringsNotUp (s : State) : List Nat :=
  s.ringIds.filter fun k => s.ringMode k == ringOff || s.ringMode k == ringStarting

/-- Both channels are ready (R19): channel B reports ready, channel A runs. -/
def State.channelsReady (s : State) : Bool := s.chb.ready && s.chaRuns

/-- A unit that waits in BRING_UP for its pair: listening or synchronising (R314). -/
def State.pairWaits (s : State) : Bool := s.role == roleListening || s.role == roleSyncing || s.role == roleStandby

/-- The bring-up is over (R19): every ring of the image runs and both channels are ready. -/
def State.upOver (s : State) : Bool := s.devState == devBringUp && !s.pairWaits && s.ringsNotUp.isEmpty && s.channelsReady

/-- The bring-up is late (R19): 1 s after the entry to BRING_UP some rings do not run. -/
def State.upLate (s : State) : Bool :=
  s.devState == devBringUp && !s.pairWaits && !s.ringsNotUp.isEmpty && decide (s.dev.enteredAt + 1000000000 ≤ s.now)

/-- The late bring-up ends (R19): the axes of the rings that do not run take a fault of cause 11. -/
def State.lateEnds (s : State) : State :=
  let ks := s.ringsNotUp
  let s1 := forEach (s.img.axisIds.filter fun a => ks.contains (s.get (Reg.AX_CFG.RING a))) (fun s a => s.takeFault a 11) s
  (s1.log Src.device Ev.BRING_UP_INCOMPLETE (ks.foldl (fun m k => m + 2 ^ k) 0) 0).enterState devReduced

/-- BRING_UP_COMPLETE (R19, R20): the bring-up is over; the event is there for the next boundary. -/
def execBringUpComplete (t : Time) (s : State) : Out :=
  live t s fun s => if s.upOver then { s with dev := { s.dev with reqUp := true } } else s

/-- BRING_UP_TIMEOUT (R19, R20): the bring-up is late; the event is there for the next boundary. -/
def execBringUpTimeout (t : Time) (s : State) : Out :=
  live t s fun s => if s.upLate then { s with dev := { s.dev with reqLate := true } } else s

/-! ### The events of a boundary (R19, R20, R459) -/

/-- The conditions of AUTOMATIC (R19). -/
def State.autoReady (s : State) : Bool := s.on Reg.DEV_STATE.STARTUP_TEST_DONE && s.on Reg.DEV_STATE.COMMISSION_CONFIRMED

/-- SHDN_REQ_N is released in SHUTDOWN_TEST (R19, R392): with OFF_READY it is negated and a warm start follows; a test that runs is
abandoned at the end of its step, one whose record is being written at once. -/
def State.shutdownReleased (s : State) : State :=
  if s.on Reg.DEV_STATE.OFF_READY then (s.set Reg.DEV_STATE.OFF_READY 0).warmStart
  else match s.rep.run with
    | some x => if x.groups.isEmpty then s.abandonRun.warmStart else s.modRep fun r => { r with run := some { x with abandon := true } }
    | none => s

/-- The one event taken at a boundary in REDUCED or AUTOMATIC, `auto`: the device is in AUTOMATIC. -/
def State.runningEvent (s : State) (auto : Bool) : State :=
  if s.on Reg.DEV_STATE.SHDN_REQ then s.enterStopping .shdn
  else if s.dev.reqReload then s.enterStopping .reload
  else if auto then (if s.dev.reqReduced then s.enterState devReduced else s)
  else if s.dev.reqAuto then (if s.autoReady then s.enterAutomatic else s.flag Reg.DEV_STATE.AUTO_REFUSED)
  else if s.dev.autoStart ∧ s.autoReady then s.enterAutomatic
  else s

/-- The event taken at a boundary by the present state (R19, R20). -/
def State.takeEvent (s : State) : State :=
  let st := s.devState
  let down := s.on Reg.DEV_STATE.SHDN_REQ
  let off := s.on Reg.DEV_STATE.OFF_READY
  if st = devUnconfigured then
    if down then (if s.lcTests then s.enterShutdownTest else s.set Reg.DEV_STATE.OFF_READY 1)
    else if s.dev.reqReload then s.enterLoad
    else s.set Reg.DEV_STATE.OFF_READY 0
  else if st = devBringUp then
    if down then s.enterStopping .shdn
    else if s.dev.reqUp ∧ s.upOver then s.enterState devReduced
    else if s.dev.reqLate ∧ s.upLate then s.lateEnds
    else s
  else if st = devReduced then s.runningEvent false
  else if st = devAutomatic then s.runningEvent true
  else if st = devStopping then
    if off ∧ !down then (s.set Reg.DEV_STATE.OFF_READY 0).warmStart
    else if s.dev.reqStopped ∧ s.stopOver then s.stopEnds
    else s
  else if st = devShutdownTest then (if down then s else s.shutdownReleased)
  else if st = devSafeHold then s.setB Reg.DEV_STATE.OFF_READY down
  else s

/-- The events that wait for a boundary are over: taken or discarded (R20). -/
def State.eventsOver (s : State) : State :=
  { s with dev := { s.dev with reqReload := false, reqReduced := false, reqAuto := false, reqUp := false, reqLate := false, reqStopped := false } }

/-- The device-state events of a boundary (R20): one is taken, the others are discarded. The active of a pair with a fit partner hands over
before it takes SHDN_REQ_N (R314); a unit that follows takes its device state from the active. -/
def State.boundaryEvents (s : State) : State :=
  if s.follows then s.eventsOver
  else if s.role = roleActive ∧ s.on Reg.DEV_STATE.SHDN_REQ ∧ (s.devState = devReduced ∨ s.devState = devAutomatic) ∧ s.partnerFit then
    (s.modDpx fun d => { d with hoReq := true, hoRole := roleFaulted }).eventsOver
  else s.takeEvent.eventsOver

/-- A standby takes the active's device state at the servo boundary of its use (R314); a stop that no SHDN_REQ_N gives is a RELOAD's. -/
def State.followState (s : State) : State :=
  match s.dpx.devNext with
  | some st =>
    if s.role ≠ roleStandby ∨ st = s.devState then s
    else if st = devAutomatic then s.enterAutomatic
    else if st = devStopping then s.enterStopping (if s.on Reg.DEV_STATE.SHDN_REQ then .shdn else .reload)
    else if st = devReduced ∨ st = devBringUp then s.enterState st
    else s
  | none => s

end Sys2Proof.Machine
end

