-- ==== Sys2Proof/Machine/EngineAlu.lean ====
section
/-! DEFINITION. The loop engine's register instructions, Format R (R131): one meaning each, on the register set in use of engine `e`. -/

namespace Sys2Proof.Machine

/-- The exact result of an arithmetic shift by a signed count (R131); a shift right rounds down. -/
def shiftBy (v k : Int) : Int := if 0 ≤ k then v * 2 ^ k.toNat else v / 2 ^ (-k).toNat

/-- The rounding of RDA (R123): half up, or half to even where `even`. -/
def roundAcc (even : Bool) (v : Int) : Int :=
  if even && v % 2 ^ 24 == 0x800000 then (v + 2 ^ 23) / 2 ^ 25 * 2 ^ 25 else v + 2 ^ 23

/-- Steps 2 and 3 of R123: bits [47:24] of the value, or the bound of its sign with L. -/
def LeSet.readAcc (x : LeSet) (n : Nat) (v : Int) : LeSet :=
  let out := decide (v < -(2 ^ 47)) || decide ((2 ^ 23 - 1) * 2 ^ 24 < v)
  let r : Int := if out then (if v < 0 then -(2 ^ 23) else 2 ^ 23 - 1) else v / 2 ^ 24
  ((x.putD n (ux 24 r)).flagNZ r).flagL out

/-- The left shifts that bring a value with `n` fraction bits into [0.5, 1) or [-1, -0.5); `n` for 0 (R124). -/
def normCount (n : Nat) (v : Int) : Int :=
  if v = 0 then n else (n : Int) - 1 - (Nat.log2 (if v < 0 then v.natAbs - 1 else v.natAbs) : Nat) + (if v = -1 then 1 else 0)

/-- The result of RSQ for the accumulator pattern `v` > 2^45 (R131): a free value within 2^-22 of √(2^91 / v). -/
def rsqValue (v : Nat) : Nat :=
  let c := (Config.rsq (BitVec.ofNat 56 v)).toNat
  if (c - 2) * (c - 2) * v ≤ 2 ^ 91 ∧ 2 ^ 91 ≤ (c + 2) * (c + 2) * v ∧ c < 2 ^ 23 then c else min (Nat.sqrt (2 ^ 91 / v)) 0x7FFFFF

/-- The result of RCP for |v| > 2^22 (R131): 2^45 / v, and where that is no integer one of its two neighbours. -/
def rcpValue (v : Int) : Nat :=
  let c := (Config.rcp (BitVec.ofInt 24 v)).toNat
  if 2 ^ 45 % v ≠ 0 ∧ c = ux 24 (2 ^ 45 / v + 1) then c else ux 24 (2 ^ 45 / v)

/-- NOP: no effect (R131). -/
def execLeNop (e : Fin 16) (s : State) : Out :=
  liveNow s fun s =>
    s.leAlu e.val (useD []) madeNone fun x => x

/-- ADD: dA ← dB + dC, saturated (R131). -/
def execLeAdd (e : Fin 16) (a b c : Fin 32) (s : State) : Out :=
  liveNow s fun s =>
    s.leAlu e.val (useD [b, c]) madeNone fun x => x.resD a (x.sD b + x.sD c)

/-- SUB: dA ← dB − dC, saturated (R131). -/
def execLeSub (e : Fin 16) (a b c : Fin 32) (s : State) : Out :=
  liveNow s fun s =>
    s.leAlu e.val (useD [b, c]) madeNone fun x => x.resD a (x.sD b - x.sD c)

/-- NEG: dA ← −dB, saturated (R131). -/
def execLeNeg (e : Fin 16) (a b : Fin 32) (s : State) : Out :=
  liveNow s fun s =>
    s.leAlu e.val (useD [b]) madeNone fun x => x.resD a (-x.sD b)

/-- ABS: dA ← |dB|, saturated (R131). -/
def execLeAbs (e : Fin 16) (a b : Fin 32) (s : State) : Out :=
  liveNow s fun s =>
    s.leAlu e.val (useD [b]) madeNone fun x => x.resD a (x.sD b).natAbs

/-- MIN: dA ← the lesser of dB and dC (R131). -/
def execLeMin (e : Fin 16) (a b c : Fin 32) (s : State) : Out :=
  liveNow s fun s =>
    s.leAlu e.val (useD [b, c]) madeNone fun x => x.resNZ a (if x.sD b ≤ x.sD c then x.getD b else x.getD c)

/-- MAX: dA ← the greater of dB and dC (R131). -/
def execLeMax (e : Fin 16) (a b c : Fin 32) (s : State) : Out :=
  liveNow s fun s =>
    s.leAlu e.val (useD [b, c]) madeNone fun x => x.resNZ a (if x.sD c ≤ x.sD b then x.getD b else x.getD c)

/-- CLMP: dA ← min(max(dB, −|dC|), |dC|), with |−1| taken as 0x7F_FFFF (R131). -/
def execLeClmp (e : Fin 16) (a b c : Fin 32) (s : State) : Out :=
  liveNow s fun s =>
    s.leAlu e.val (useD [b, c]) madeNone fun x => let m := min ((x.sD c).natAbs : Int) 0x7FFFFF; x.resNZ a (ux 24 (min (max (x.sD b) (-m)) m))

/-- AND: dA ← the bitwise and of dB and dC (R131). -/
def execLeAnd (e : Fin 16) (a b c : Fin 32) (s : State) : Out :=
  liveNow s fun s =>
    s.leAlu e.val (useD [b, c]) madeNone fun x => x.resNZ a (Nat.land (x.getD b) (x.getD c))

/-- OR: dA ← the bitwise or of dB and dC (R131). -/
def execLeOr (e : Fin 16) (a b c : Fin 32) (s : State) : Out :=
  liveNow s fun s =>
    s.leAlu e.val (useD [b, c]) madeNone fun x => x.resNZ a (Nat.lor (x.getD b) (x.getD c))

/-- XOR: dA ← the bitwise xor of dB and dC (R131). -/
def execLeXor (e : Fin 16) (a b c : Fin 32) (s : State) : Out :=
  liveNow s fun s =>
    s.leAlu e.val (useD [b, c]) madeNone fun x => x.resNZ a (Nat.xor (x.getD b) (x.getD c))

/-- NOT: dA ← the bitwise complement of dB (R131). -/
def execLeNot (e : Fin 16) (a b : Fin 32) (s : State) : Out :=
  liveNow s fun s =>
    s.leAlu e.val (useD [b]) madeNone fun x => x.resNZ a (0xFFFFFF - x.getD b % 2 ^ 24)

/-- ASL: dA ← dB shifted left by k, saturated (R131). -/
def execLeAsl (e : Fin 16) (a b k : Fin 32) (s : State) : Out :=
  liveNow s fun s =>
    s.leAlu e.val (useD [b]) madeNone fun x => x.resD a (x.sD b * 2 ^ k.val)

/-- ASR: dA ← dB shifted arithmetically right by k (R131). -/
def execLeAsr (e : Fin 16) (a b k : Fin 32) (s : State) : Out :=
  liveNow s fun s =>
    s.leAlu e.val (useD [b]) madeNone fun x => x.resNZ a (ux 24 (x.sD b / 2 ^ k.val))

/-- LSR: dA ← dB shifted logically right by k (R131). -/
def execLeLsr (e : Fin 16) (a b k : Fin 32) (s : State) : Out :=
  liveNow s fun s =>
    s.leAlu e.val (useD [b]) madeNone fun x => x.resNZ a (x.getD b / 2 ^ k.val)

/-- MOVD: dA ← dB (R131). -/
def execLeMovd (e : Fin 16) (a b : Fin 32) (s : State) : Out :=
  liveNow s fun s =>
    s.leAlu e.val (useD [b]) madeNone fun x => x.putD a (x.getD b)

/-- SEL: dA ← dB if the condition holds, else dC (R131, R134). -/
def execLeSel (e : Fin 16) (a b c : Fin 32) (cc : Fin 16) (s : State) : Out :=
  liveNow s fun s =>
    s.leAlu e.val (fun x => (3, resSr) :: useD [b, c] x) madeNone fun x => x.putD a (if x.cond s.servo cc.val then x.getD b else x.getD c)

/-- CMP: the flags of dB − dC, exact (R131). -/
def execLeCmp (e : Fin 16) (b c : Fin 32) (s : State) : Out :=
  liveNow s fun s =>
    s.leAlu e.val (useD [b, c]) madeNone fun x => (x.flagNZ (x.sD b - x.sD c)).putBit srV (outS 24 (x.sD b - x.sD c))

/-- ADDA: aA ← aB + aC (R131). -/
def execLeAdda (e : Fin 16) (a b c : Fin 8) (s : State) : Out :=
  liveNow s fun s =>
    s.leAlu e.val (fun _ => useA 0 [b, c]) (fun _ => madeA [a]) fun x => x.resA a (x.sA b + x.sA c)

/-- SUBA: aA ← aB − aC (R131). -/
def execLeSuba (e : Fin 16) (a b c : Fin 8) (s : State) : Out :=
  liveNow s fun s =>
    s.leAlu e.val (fun _ => useA 0 [b, c]) (fun _ => madeA [a]) fun x => x.resA a (x.sA b - x.sA c)

/-- NEGA: aA ← −aB (R131). -/
def execLeNega (e : Fin 16) (a b : Fin 8) (s : State) : Out :=
  liveNow s fun s =>
    s.leAlu e.val (fun _ => useA 0 [b]) (fun _ => madeA [a]) fun x => x.resA a (-x.sA b)

/-- ABSA: aA ← |aB| (R131). -/
def execLeAbsa (e : Fin 16) (a b : Fin 8) (s : State) : Out :=
  liveNow s fun s =>
    s.leAlu e.val (fun _ => useA 0 [b]) (fun _ => madeA [a]) fun x => x.resA a (x.sA b).natAbs

/-- CLRA: aA ← 0 (R131). -/
def execLeClra (e : Fin 16) (a : Fin 8) (s : State) : Out :=
  liveNow s fun s =>
    s.leAlu e.val (fun _ => []) (fun _ => madeA [a]) fun x => x.resAE a 0

/-- MVA: aA ← aB (R131). -/
def execLeMva (e : Fin 16) (a b : Fin 8) (s : State) : Out :=
  liveNow s fun s =>
    s.leAlu e.val (fun _ => useA 0 [b]) (fun _ => madeA [a]) fun x => x.resAE a (x.sA b)

/-- LDA: aA ← dB placed at [47:24], sign-extended (R131). -/
def execLeLda (e : Fin 16) (a : Fin 8) (b : Fin 32) (s : State) : Out :=
  liveNow s fun s =>
    s.leAlu e.val (useD [b]) (fun _ => madeA [a]) fun x => x.resAE a (x.sD b * 2 ^ 24)

/-- ADDAD: aA ← aB + dC placed as for LDA (R131). -/
def execLeAddad (e : Fin 16) (a b : Fin 8) (c : Fin 32) (s : State) : Out :=
  liveNow s fun s =>
    s.leAlu e.val (fun x => useA 0 [b] ++ useD [c] x) (fun _ => madeA [a]) fun x => x.resA a (x.sA b + x.sD c * 2 ^ 24)

/-- SHA: aA ← aB shifted arithmetically by a signed count, left shifts saturated (R131). -/
def execLeSha (e : Fin 16) (a b : Fin 8) (k : BitVec 9) (s : State) : Out :=
  liveNow s fun s =>
    s.leAlu e.val (fun _ => useA 0 [b]) (fun _ => madeA [a]) fun x => x.resA a (shiftBy (x.sA b) k.toInt)

/-- SHAV: as SHA by the signed integer dC[6:0] (R131). -/
def execLeShav (e : Fin 16) (a b : Fin 8) (c : Fin 32) (s : State) : Out :=
  liveNow s fun s =>
    s.leAlu e.val (fun x => useA 0 [b] ++ useD [c] x) (fun _ => madeA [a]) fun x => x.resA a (shiftBy (x.sA b) (sx 7 (x.getD c)))

/-- CMPA: the flags of aB − aC, exact (R131). -/
def execLeCmpa (e : Fin 16) (b c : Fin 8) (s : State) : Out :=
  liveNow s fun s =>
    s.leAlu e.val (fun _ => useA 0 [b, c]) madeNone fun x => ((x.flagNZ (x.sA b - x.sA c)).flagE (x.sA b - x.sA c)).putBit srV (outS 56 (x.sA b - x.sA c))

/-- RDA: aB rounded into dA with saturation (R123). -/
def execLeRda (e : Fin 16) (a : Fin 32) (b : Fin 8) (s : State) : Out :=
  liveNow s fun s =>
    s.leAlu e.val (fun _ => useA 1 [b]) madeNone fun x => x.readAcc a (roundAcc (x.bit srRM) (x.sA b))

/-- RDT: aB truncated into dA with saturation (R123). -/
def execLeRdt (e : Fin 16) (a : Fin 32) (b : Fin 8) (s : State) : Out :=
  liveNow s fun s =>
    s.leAlu e.val (fun _ => useA 1 [b]) madeNone fun x => x.readAcc a (x.sA b)

/-- EXPA: dA ← the normalisation count of aB (R124). -/
def execLeExpa (e : Fin 16) (a : Fin 32) (b : Fin 8) (s : State) : Out :=
  liveNow s fun s =>
    s.leAlu e.val (fun _ => useA 1 [b]) madeNone fun x => (x.putD a (ux 24 (normCount 47 (x.sA b)))).putBit srZ (decide (normCount 47 (x.sA b) = 0))

/-- EXPD: dA ← the normalisation count of dB (R124). -/
def execLeExpd (e : Fin 16) (a b : Fin 32) (s : State) : Out :=
  liveNow s fun s =>
    s.leAlu e.val (useD [b]) madeNone fun x => (x.putD a (ux 24 (normCount 23 (x.sD b)))).putBit srZ (decide (normCount 23 (x.sD b) = 0))

/-- MPYA: aA ← dB·dC (R131). -/
def execLeMpya (e : Fin 16) (a : Fin 8) (b c : Fin 32) (s : State) : Out :=
  liveNow s fun s =>
    s.leAlu e.val (useD [b, c]) (fun _ => madeA [a]) fun x => x.resA a (x.sD b * x.sD c * 2)

/-- MACA: aA ← aA + dB·dC (R131). -/
def execLeMaca (e : Fin 16) (a : Fin 8) (b c : Fin 32) (s : State) : Out :=
  liveNow s fun s =>
    s.leAlu e.val (fun x => useA 0 [a] ++ useD [b, c] x) (fun _ => madeA [a]) fun x => x.resA a (x.sA a + x.sD b * x.sD c * 2)

/-- MSUA: aA ← aA − dB·dC (R131). -/
def execLeMsua (e : Fin 16) (a : Fin 8) (b c : Fin 32) (s : State) : Out :=
  liveNow s fun s =>
    s.leAlu e.val (fun x => useA 0 [a] ++ useD [b, c] x) (fun _ => madeA [a]) fun x => x.resA a (x.sA a - x.sD b * x.sD c * 2)

/-- SCS: dA ← sin and d(A+1) ← cos of the angle dB; an odd A is fault 1 (R131, R136). -/
def execLeScs (e : Fin 16) (a b : Fin 32) (s : State) : Out :=
  liveNow s fun s =>
    if a.val % 2 = 1 then s.leFault e.val 1
    else s.leAlu e.val (useD [b]) (fun x => [⟨2, x.phys a⟩, ⟨2, x.phys (a + 1)⟩]) fun x =>
      (x.putD a (sinWord (x.getD b))).putD (a.val + 1) (cosWord (x.getD b))

/-- RSQ: dA ← 1 / (2√x) for the value x of aB; x ≤ 0.25 gives 0x7F_FFFF and sets L (R131). -/
def execLeRsq (e : Fin 16) (a : Fin 32) (b : Fin 8) (s : State) : Out :=
  liveNow s fun s =>
    s.leAlu e.val (fun _ => useA 1 [b]) (fun x => [⟨2, x.phys a⟩]) fun x => let v := x.sA b; if v ≤ 2 ^ 45 then (x.putD a 0x7FFFFF).flagL true else x.putD a (rsqValue v.toNat)

/-- RCP: dA ← 1 / (2·dB); |dB| ≤ 0.5 gives 0x7F_FFFF or 0x80_0000 by sign and sets L (R131). -/
def execLeRcp (e : Fin 16) (a b : Fin 32) (s : State) : Out :=
  liveNow s fun s =>
    s.leAlu e.val (useD [b]) (fun x => [⟨2, x.phys a⟩]) fun x => let v := x.sD b; if v.natAbs ≤ 2 ^ 22 then (x.putD a (if v < 0 then 0x800000 else 0x7FFFFF)).flagL true else x.putD a (rcpValue v)

/-- MVP: pA ← pB (R131). -/
def execLeMvp (e : Fin 16) (a b : Fin 8) (s : State) : Out :=
  liveNow s fun s =>
    s.leAlu e.val (fun _ => [(0, resP b)]) (fun _ => [⟨3, resP a⟩]) fun x => x.putP a (x.getP b)

/-- ADDP: pA ← pB + dC[17:0] (R131). -/
def execLeAddp (e : Fin 16) (a b : Fin 8) (c : Fin 32) (s : State) : Out :=
  liveNow s fun s =>
    s.leAlu e.val (fun x => (2, resP b) :: useD [c] x) (fun _ => [⟨3, resP a⟩]) fun x => x.putP a (x.getP b + x.getD c % 2 ^ 18)

/-- ADDPI: pA ← pB + signed IMM9 (R131). -/
def execLeAddpi (e : Fin 16) (a b : Fin 8) (k : BitVec 9) (s : State) : Out :=
  liveNow s fun s =>
    s.leAlu e.val (fun _ => [(2, resP b)]) (fun _ => [⟨3, resP a⟩]) fun x => x.putP a (ux 18 ((x.getP b : Int) + k.toInt))

/-- MVDP: pA ← dB[17:0] (R131). -/
def execLeMvdp (e : Fin 16) (a : Fin 8) (b : Fin 32) (s : State) : Out :=
  liveNow s fun s =>
    s.leAlu e.val (useD [b]) (fun _ => [⟨3, resP a⟩]) fun x => x.putP a (x.getD b)

/-- MVPD: dA ← pB, zero-extended (R131). -/
def execLeMvpd (e : Fin 16) (a : Fin 32) (b : Fin 8) (s : State) : Out :=
  liveNow s fun s =>
    s.leAlu e.val (fun _ => [(0, resP b)]) madeNone fun x => x.putD a (x.getP b)

/-- MTS: the special register of code c ← dB, truncated to its width (R131, R136). -/
def execLeMts (e : Fin 16) (c b : Fin 32) (s : State) : Out :=
  liveNow s fun s =>
    s.spWrite e.val c.val ((s.set' e.val).getD b) (useD [b] (s.set' e.val))

/-- MFS: dA ← the special register of code c, zero-extended; codes 29–31 are fault 1 (R131, R136). -/
def execLeMfs (e : Fin 16) (a c : Fin 32) (s : State) : Out :=
  liveNow s fun s =>
    match s.spGet e.val (s.set' e.val) c.val with
    | some v => s.leAlu e.val (useD []) madeNone fun x => x.putD a v
    | none => s.leFault e.val 1

/-- CLRL: clears L (R131). -/
def execLeClrl (e : Fin 16) (s : State) : Out :=
  liveNow s fun s =>
    s.leAlu e.val (useD []) madeNone fun x => x.putBit srL false

end Sys2Proof.Machine
end

