-- ==== Sys2Proof/Machine/EngineMem.lean ====
section
/-! DEFINITION. The loop engine's memory instructions (Format M, R132), control instructions (Format C, R133) and product
instructions (Format P, R130): one meaning each, on the register set in use of engine `e`. -/

namespace Sys2Proof.Machine

/-- A taken branch (R128). -/
def branchTo (x : LeSet) (t : Nat) : LeSet := { x with pc := t, loops := leaveLoops t x.loops }

/-- CMT of a slot (R127): its downlink words enter the send buffer; refused outside the running main task's slots or from an extension
task, with BAD_CMT and COMMIT_REFUSED; ignored after the deadline of the task's ring cycle (R105). -/
def State.commit (s : State) (e sl : Nat) : State :=
  let y := s.eng e
  let own := !y.onExt && match y.main.task with
    | some t => decide (sl < 24) && bitAt (s.get (Reg.TASK_SLOTS.SLOTS e t)) sl
    | none => false
  if !own then
    (s.flag (Reg.LE_PSTAT.BAD_CMT e)).log (s.engineSrc e) Ev.COMMIT_REFUSED sl (((s.set' e).task.getD 0) + 32 * b2n y.onExt)
  else if y.main.born < (s.slot e sl).due then s
  else
    let w := fun (o : Nat) => s.leWord e (mboxAddr sl o) % 2 ^ 24
    let s1 := s.modSlot e sl fun z => { z with sent := some (w 0x20, w 0x21, w 0x22) }
    match s.slotAxis? e sl with
    | some a => s1.modAxis a fun z => { z with pwmSel := !bitAt y.main.quiet sl }
    | none => s1

/-- LD: dREG ← word[23:0] (R132). -/
def execLeLd (e : Fin 16) (r : Fin 32) (p : Fin 8) (u : Fin 4) (off : BitVec 17) (s : State) : Out :=
  liveNow s fun s =>
    s.leRead e.val p u off.toInt (fun x => [⟨0, x.phys r⟩]) fun x w => x.putD r (w % 2 ^ 24)

/-- LDE: dREG ← word[27:24], the EXP field of R96 (R132). -/
def execLeLde (e : Fin 16) (r : Fin 32) (p : Fin 8) (u : Fin 4) (off : BitVec 17) (s : State) : Out :=
  liveNow s fun s =>
    s.leRead e.val p u off.toInt (fun x => [⟨0, x.phys r⟩]) fun x w => x.putD r (bits w 24 4)

/-- LDP: pREG ← word[17:0] (R132). -/
def execLeLdp (e : Fin 16) (r : Fin 8) (p : Fin 8) (u : Fin 4) (off : BitVec 17) (s : State) : Out :=
  liveNow s fun s =>
    s.leRead e.val p u off.toInt (fun _ => [⟨0, resP r⟩, ⟨3, resP r⟩]) fun x w => x.putP r w

/-- ST: word ← dREG sign-extended (R132). -/
def execLeSt (e : Fin 16) (r : Fin 32) (p : Fin 8) (u : Fin 4) (off : BitVec 17) (s : State) : Out :=
  liveNow s fun s =>
    s.leWrite e.val p u off.toInt (useD [r]) fun x => ux 32 (x.sD r)

/-- STH: word ← aREG[55:24] (R132). -/
def execLeSth (e : Fin 16) (r : Fin 8) (p : Fin 8) (u : Fin 4) (off : BitVec 17) (s : State) : Out :=
  liveNow s fun s =>
    s.leWrite e.val p u off.toInt (fun _ => useA 1 [r]) fun x => bits (tget 0 x.a r) 24 32

/-- STL: word ← aREG[23:0], zero-extended (R132). -/
def execLeStl (e : Fin 16) (r : Fin 8) (p : Fin 8) (u : Fin 4) (off : BitVec 17) (s : State) : Out :=
  liveNow s fun s =>
    s.leWrite e.val p u off.toInt (fun _ => useA 1 [r]) fun x => bits (tget 0 x.a r) 0 24

/-- LDH: aREG[55:24] ← word, aREG[23:0] ← 0 (R132). -/
def execLeLdh (e : Fin 16) (r : Fin 8) (p : Fin 8) (u : Fin 4) (off : BitVec 17) (s : State) : Out :=
  liveNow s fun s =>
    s.leRead e.val p u off.toInt (fun _ => [⟨0, resA r⟩, ⟨1, resA r⟩]) fun x w => { x with a := tput 0 x.a r (w * 2 ^ 24) }

/-- LDL: aREG[23:0] ← word[23:0] (R132). -/
def execLeLdl (e : Fin 16) (r : Fin 8) (p : Fin 8) (u : Fin 4) (off : BitVec 17) (s : State) : Out :=
  liveNow s fun s =>
    s.leRead e.val p u off.toInt (fun _ => [⟨0, resA r⟩, ⟨1, resA r⟩]) fun x w => { x with a := tput 0 x.a r (setBits (tget 0 x.a r) 0 24 w) }

/-- LDI: dREG ← signed IMM shifted left by 3, with N and Z (R133). -/
def execLeLdi (e : Fin 16) (r : Fin 32) (k : BitVec 21) (s : State) : Out :=
  liveNow s fun s =>
    s.leAlu e.val (useD []) madeNone fun x => x.resNZ r (ux 24 (k.toInt * 8))

/-- LDPI: pREG ← IMM[17:0] (R133). -/
def execLeLdpi (e : Fin 16) (r : Fin 8) (k : BitVec 21) (s : State) : Out :=
  liveNow s fun s =>
    s.leAlu e.val (useD []) (fun _ => [⟨3, resP r⟩]) fun x => x.putP r k.toNat

/-- LDSI: the special register of code c ← IMM, truncated to its width (R133, R136). -/
def execLeLdsi (e : Fin 16) (c : Fin 32) (k : BitVec 21) (s : State) : Out :=
  liveNow s fun s =>
    s.spWrite e.val c.val (ux 24 k.toInt) []

/-- JMP: PC ← IMM[13:0], leaving the loops whose body does not hold it (R128, R133). -/
def execLeJmp (e : Fin 16) (k : BitVec 14) (s : State) : Out :=
  liveNow s fun s =>
    s.leDone e.val 3 [] [] (branchTo (s.set' e.val) k.toNat)

/-- JCC: PC ← IMM[13:0] if the condition holds (R128, R133, R134). -/
def execLeJcc (e : Fin 16) (cc : Fin 16) (k : BitVec 14) (s : State) : Out :=
  liveNow s fun s =>
    let x := s.set' e.val
    if x.cond s.servo cc.val then s.leDone e.val 3 [(3, resSr)] [] (branchTo x k.toNat)
    else s.leDone e.val 1 [(3, resSr)] [] (x.after x.pc)

/-- CALL: PC + 1 is pushed, PC ← IMM[13:0]; a fifth level is fault 5 (R128, R133, R136). -/
def execLeCall (e : Fin 16) (k : BitVec 14) (s : State) : Out :=
  liveNow s fun s =>
    let x := s.set' e.val
    if 4 ≤ x.calls.length then s.leFault e.val 5
    else s.leDone e.val 3 [] [] { x with calls := (x.pc + 1) :: x.calls, pc := k.toNat }

/-- RET: PC ← the popped address; an empty call stack is fault 5 (R128, R133, R136). -/
def execLeRet (e : Fin 16) (s : State) : Out :=
  liveNow s fun s =>
    let x := s.set' e.val
    match x.calls with
    | [] => s.leFault e.val 5
    | r :: rest => s.leDone e.val 3 [] [] { x with calls := rest, pc := r }

/-- LOOP: the next len + 1 instructions run count times, or lc times; 0 skips them; a fifth level is fault 4 (R128, R133, R136). -/
def execLeLoop (e : Fin 16) (rot cntreg : Bool) (len : Fin 128) (count : BitVec 14) (s : State) : Out :=
  liveNow s fun s =>
    let x := s.set' e.val
    let n := if cntreg then x.lc else count.toNat
    let uses := if cntreg then [(4, resLc)] else []
    if n = 0 then s.leDone e.val 1 uses [] (x.after (x.pc + len.val + 1))
    else if 4 ≤ x.loops.length then s.leFault e.val 4
    else s.leDone e.val 1 uses [] { x with loops := ⟨x.pc + 1, x.pc + len.val + 1, n, rot⟩ :: x.loops, pc := x.pc + 1 }

/-- CMT: the downlink words of slot ts, or of the slot named, are committed (R127). -/
def execLeCmt (e : Fin 16) (own : Bool) (sl : Fin 32) (s : State) : Out :=
  liveNow s fun s =>
    let x := s.set' e.val
    s.commit e.val (if own then x.ts else sl.val) |>.leDone e.val 1 [] [] (x.after x.pc)

/-- END: the running task ends (R126, R133). -/
def execLeEnd (e : Fin 16) (s : State) : Out :=
  liveNow s fun s =>
    (s.modEng e.val fun y => { y with cycles := y.cycles + 1 }).endTask e.val

/-- MPY: one product into aAD, with up to two loads (R130). -/
def execLeMpy (e : Fin 16) (ad : Fin 8) (s1 s2 : Fin 16) (m0 m1 : Option PMove) (s : State) : Out :=
  liveNow s fun s =>
    s.leProd e.val (some 0) false ad.val s1.val s2.val m0 m1

/-- MAC: aAD plus one product, with up to two loads (R130). -/
def execLeMac (e : Fin 16) (ad : Fin 8) (s1 s2 : Fin 16) (m0 m1 : Option PMove) (s : State) : Out :=
  liveNow s fun s =>
    s.leProd e.val (some 1) false ad.val s1.val s2.val m0 m1

/-- MSU: aAD minus one product, with up to two loads (R130). -/
def execLeMsu (e : Fin 16) (ad : Fin 8) (s1 s2 : Fin 16) (m0 m1 : Option PMove) (s : State) : Out :=
  liveNow s fun s =>
    s.leProd e.val (some 2) false ad.val s1.val s2.val m0 m1

/-- MPY2: two products into the pair of aAD; an odd AD is fault 1, with up to two loads (R130). -/
def execLeMpy2 (e : Fin 16) (ad : Fin 8) (s1 s2 : Fin 16) (m0 m1 : Option PMove) (s : State) : Out :=
  liveNow s fun s =>
    s.leProd e.val (some 0) true ad.val s1.val s2.val m0 m1

/-- MAC2: the pair of aAD plus two products; an odd AD is fault 1, with up to two loads (R130). -/
def execLeMac2 (e : Fin 16) (ad : Fin 8) (s1 s2 : Fin 16) (m0 m1 : Option PMove) (s : State) : Out :=
  liveNow s fun s =>
    s.leProd e.val (some 1) true ad.val s1.val s2.val m0 m1

/-- MSU2: the pair of aAD minus two products; an odd AD is fault 1, with up to two loads (R130). -/
def execLeMsu2 (e : Fin 16) (ad : Fin 8) (s1 s2 : Fin 16) (m0 m1 : Option PMove) (s : State) : Out :=
  liveNow s fun s =>
    s.leProd e.val (some 2) true ad.val s1.val s2.val m0 m1

/-- MOV: up to two loads without a product (R130). -/
def execLeMov (e : Fin 16) (m0 m1 : Option PMove) (s : State) : Out :=
  liveNow s fun s =>
    s.leProd e.val none false 0 0 0 m0 m1

/-- ILLEGAL_OPCODE: an illegal encoding is engine fault 1, which ends the task (R136). -/
def execLeIllegalOpcode (e : Fin 16) (s : State) : Out :=
  liveNow s fun s =>
    s.leFault e.val 1

end Sys2Proof.Machine
end

