-- ==== Sys2Proof/Machine/Cycle.lean ====
section
/-! DEFINITION. The ring-cycle start (R9, R12, R13, R17, R25): what every block does at a cycle-start, at a servo boundary and at a
separation boundary, and the device-state events of the boundary (R20). -/

namespace Sys2Proof.Machine

/-! ### The mirrored inputs of a pair (R306) -/

/-- A mirrored queue word: it enters the standby's queue at its boundary of use; the active has pushed it already. -/
def State.takeWord (s : State) (b : List Nat) : State :=
  let q := leAt b 0 1 % 32
  let w := leAt b 1 1
  if s.takesInputs then s
  else if q < 16 then (if s.qRoom q then (s.qPush q ⟨b.drop 2, w % 64, bitAt w 6, 0, 0⟩).1 else s)
  else (s.countWrite 0 0).hqPush q (w % 64) (bitAt w 6) (b.drop 2) 0

/-- A mirrored service write; the standby counts it and takes a push of the active's, too (R306, R366). -/
def State.takeService (s : State) (b : List Nat) : State :=
  let a := leAt b 0 4
  let v := leAt b 4 4
  if s.takesInputs then s.writeReg a v
  else
    let s1 := s.countWrite 0 0
    if a = Reg.HQ_PUSH then s1.hqPush (v % 32) (v / 256 % 64) (bitAt v 15) s1.hqData (v / 65536) else s1.writeReg a v

/-- A mirrored safety message: the standby takes it as the active has accepted it. -/
def State.takeSafety (s : State) (b : List Nat) : State :=
  let c := leAt b 0 1
  let msg := b.drop 1
  if s.takesInputs then s else s.connAccept (c % 64) (leAt msg 4 2) ((msg.drop 8).take (leAt msg 6 1)) msg (bitAt c 7)

/-- The rows of samples in a record of kind 3: four ring cycles of eight encoders. -/
def encRows (b : List Nat) : List (List Int) :=
  (List.range 4).map fun j => (List.range 8).map fun e => sx 64 (leAt b (64 * j + 8 * e) 8)

/-- One mirrored input at its boundary of use. -/
def State.takeInput (s : State) (r : MirrorRec) : State :=
  match r.kind with
  | 1 => s.takeWord r.body
  | 2 => s.takeService r.body
  | 3 => { s with dev := { s.dev with encUse := encRows r.body } }
  | 4 => s.takeSafety r.body
  | 5 => if s.takesInputs then s else s.tdTakeMirror r.body
  | 6 => s.takeRecords (leAt r.body 0 2) ((splitRecords (r.body.length - 2) (r.body.drop 2)).filter fun x => x.1 != 3) true
  | 7 => s.takeDemand r.body
  | 8 => if s.takesInputs then s else s.set Reg.DEV_STATE.SHDN_REQ (leAt r.body 0 1)
  | _ => s

/-- MIRROR_APPLY (R306): the mirrored inputs whose boundary of use has come, in the order received. -/
def State.takeMirrored (s : State) : State :=
  let due := s.mirrorHeld.filter fun r => decide (r.use ≤ s.servoNo)
  let s1 := { s with mirrorHeld := s.mirrorHeld.filter fun r => !decide (r.use ≤ s.servoNo) }
  if s1.takesInputs || s1.role == roleStandby || s1.dpx.installed then forEach due State.takeInput s1 else s1

/-- The records of kinds 3 and 5 that the active of a pair adds to the frame for the next boundary (R306). -/
def State.ownRecords (s : State) : State :=
  let rows := s.dev.encLog
  let s1 := { s with dev := { s.dev with encLog := [] } }
  if s1.role ≠ roleActive then s1
  else
    let enc : MirrorRec := ⟨3, s1.servoNo + 1, rows.flatMap fun l => l.flatMap fun v => leBytes 8 (ux 64 v)⟩
    { s1 with mirrorHeld := s1.mirrorHeld ++ [enc], mirrorOut := s1.mirrorOut ++ [enc, ⟨5, s1.servoNo + 1, s1.tdMirror⟩] }

/-- The samples of the local encoders of this ring cycle, kept for the mirror (R306). -/
def State.encSamples (s : State) : State :=
  if s.inPair then
    let row := (List.range 8).map fun e => s.encAt e s.dev.cycleTsc
    { s with dev := { s.dev with encLog := (s.dev.encLog ++ [row]).drop (s.dev.encLog.length - 3) } }
  else s

/-! ### The parts of a ring-cycle start -/

/-- Every axis the image declares. -/
def State.forAxes (s : State) (f : State → Nat → State) : State := forEach s.img.axisIds f s
/-- Every island the image declares. -/
def State.forIslands (s : State) (f : State → Nat → State) : State := forEach s.img.islandIds f s

/-- The thermal charge of axis `a` and, where an uplink of the ring cycle was accepted, its cartridge's life (R151, R220, R222). -/
def State.axisCycle (s : State) (a : Nat) : State :=
  let was := s.on (Reg.I2T_STAT.LIMITING a)
  let s1 := s.i2t a
  let s2 := if !was && s1.on (Reg.I2T_STAT.LIMITING a) then s1.lifePeak a else s1
  if (s2.axis a).fresh then (s2.modAxis a fun x => { x with fresh := false }).lifeAccount a else s2

/-- What the ring cycle that ends leaves to be done (R111, R151, R198, R222). -/
def State.cycleEnd (s : State) : State :=
  (forN 16 State.restPoints (forN 16 State.traceCycle s)).forAxes State.axisCycle

/-- The cycle timer begins a ring cycle (R9, R12, R25, R334): number, cycle-start instant, and the next one. -/
def State.timerTick (s : State) : State :=
  let d := s.dev
  let k := s.trimStep
  ({ s with dev := { d with
    cycle := if d.begun then d.cycle + 1 else d.cycle, begun := true, cycleTsc := d.nextCycle
    nextCycle := (((d.nextCycle + ringNs : Nat) : Int) + k).toNat } }).modFed fun f => { f with trim := f.trim - k }

/-- The axis channels that take requests at a servo boundary: the declared ones, and others that have been asked (R158). -/
def State.askedAxes (s : State) : List Nat :=
  s.img.axisIds ++ (s.axes.map (·.1)).filter fun a => !s.img.axisIds.contains a

/-- The requests that wait for a servo boundary (R48, R150, R160, R427). -/
def State.servoRequests (s : State) : State :=
  let s1 := ((s.islandRequests).thermalBoundary).forAxes State.qsTake
  forEach s1.askedAxes State.axisRequests s1

/-- The commits at the start of a servo boundary, before the samples: mirrored inputs (R306), person and shoal data (R16, R234), presets
(R167), a standby's device state (R314). -/
def State.servoCommits (s : State) : State :=
  ((((((s.ownRecords).dpxServo).takeMirrored).followState).personCommit).shoalCommit).forAxes State.takePreset

/-- FACTOR_PUBLISH, the narrows' part of it, and the federation cycle at a separation boundary (R17, R257, R325). -/
def State.sepBefore (s : State) : State :=
  let s1 := (((s.nrwPublish).sepPublish).fedBoundary).fedReference
  if silentState s1.devState then s1 else s1.nrwStart

/-- SEP_CAPTURE and TD_SNAPSHOT at a separation boundary (R230, R353). -/
def State.sepAfter (s : State) : State :=
  (if silentState s.devState then s else (s.sepCapture).nrwCapture).tdSnap

/-- SERVO_BOUNDARY (R13): generators and interpolator, then the arbiter (R254) and the pose unit (R230). -/
def State.servoStep (s : State) : State :=
  ((((s.forAxes State.pgStep).takeOverrides).forIslands State.interpolate).arbitrate).poseCompute

/-- The ticks of the dependence counters (R79). -/
def State.ticks (s : State) : State :=
  let c := s.dev.cycle.toNat
  let s1 := s.dcTick 1
  let s2 := if c % 16 = 0 then s1.dcTick 2 else s1
  if c % 64 = 0 then s2.dcTick 3 else s2

/-- Channel A at a servo boundary (R279, R281). -/
def State.safetyBoundary (s : State) : State :=
  let c := s.dev.cycle.toNat
  let s1 := s.latchDemands
  if c % 64 = 0 then s1.safetyCapture else if c % 64 = 60 then s1.safetyReport else s1

/-- A servo boundary from the requests on, with the separation boundary it may carry. -/
def State.servoBoundary (s : State) : State :=
  let sep := s.sepCycle
  let s1 := (forN 8 State.encSpeed s).servoRequests
  let s2 := (if sep then s1.sepBefore else s1).servoStep
  let s3 := if sep then s2.sepAfter else s2
  ((s3.ticks).safetyBoundary).rotBoundary

/-- The rings begin their cycle (R201); a unit that follows takes its cycles from the frames it hears (R302). -/
def State.ringsCycle (s : State) : State :=
  if s.follows then s
  else forN 16 State.unpolled (forEach (s.ringIds.filter fun k => s.ringMode k != ringOff) State.ringStart s)

/-- The windows of the ring cycle before the last have closed. -/
def State.ringsClose (s : State) : State :=
  if s.follows then s else forEach (s.ringIds.filter fun k => s.ringMode k != ringOff) State.closeOld s

/-- What every block does in the ring cycle that the timer has begun, up to the device-state events of its start. -/
def State.cycleWork (s : State) : State :=
  let s1 := s.ringsClose.takeFaults
  let s2 := if s1.servo then s1.servoCommits else s1
  let s3 := ((s2.dpxCycle).rotDivergence.noteRecords).encSamples
  let s4 := s3.sampleLines.stepActs
  let s5 := if s4.servo then s4.servoBoundary else s4
  let s5 := if s5.sepCycle then s5 else s5.fedReference
  let s6 := if s5.dev.cycle.toNat % 16 = 15 then s5.sepDeadline else s5
  let s7 := forN 16 (fun s e => (s.coefCycle e).engineCycle e) (forN 16 State.importFill s6)
  let s8 := forN 4 State.emuCycle (forN 16 State.cmpSchedule s7)
  s8.ringsCycle

/-- A ring cycle of the running cycle timer begins. -/
def State.cycleStart (s : State) : State := (((s.cycleEnd).timerTick).cycleWork).boundaryEvents

/-- While the timer does not run, the device-state events are evaluated every 15 625 ns on the device's own clock (R20). -/
def State.ownTick (s : State) : State := { s with dev := { s.dev with nextCycle := s.dev.nextCycle + ringNs } }

/-- RING_CYCLE_START (R12, R20): the next ring cycle begins, at the instant the cycle timer set for it; while the timer does not run, the
next evaluation of device-state events. -/
def execRingCycleStart (s : State) : Out :=
  liveNow s fun s =>
    let s1 := s.at (BitVec.ofNat 64 s.dev.nextCycle)
    if s.dev.timer then s1.cycleStart else s1.ownTick.boundaryEvents

end Sys2Proof.Machine
end

