-- ==== Sys2Proof/Machine/Dispatch.lean ====
section
/-! DEFINITION. The meaning of every command: one arm per constructor, each a direct call of its meaning. -/

namespace Sys2Proof.Machine

/-- The effect of a command on everything but the queue of waiting commands. -/
def exec (i : Instr) (s : State) : Host.Outcome State Fault Refusal :=
  match i with
  | .powerGood node pos svc flash trained => Sys2Proof.Machine.execPowerGood node pos svc flash trained s
  | .powerGoodLoss t => Sys2Proof.Machine.execPowerGoodLoss t s
  | .channelBReady t => Sys2Proof.Machine.execChannelBReady t s
  | .imageCopiesRead t agA agB => Sys2Proof.Machine.execImageCopiesRead t agA agB s
  | .reload t => Sys2Proof.Machine.execReload t s
  | .reducedReq t => Sys2Proof.Machine.execReducedReq t s
  | .autoReq t => Sys2Proof.Machine.execAutoReq t s
  | .shdnReqAsserted t => Sys2Proof.Machine.execShdnReqAsserted t s
  | .shdnReqReleased t => Sys2Proof.Machine.execShdnReqReleased t s
  | .bringUpComplete t => Sys2Proof.Machine.execBringUpComplete t s
  | .bringUpTimeout t => Sys2Proof.Machine.execBringUpTimeout t s
  | .stoppingComplete t => Sys2Proof.Machine.execStoppingComplete t s
  | .ringCycleStart => Sys2Proof.Machine.execRingCycleStart s
  | .cycleLoRead t udp => Sys2Proof.Machine.execCycleLoRead t udp s
  | .tscLoRead t udp => Sys2Proof.Machine.execTscLoRead t udp s
  | .cycleTscLoRead t udp => Sys2Proof.Machine.execCycleTscLoRead t udp s
  | .linePosLoRead t udp k => Sys2Proof.Machine.execLinePosLoRead t udp k s
  | .lineVrateWrite t k v => Sys2Proof.Machine.execLineVrateWrite t k v s
  | .lineResume t k => Sys2Proof.Machine.execLineResume t k s
  | .linePreset t k => Sys2Proof.Machine.execLinePreset t k s
  | .actArm t tag core => Sys2Proof.Machine.execActArm t tag core s
  | .actCancel t n tag => Sys2Proof.Machine.execActCancel t n tag s
  | .actionExecute t => Sys2Proof.Machine.execActionExecute t s
  | .islEnable t i1 => Sys2Proof.Machine.execIslEnable t i1 s
  | .islDisable t i1 => Sys2Proof.Machine.execIslDisable t i1 s
  | .islHold t i1 => Sys2Proof.Machine.execIslHold t i1 s
  | .islResume t i1 => Sys2Proof.Machine.execIslResume t i1 s
  | .islFlush t i1 => Sys2Proof.Machine.execIslFlush t i1 s
  | .islSs1 t i1 => Sys2Proof.Machine.execIslSs1 t i1 s
  | .pgGo t a dir => Sys2Proof.Machine.execPgGo t a dir s
  | .pgStop t a => Sys2Proof.Machine.execPgStop t a s
  | .itemAdmit t src => Sys2Proof.Machine.execItemAdmit t src s
  | .operandDeliver t q => Sys2Proof.Machine.execOperandDeliver t q s
  | .schedOpnd t e k tag => Sys2Proof.Machine.execSchedOpnd t e k tag s
  | .itemDispatch t => Sys2Proof.Machine.execItemDispatch t s
  | .itemComplete t c r => Sys2Proof.Machine.execItemComplete t c r s
  | .itemTimeout t c => Sys2Proof.Machine.execItemTimeout t c s
  | .fabricGrant t k reqs => Sys2Proof.Machine.execFabricGrant t k reqs s
  | .fabricQuotaWindow t => Sys2Proof.Machine.execFabricQuotaWindow t s
  | .fabricHang t k => Sys2Proof.Machine.execFabricHang t k s
  | .fabClrMax t => Sys2Proof.Machine.execFabClrMax t s
  | .lawTaskStart t e => Sys2Proof.Machine.execLawTaskStart t e s
  | .extTaskStart t e => Sys2Proof.Machine.execExtTaskStart t e s
  | .downlinkDeadline t e sl => Sys2Proof.Machine.execDownlinkDeadline t e sl s
  | .leRestore t e => Sys2Proof.Machine.execLeRestore t e s
  | .leClrPeak t e => Sys2Proof.Machine.execLeClrPeak t e s
  | .lawCoefDataWrite t e v => Sys2Proof.Machine.execLawCoefDataWrite t e v s
  | .lawSwitchForceA t e sl => Sys2Proof.Machine.execLawSwitchForceA t e sl s
  | .lawSwitchForceB t e sl => Sys2Proof.Machine.execLawSwitchForceB t e sl s
  | .bandWrite t e sl r v => Sys2Proof.Machine.execBandWrite t e sl r v s
  | .liveWriteClear t e sl => Sys2Proof.Machine.execLiveWriteClear t e sl s
  | .traceArm t e => Sys2Proof.Machine.execTraceArm t e s
  | .traceStop t e => Sys2Proof.Machine.execTraceStop t e s
  | .traceForce t e => Sys2Proof.Machine.execTraceForce t e s
  | .traceCfgWrite t e r v => Sys2Proof.Machine.execTraceCfgWrite t e r v s
  | .leNop e => Sys2Proof.Machine.execLeNop e s
  | .leAdd e a b c => Sys2Proof.Machine.execLeAdd e a b c s
  | .leSub e a b c => Sys2Proof.Machine.execLeSub e a b c s
  | .leNeg e a b => Sys2Proof.Machine.execLeNeg e a b s
  | .leAbs e a b => Sys2Proof.Machine.execLeAbs e a b s
  | .leMin e a b c => Sys2Proof.Machine.execLeMin e a b c s
  | .leMax e a b c => Sys2Proof.Machine.execLeMax e a b c s
  | .leClmp e a b c => Sys2Proof.Machine.execLeClmp e a b c s
  | .leAnd e a b c => Sys2Proof.Machine.execLeAnd e a b c s
  | .leOr e a b c => Sys2Proof.Machine.execLeOr e a b c s
  | .leXor e a b c => Sys2Proof.Machine.execLeXor e a b c s
  | .leNot e a b => Sys2Proof.Machine.execLeNot e a b s
  | .leAsl e a b k => Sys2Proof.Machine.execLeAsl e a b k s
  | .leAsr e a b k => Sys2Proof.Machine.execLeAsr e a b k s
  | .leLsr e a b k => Sys2Proof.Machine.execLeLsr e a b k s
  | .leMovd e a b => Sys2Proof.Machine.execLeMovd e a b s
  | .leSel e a b c cc => Sys2Proof.Machine.execLeSel e a b c cc s
  | .leCmp e b c => Sys2Proof.Machine.execLeCmp e b c s
  | .leAdda e a b c => Sys2Proof.Machine.execLeAdda e a b c s
  | .leSuba e a b c => Sys2Proof.Machine.execLeSuba e a b c s
  | .leNega e a b => Sys2Proof.Machine.execLeNega e a b s
  | .leAbsa e a b => Sys2Proof.Machine.execLeAbsa e a b s
  | .leClra e a => Sys2Proof.Machine.execLeClra e a s
  | .leMva e a b => Sys2Proof.Machine.execLeMva e a b s
  | .leLda e a b => Sys2Proof.Machine.execLeLda e a b s
  | .leAddad e a b c => Sys2Proof.Machine.execLeAddad e a b c s
  | .leSha e a b k => Sys2Proof.Machine.execLeSha e a b k s
  | .leShav e a b c => Sys2Proof.Machine.execLeShav e a b c s
  | .leCmpa e b c => Sys2Proof.Machine.execLeCmpa e b c s
  | .leRda e a b => Sys2Proof.Machine.execLeRda e a b s
  | .leRdt e a b => Sys2Proof.Machine.execLeRdt e a b s
  | .leExpa e a b => Sys2Proof.Machine.execLeExpa e a b s
  | .leExpd e a b => Sys2Proof.Machine.execLeExpd e a b s
  | .leMpya e a b c => Sys2Proof.Machine.execLeMpya e a b c s
  | .leMaca e a b c => Sys2Proof.Machine.execLeMaca e a b c s
  | .leMsua e a b c => Sys2Proof.Machine.execLeMsua e a b c s
  | .leScs e a b => Sys2Proof.Machine.execLeScs e a b s
  | .leRsq e a b => Sys2Proof.Machine.execLeRsq e a b s
  | .leRcp e a b => Sys2Proof.Machine.execLeRcp e a b s
  | .leMvp e a b => Sys2Proof.Machine.execLeMvp e a b s
  | .leAddp e a b c => Sys2Proof.Machine.execLeAddp e a b c s
  | .leAddpi e a b k => Sys2Proof.Machine.execLeAddpi e a b k s
  | .leMvdp e a b => Sys2Proof.Machine.execLeMvdp e a b s
  | .leMvpd e a b => Sys2Proof.Machine.execLeMvpd e a b s
  | .leMts e c b => Sys2Proof.Machine.execLeMts e c b s
  | .leMfs e a c => Sys2Proof.Machine.execLeMfs e a c s
  | .leClrl e => Sys2Proof.Machine.execLeClrl e s
  | .leLd e r p u off => Sys2Proof.Machine.execLeLd e r p u off s
  | .leLde e r p u off => Sys2Proof.Machine.execLeLde e r p u off s
  | .leLdp e r p u off => Sys2Proof.Machine.execLeLdp e r p u off s
  | .leSt e r p u off => Sys2Proof.Machine.execLeSt e r p u off s
  | .leSth e r p u off => Sys2Proof.Machine.execLeSth e r p u off s
  | .leStl e r p u off => Sys2Proof.Machine.execLeStl e r p u off s
  | .leLdh e r p u off => Sys2Proof.Machine.execLeLdh e r p u off s
  | .leLdl e r p u off => Sys2Proof.Machine.execLeLdl e r p u off s
  | .leLdi e r k => Sys2Proof.Machine.execLeLdi e r k s
  | .leLdpi e r k => Sys2Proof.Machine.execLeLdpi e r k s
  | .leLdsi e c k => Sys2Proof.Machine.execLeLdsi e c k s
  | .leJmp e k => Sys2Proof.Machine.execLeJmp e k s
  | .leJcc e cc k => Sys2Proof.Machine.execLeJcc e cc k s
  | .leCall e k => Sys2Proof.Machine.execLeCall e k s
  | .leRet e => Sys2Proof.Machine.execLeRet e s
  | .leLoop e rot cntreg len count => Sys2Proof.Machine.execLeLoop e rot cntreg len count s
  | .leCmt e own sl => Sys2Proof.Machine.execLeCmt e own sl s
  | .leEnd e => Sys2Proof.Machine.execLeEnd e s
  | .leMpy e ad s1 s2 m0 m1 => Sys2Proof.Machine.execLeMpy e ad s1 s2 m0 m1 s
  | .leMac e ad s1 s2 m0 m1 => Sys2Proof.Machine.execLeMac e ad s1 s2 m0 m1 s
  | .leMsu e ad s1 s2 m0 m1 => Sys2Proof.Machine.execLeMsu e ad s1 s2 m0 m1 s
  | .leMpy2 e ad s1 s2 m0 m1 => Sys2Proof.Machine.execLeMpy2 e ad s1 s2 m0 m1 s
  | .leMac2 e ad s1 s2 m0 m1 => Sys2Proof.Machine.execLeMac2 e ad s1 s2 m0 m1 s
  | .leMsu2 e ad s1 s2 m0 m1 => Sys2Proof.Machine.execLeMsu2 e ad s1 s2 m0 m1 s
  | .leMov e m0 m1 => Sys2Proof.Machine.execLeMov e m0 m1 s
  | .leIllegalOpcode e => Sys2Proof.Machine.execLeIllegalOpcode e s
  | .leMemDataWrite t e v => Sys2Proof.Machine.execLeMemDataWrite t e v s
  | .leClrCount t e => Sys2Proof.Machine.execLeClrCount t e s
  | .axEnable t a => Sys2Proof.Machine.execAxEnable t a s
  | .axDisable t a => Sys2Proof.Machine.execAxDisable t a s
  | .axClear t a => Sys2Proof.Machine.execAxClear t a s
  | .prechargeComplete t a => Sys2Proof.Machine.execPrechargeComplete t a s
  | .prechargeTimeout t a => Sys2Proof.Machine.execPrechargeTimeout t a s
  | .brakeReleaseTimeout t a => Sys2Proof.Machine.execBrakeReleaseTimeout t a s
  | .decelComplete t a => Sys2Proof.Machine.execDecelComplete t a s
  | .holdTimeout t a => Sys2Proof.Machine.execHoldTimeout t a s
  | .brakeSetTimeout t a => Sys2Proof.Machine.execBrakeSetTimeout t a s
  | .bridgeOffReported t a => Sys2Proof.Machine.execBridgeOffReported t a s
  | .torqueOffTimeout t a => Sys2Proof.Machine.execTorqueOffTimeout t a s
  | .qsWrite t a r v => Sys2Proof.Machine.execQsWrite t a r v s
  | .fbPreset t a => Sys2Proof.Machine.execFbPreset t a s
  | .fbClrFault t a => Sys2Proof.Machine.execFbClrFault t a s
  | .encClrFault t k => Sys2Proof.Machine.execEncClrFault t k s
  | .fbPosLoRead t udp a r => Sys2Proof.Machine.execFbPosLoRead t udp a r s
  | .encCntLoRead t udp k r => Sys2Proof.Machine.execEncCntLoRead t udp k r s
  | .standstillDetect t enc k => Sys2Proof.Machine.execStandstillDetect t enc k s
  | .encoderTransition t k a b na nb => Sys2Proof.Machine.execEncoderTransition t k a b na nb s
  | .encoderIndex t k a b z na nb nz => Sys2Proof.Machine.execEncoderIndex t k a b z na nb nz s
  | .encoderWireBreak t k line broken => Sys2Proof.Machine.execEncoderWireBreak t k line broken s
  | .illegalWindowEnd t k => Sys2Proof.Machine.execIllegalWindowEnd t k s
  | .cmpCtrlOpen t c => Sys2Proof.Machine.execCmpCtrlOpen t c s
  | .cmpCtrlClose t c => Sys2Proof.Machine.execCmpCtrlClose t c s
  | .cmpCtrlPulse t c => Sys2Proof.Machine.execCmpCtrlPulse t c s
  | .cmpValueWrite t c r v => Sys2Proof.Machine.execCmpValueWrite t c r v s
  | .comparePoint t c => Sys2Proof.Machine.execComparePoint t c s
  | .comparePulseEnd t c => Sys2Proof.Machine.execComparePulseEnd t c s
  | .emuAlign t u => Sys2Proof.Machine.execEmuAlign t u s
  | .emuCfgWrite t u r v => Sys2Proof.Machine.execEmuCfgWrite t u r v s
  | .emuStep t u => Sys2Proof.Machine.execEmuStep t u s
  | .cycleStartReturn t k b frame clean => Sys2Proof.Machine.execCycleStartReturn t k b frame clean s
  | .responseReceive t k b frame clean => Sys2Proof.Machine.execResponseReceive t k b frame clean s
  | .slotWindowClose t k i1 => Sys2Proof.Machine.execSlotWindowClose t k i1 s
  | .nodeMuted t k n => Sys2Proof.Machine.execNodeMuted t k n s
  | .ringMute t k n => Sys2Proof.Machine.execRingMute t k n s
  | .ringUnmute t k n => Sys2Proof.Machine.execRingUnmute t k n s
  | .ringSwap t k => Sys2Proof.Machine.execRingSwap t k s
  | .swapExecute t k => Sys2Proof.Machine.execSwapExecute t k s
  | .swapTimeout t k => Sys2Proof.Machine.execSwapTimeout t k s
  | .ringReclose t k => Sys2Proof.Machine.execRingReclose t k s
  | .ringClr t k => Sys2Proof.Machine.execRingClr t k s
  | .ringFold t k => Sys2Proof.Machine.execRingFold t k s
  | .ringLinkDown t k b => Sys2Proof.Machine.execRingLinkDown t k b s
  | .ringLinkUp t k b => Sys2Proof.Machine.execRingLinkUp t k b s
  | .ringBringUp t k => Sys2Proof.Machine.execRingBringUp t k s
  | .landingReleased t k n => Sys2Proof.Machine.execLandingReleased t k n s
  | .svcRead t k tag node len => Sys2Proof.Machine.execSvcRead t k tag node len s
  | .svcWrite t k tag node len => Sys2Proof.Machine.execSvcWrite t k tag node len s
  | .serviceTransactionEnd t k => Sys2Proof.Machine.execServiceTransactionEnd t k s
  | .nodeSerialLoRead t udp k n => Sys2Proof.Machine.execNodeSerialLoRead t udp k n s
  | .frameForward t k b frame clean => Sys2Proof.Machine.execFrameForward t k b frame clean s
  | .identityAccept t k n => Sys2Proof.Machine.execIdentityAccept t k n s
  | .lifeWriteDue t k n => Sys2Proof.Machine.execLifeWriteDue t k n s
  | .lifeCreditReturn t k n => Sys2Proof.Machine.execLifeCreditReturn t k n s
  | .lifeRecordWrite t k n => Sys2Proof.Machine.execLifeRecordWrite t k n s
  | .pipeFault t p => Sys2Proof.Machine.execPipeFault t p s
  | .shoalActiveWrite t k active => Sys2Proof.Machine.execShoalActiveWrite t k active s
  | .shLrefLoRead t udp k => Sys2Proof.Machine.execShLrefLoRead t udp k s
  | .sepClrPeak t => Sys2Proof.Machine.execSepClrPeak t s
  | .zoneWatchdog t n => Sys2Proof.Machine.execZoneWatchdog t n s
  | .nrwRel t n epoch tag => Sys2Proof.Machine.execNrwRel t n epoch tag s
  | .nrwPassLoRead t udp n => Sys2Proof.Machine.execNrwPassLoRead t udp n s
  | .safetyInputChange t i1 laneB level => Sys2Proof.Machine.execSafetyInputChange t i1 laneB level s
  | .inputDiscrepancy t i1 => Sys2Proof.Machine.execInputDiscrepancy t i1 s
  | .testPulse t i1 laneB ownLow otherLow => Sys2Proof.Machine.execTestPulse t i1 laneB ownLow otherLow s
  | .ss1Timeout t k => Sys2Proof.Machine.execSs1Timeout t k s
  | .chaEvaluationDone t => Sys2Proof.Machine.execChaEvaluationDone t s
  | .channelAReport t crcOk sigOk inputsOk stateOk => Sys2Proof.Machine.execChannelAReport t crcOk sigOk inputsOk stateOk s
  | .reportMissing t => Sys2Proof.Machine.execReportMissing t s
  | .lockstepMismatch t word => Sys2Proof.Machine.execLockstepMismatch t word s
  | .tapLost t a => Sys2Proof.Machine.execTapLost t a s
  | .stoReadbackFault t k laneB => Sys2Proof.Machine.execStoReadbackFault t k laneB s
  | .stoTestPulse t k laneB ok => Sys2Proof.Machine.execStoTestPulse t k laneB ok s
  | .clockDisagreement t => Sys2Proof.Machine.execClockDisagreement t s
  | .temperatureTrip t tj => Sys2Proof.Machine.execTemperatureTrip t tj s
  | .safetyMessageReceive t c port msg => Sys2Proof.Machine.execSafetyMessageReceive t c port msg s
  | .safeConnTimeout t c => Sys2Proof.Machine.execSafeConnTimeout t c s
  | .safetyMessageSend t c => Sys2Proof.Machine.execSafetyMessageSend t c s
  | .safeSigLoRead t udp r => Sys2Proof.Machine.execSafeSigLoRead t udp r s
  | .heartbeatReceive t frame => Sys2Proof.Machine.execHeartbeatReceive t frame s
  | .heartbeatLost t => Sys2Proof.Machine.execHeartbeatLost t s
  | .mirrorReceive t frame => Sys2Proof.Machine.execMirrorReceive t frame s
  | .retransmitReceive t frame => Sys2Proof.Machine.execRetransmitReceive t frame s
  | .checkpointReceive t frame => Sys2Proof.Machine.execCheckpointReceive t frame s
  | .checkpointEndReceive t frame => Sys2Proof.Machine.execCheckpointEndReceive t frame s
  | .checkpointTimeout t => Sys2Proof.Machine.execCheckpointTimeout t s
  | .lawStateReceive t frame => Sys2Proof.Machine.execLawStateReceive t frame s
  | .relinquishReceive t frame => Sys2Proof.Machine.execRelinquishReceive t frame s
  | .partnerLaneDown t lane => Sys2Proof.Machine.execPartnerLaneDown t lane s
  | .partnerLaneUp t lane pos => Sys2Proof.Machine.execPartnerLaneUp t lane pos s
  | .staleTimeout t => Sys2Proof.Machine.execStaleTimeout t s
  | .tapResponseReceive t k b frame clean => Sys2Proof.Machine.execTapResponseReceive t k b frame clean s
  | .tapPollReceive t k b frame clean => Sys2Proof.Machine.execTapPollReceive t k b frame clean s
  | .verdictReady t w0 w1 w2 => Sys2Proof.Machine.execVerdictReady t w0 w1 w2 s
  | .outcomeDecide t => Sys2Proof.Machine.execOutcomeDecide t s
  | .duplexListenTimeout t => Sys2Proof.Machine.execDuplexListenTimeout t s
  | .promotion t => Sys2Proof.Machine.execPromotion t s
  | .dpxHandover t => Sys2Proof.Machine.execDpxHandover t s
  | .dpxRejoin t => Sys2Proof.Machine.execDpxRejoin t s
  | .duplexSynced t => Sys2Proof.Machine.execDuplexSynced t s
  | .referenceReceive t port frame clean => Sys2Proof.Machine.execReferenceReceive t port frame clean s
  | .slotFrameSend t => Sys2Proof.Machine.execSlotFrameSend t s
  | .slotFrameReceive t port frame clean => Sys2Proof.Machine.execSlotFrameReceive t port frame clean s
  | .relaySend t n => Sys2Proof.Machine.execRelaySend t n s
  | .linkReqSend t => Sys2Proof.Machine.execLinkReqSend t s
  | .linkReqReceive t port frame clean residence => Sys2Proof.Machine.execLinkReqReceive t port frame clean residence s
  | .linkRespReceive t port frame clean => Sys2Proof.Machine.execLinkRespReceive t port frame clean s
  | .referenceMissing t => Sys2Proof.Machine.execReferenceMissing t s
  | .fedListenTimeout t => Sys2Proof.Machine.execFedListenTimeout t s
  | .fedFold t => Sys2Proof.Machine.execFedFold t s
  | .fedNodeMute t n => Sys2Proof.Machine.execFedNodeMute t n s
  | .fedReclose t => Sys2Proof.Machine.execFedReclose t s
  | .fedMute t n => Sys2Proof.Machine.execFedMute t n s
  | .fedUnmute t n => Sys2Proof.Machine.execFedUnmute t n s
  | .fedClr t => Sys2Proof.Machine.execFedClr t s
  | .dorluLinkDown t port => Sys2Proof.Machine.execDorluLinkDown t port s
  | .dorluLinkUp t port => Sys2Proof.Machine.execDorluLinkUp t port s
  | .fedLoRead t udp r => Sys2Proof.Machine.execFedLoRead t udp r s
  | .ethLink t port up => Sys2Proof.Machine.execEthLink t port up s
  | .arpRequest t port ip => Sys2Proof.Machine.execArpRequest t port ip s
  | .icmpEcho t port ip data => Sys2Proof.Machine.execIcmpEcho t port ip data s
  | .ethFrameDiscard t port badFcs => Sys2Proof.Machine.execEthFrameDiscard t port badFcs s
  | .ptpSyncReceive t port dom udp seq twoStep sec ns corr => Sys2Proof.Machine.execPtpSyncReceive t port dom udp seq twoStep sec ns corr s
  | .ptpFollowUpReceive t port dom udp seq sec ns corr => Sys2Proof.Machine.execPtpFollowUpReceive t port dom udp seq sec ns corr s
  | .ptpDelayReqReceive t port dom udp seq => Sys2Proof.Machine.execPtpDelayReqReceive t port dom udp seq s
  | .ptpDelayRespReceive t port dom udp seq sec ns corr => Sys2Proof.Machine.execPtpDelayRespReceive t port dom udp seq sec ns corr s
  | .ptpPdelayReqReceive t port dom udp seq => Sys2Proof.Machine.execPtpPdelayReqReceive t port dom udp seq s
  | .ptpPdelayRespReceive t port dom udp seq turnaround corr => Sys2Proof.Machine.execPtpPdelayRespReceive t port dom udp seq turnaround corr s
  | .ptpAnnounceReceive t port dom udp foreign gm => Sys2Proof.Machine.execPtpAnnounceReceive t port dom udp foreign gm s
  | .ptpSyncSend t d => Sys2Proof.Machine.execPtpSyncSend t d s
  | .ptpAnnounceSend t d => Sys2Proof.Machine.execPtpAnnounceSend t d s
  | .ptpDelayReqSend t d => Sys2Proof.Machine.execPtpDelayReqSend t d s
  | .timeHoldover t d cause => Sys2Proof.Machine.execTimeHoldover t d cause s
  | .asymmetryUnverified t d => Sys2Proof.Machine.execAsymmetryUnverified t d s
  | .tdAcceptStep t d => Sys2Proof.Machine.execTdAcceptStep t d s
  | .tdConfirmAsym t d => Sys2Proof.Machine.execTdConfirmAsym t d s
  | .tdSecLoRead t udp d => Sys2Proof.Machine.execTdSecLoRead t udp d s
  | .tdSnapTscLoRead t udp d => Sys2Proof.Machine.execTdSnapTscLoRead t udp d s
  | .psWrite t q prev d eor => Sys2Proof.Machine.execPsWrite t q prev d eor s
  | .stagedWordPush t q => Sys2Proof.Machine.execStagedWordPush t q s
  | .hqPush t q valid last tag => Sys2Proof.Machine.execHqPush t q valid last tag s
  | .qFlush t q => Sys2Proof.Machine.execQFlush t q s
  | .qWatermarkWrite t q hwm lwm => Sys2Proof.Machine.execQWatermarkWrite t q hwm lwm s
  | .imgBegin t => Sys2Proof.Machine.execImgBegin t s
  | .imageEraseDone t => Sys2Proof.Machine.execImageEraseDone t s
  | .imgOfsWrite t v => Sys2Proof.Machine.execImgOfsWrite t v s
  | .imgDataWrite t v => Sys2Proof.Machine.execImgDataWrite t v s
  | .imgCommit t => Sys2Proof.Machine.execImgCommit t s
  | .imageCheckDone t => Sys2Proof.Machine.execImageCheckDone t s
  | .imgAbort t => Sys2Proof.Machine.execImgAbort t s
  | .flDataRead t => Sys2Proof.Machine.execFlDataRead t s
  | .lcCtrlWrite t tag target svc => Sys2Proof.Machine.execLcCtrlWrite t tag target svc s
  | .selftestStepEnd t fails => Sys2Proof.Machine.execSelftestStepEnd t fails s
  | .testSequenceComplete t => Sys2Proof.Machine.execTestSequenceComplete t s
  | .repairRecordWrite t => Sys2Proof.Machine.execRepairRecordWrite t s
  | .rotationStart t => Sys2Proof.Machine.execRotationStart t s
  | .rotationCopyDone t => Sys2Proof.Machine.execRotationCopyDone t s
  | .rotationTestDone t pass step => Sys2Proof.Machine.execRotationTestDone t pass step s
  | .bistRun t tag e => Sys2Proof.Machine.execBistRun t tag e s
  | .bistRestore t tag e => Sys2Proof.Machine.execBistRestore t tag e s
  | .spiWrite t a words => Sys2Proof.Machine.execSpiWrite t a words s
  | .spiRead t a n => Sys2Proof.Machine.execSpiRead t a n s
  | .spiStatus t => Sys2Proof.Machine.execSpiStatus t s
  | .spiBadCommand t => Sys2Proof.Machine.execSpiBadCommand t s
  | .spiDeselect t incomplete => Sys2Proof.Machine.execSpiDeselect t incomplete s
  | .udpNop t c addr count flags data => Sys2Proof.Machine.execUdpNop t c addr count flags data s
  | .udpRead t c addr count flags data => Sys2Proof.Machine.execUdpRead t c addr count flags data s
  | .udpWrite t c addr count flags data => Sys2Proof.Machine.execUdpWrite t c addr count flags data s
  | .udpReadFixed t c addr count flags data => Sys2Proof.Machine.execUdpReadFixed t c addr count flags data s
  | .udpWriteFixed t c addr count flags data => Sys2Proof.Machine.execUdpWriteFixed t c addr count flags data s
  | .udpQueuePush t c addr count flags data => Sys2Proof.Machine.execUdpQueuePush t c addr count flags data s
  | .udpLogRead t c addr count flags data => Sys2Proof.Machine.execUdpLogRead t c addr count flags data s
  | .logRptrWrite t v => Sys2Proof.Machine.execLogRptrWrite t v s
  | .logRecordWrite t => Sys2Proof.Machine.execLogRecordWrite t s
  | .evtDelayExpiry t => Sys2Proof.Machine.execEvtDelayExpiry t s
  | .archivePageWrite t eraseOk programOk => Sys2Proof.Machine.execArchivePageWrite t eraseOk programOk s
  | .governorSample t temps power => Sys2Proof.Machine.execGovernorSample t temps power s
  | .thermalThrottle t => Sys2Proof.Machine.execThermalThrottle t s
  | .lifeSumStore t => Sys2Proof.Machine.execLifeSumStore t s
  | .ptClrMax t => Sys2Proof.Machine.execPtClrMax t s
  | .registerWrite t a v => Sys2Proof.Machine.execRegisterWrite t a v s
  | .vddSafeLoss t => Sys2Proof.Machine.execVddSafeLoss t s
  | .temperatureTripClear t tj => Sys2Proof.Machine.execTemperatureTripClear t tj s
  | .udpBadRequest t c datagram => Sys2Proof.Machine.execUdpBadRequest t c datagram s
  | .mirrorEntryWrite t i1 => Sys2Proof.Machine.execMirrorEntryWrite t i1 s

end Sys2Proof.Machine
end

