-- ==== Sys2Proof/Safety.lean ====
section
/-! DEFINITION. The terms of the claims: when a command can take effect, what its completion is, what it leaves alone, and what counts as a
safe state of a device without power. -/

namespace Sys2Proof.Machine

/-- The controller die runs, and instant `t` has not passed (R24, R440). -/
abbrev State.Ready (s : State) (t : Time) : Prop := s.dev.powered = true ∧ s.tsc.toNat ≤ t.toNat

/-- A host write takes effect at once: the die runs and the unit is no part of a pair (R306, R401). -/
abbrev State.HostReady (s : State) (t : Time) : Prop := s.Ready t ∧ s.get Reg.DPX_STAT.ROLE = 0

/-- The state in which a host write takes its effect: its instant has come and it is counted (R24, R403). -/
abbrev State.written (s : State) (t : Time) : State := (s.at t).countWrite 0 0

/-- Command `c`, taken in state `s`, answers a next state, of which `P` holds. -/
def Completes (c : Instr) (s : State) (P : State → Prop) : Prop := ∃ u, exec c s = .next u ∧ P u

/-- Without power torque is off: the die is in reset, channel B has no valid report, and it holds STO on every group (R10, R440). -/
def TorqueOff (s : State) : Prop := s.dev.powered = false ∧ s.chb.valid = false ∧ s.get Reg.STO_STAT.STO = 0xFFFF

/-! ### Loop-engine instructions (R117–R136) -/

/-- From `s` to `u` engine `e` has run: the set in use and the count of its cycles change, and LE_PC; the other set, every other engine and the
rest of the state do not. -/
def EngineRan (s : State) (e : Nat) (u : State) : Prop :=
  u = { s with engines := u.engines, regs := u.regs } ∧ (∀ j, j ≠ e → u.eng j = s.eng j) ∧
  u.eng e = { s.eng e with main := (u.eng e).main, ext := (u.eng e).ext, cycles := (u.eng e).cycles } ∧
  (s.eng e).cycles < (u.eng e).cycles ∧
  (if (s.eng e).onExt then (u.eng e).main = (s.eng e).main else (u.eng e).ext = (s.eng e).ext) ∧
  ∀ a, a ≠ Reg.LE_PC e → u.word a = s.word a

/-- The next instruction of a set follows in sequence: past the end of a loop's body as the loop stack gives it (R128). -/
def Follows (x y : LeSet) : Prop :=
  (y.loops, y.pc, y.rrb) = loopEnd x.pc x.loops x.rrb ∧ y.calls = x.calls ∧ y.task = x.task ∧ y.born = x.born

/-- An instruction of engine `e` completes, its successor in sequence, and `P` relates the sets in use before and after: wherever the die has power
and the next instruction lies in program memory (R136). -/
def LeCompletes (c : Instr) (s : State) (e : Nat) (P : LeSet → LeSet → Prop) : Prop :=
  s.dev.powered = true → (loopEnd (s.set' e).pc (s.set' e).loops (s.set' e).rrb).2.1 ≤ 0x3FFF →
    Completes c s fun u => EngineRan s e u ∧ Follows (s.set' e) (u.set' e) ∧ P (s.set' e) (u.set' e)

/-- Physical d register `n` becomes `v`; no other register of the set changes. -/
def WroteD (x y : LeSet) (n v : Nat) : Prop :=
  (∀ k, tget 0 y.d k = if k = x.phys n then v else tget 0 x.d k) ∧
  y.a = x.a ∧ y.p = x.p ∧ y.m = x.m ∧ y.l = x.l ∧ y.b = x.b ∧ y.lc = x.lc

/-- Accumulator `n` becomes `v`; no other register of the set changes. -/
def WroteA (x y : LeSet) (n : Nat) (v : Int) : Prop :=
  (∀ k, y.sA k = if k = n then v else x.sA k) ∧
  y.d = x.d ∧ y.p = x.p ∧ y.m = x.m ∧ y.l = x.l ∧ y.b = x.b ∧ y.lc = x.lc

/-- Pointer `n` becomes `v`; no other register of the set changes. -/
def WroteP (x y : LeSet) (n v : Nat) : Prop :=
  (∀ k, y.getP k = if k = n then v else x.getP k) ∧
  y.d = x.d ∧ y.a = x.a ∧ y.m = x.m ∧ y.l = x.l ∧ y.b = x.b ∧ y.lc = x.lc

/-- No register of the set changes. -/
def WroteNone (x y : LeSet) : Prop :=
  y.d = x.d ∧ y.a = x.a ∧ y.p = x.p ∧ y.m = x.m ∧ y.l = x.l ∧ y.b = x.b ∧ y.lc = x.lc

/-- The bits of sr listed take the values listed; every other bit of sr stays. -/
def FlagsTake (x y : LeSet) (l : List (Nat × Bool)) : Prop :=
  ∀ i, y.bit i = match l.find? fun p => p.1 == i with
    | some p => p.2
    | none => x.bit i

/-- The flags of a d-register result that saturates (R123, R124). -/
def satFlags (x : LeSet) (v : Int) : List (Nat × Bool) :=
  [(srN, decide (satS 24 v < 0)), (srZ, decide (satS 24 v = 0)), (srV, outS 24 v), (srL, x.bit srL || outS 24 v)]

/-- N and Z of a result. -/
def nzFlags (v : Int) : List (Nat × Bool) := [(srN, decide (v < 0)), (srZ, decide (v = 0))]

/-- E of an accumulator value: outside [-1, 1). -/
def eFlag (v : Int) : Bool := decide (v < -(2 ^ 47)) || decide (2 ^ 47 ≤ v)

/-- The flags of an accumulator result that saturates (R123, R124). -/
def accFlags (x : LeSet) (v : Int) : List (Nat × Bool) :=
  nzFlags (satS 56 v) ++ [(srE, eFlag (satS 56 v)), (srV, outS 56 v), (srL, x.bit srL || outS 56 v)]

/-- The value RDA takes bits [47:24] of, by step 1 of R123: `v` + 2^23, with bit 24 of the sum cleared where RM is 1 and `v` lies half way. -/
def rounded (rm : Bool) (v : Int) : Int :=
  if rm ∧ v % 2 ^ 24 = 2 ^ 23 then v + 2 ^ 23 - 2 ^ 24 * ((v + 2 ^ 23) / 2 ^ 24 % 2) else v + 2 ^ 23

/-- What steps 2 and 3 of R123 give for a value: bits [47:24], or the bound of its sign where it lies outside the range of a d register. -/
def readOut (w : Int) : Int :=
  if w < -(2 ^ 47) then -(2 ^ 23) else if (2 ^ 23 - 1) * 2 ^ 24 < w then 2 ^ 23 - 1 else w / 2 ^ 24

/-! ### Items, axes -/

/-- From `b` to `u` item `x` and no other enters the matching store, at an entry that was free (R76). -/
def Admitted (b u : State) (flow cls : Nat) (desc payload : List Nat) (slots : List (Nat × OpSlot)) : Prop :=
  ∃ e x, e < 1024 ∧ b.item? e = none ∧ u.item? e = some x ∧ x.flow = flow ∧ x.cls = cls ∧ x.desc = desc ∧ x.payload = payload ∧
    x.slots = slots ∧ x.serial = b.serial ∧ (x.stage = if x.emptySlots = 0 then .ready else .waiting) ∧
    ∀ e', e' ≠ e → u.item? e' = b.item? e'

/-- From `b` to `u` axis `a` enters a state and phase of its enable sequence (R159), at the present instant: AX_STATE of the axis changes so, and
no other register and no other axis. -/
def AxisEnters (a st ph : Nat) (b u : State) : Prop :=
  u.get (Reg.AX_STATE.STATE a) = st ∧ u.get (Reg.AX_STATE.PHASE a) = ph ∧ (u.axis a).timerAt = b.dev.cycle.toNat ∧
  (∀ x, x ≠ a → u.axis x = b.axis x) ∧ ∀ x, x ≠ Reg.AX_STATE a → u.word x = b.word x

/-- From `b` to `u` axis `a` takes a fault (R159, R162): FAULT with the cause, logged. -/
def AxisFaults (a cause : Nat) (b u : State) : Prop :=
  u.get (Reg.AX_STATE.STATE a) = axFault ∧ u.get (Reg.AX_STATE.LATCHED a) = 0 ∧ u.get (Reg.AX_FAULT.CAUSE a) = cause ∧
  (∀ x, x ≠ a → u.axis x = b.axis x) ∧ u = b.takeFault a cause

/-- From `b` to `u` one register word changes, the one at `a`, to `w`; nothing else of the state does. -/
def Writes (a w : Nat) (b u : State) : Prop :=
  u = { b with regs := u.regs } ∧ u.word a = w ∧ ∀ x, x ≠ a → u.word x = b.word x

/-- From `b` to `u` one register field changes, to `v`; the other bits of its word and everything else of the state do not. -/
def Sets (f : Fld) (v : Nat) (b u : State) : Prop := Writes f.addr (setBits (b.word f.addr) f.lo f.width v) b u

/-- From `b` to `u` the controller raises a bit that a host clears by writing 1 (R7): the bit is 1, and that it was raised now is kept; the other bits
of its word and everything else of the state do not change. -/
def Raises (f : Fld) (b u : State) : Prop :=
  u = { b with regs := u.regs, raised := u.raised } ∧ u.word f.addr = setBits (b.word f.addr) f.lo f.width 1 ∧
  ∀ x, x ≠ f.addr → u.word x = b.word x

/-! ### Stop demands (R271, R274) -/

/-- From `b` to `u` a stop demand arises: in every group of the mask for which it is not latched yet it is latched, and STO is on, or for an SS1 the group
is under STO or under an SS1. -/
def Demanded (cause : Nat) (sto : Bool) (groups who : Nat) (b u : State) : Prop :=
  u = b.demand cause sto groups who ∧
  ∀ k < 16, bitAt groups k = true → (∀ d ∈ b.chb.demands, d.cause = cause → d.sto = sto → d.who = who → bitAt d.groups k = false) →
    (∃ d ∈ u.chb.demands, d.cause = cause ∧ d.sto = sto ∧ d.who = who ∧ bitAt d.groups k = true) ∧
    (if sto then u.stoOn k = true else u.stoOn k = true ∨ (tget none u.chb.ss1 k).isSome = true)

/-! ### Frames of the archipelago (R329, R337) -/

/-- From `b` to `u` a frame that arrived on Dorlu port `p` goes on: on the other port, or on the same one where the other is in loop-back. It goes on as it
came, but for a good reference that turns back: its RETURN bit is set and its CRC made anew. -/
def Forwards (p : Nat) (f : List Nat) (clean : Bool) (b u : State) : Prop :=
  ∃ g, u = { b with fed := { b.fed with forwarded := [(if b.fed.loopPort = some (1 - p) then p else 1 - p, g)] } } ∧
    (p < 2 → b.fed.loopPort = some (1 - p) → frameOk 104 f clean = true → leAt f 0 1 = 1 →
      g = fedFrame (f.take 1 ++ [withBit (leAt f 1 1) 2 true] ++ (f.take 104).drop 2)) ∧
    (b.fed.loopPort ≠ some (1 - p) ∨ frameOk 104 f clean = false ∨ leAt f 0 1 ≠ 1 → g = f)

/-! ### Network time (R348) -/

/-- `m` is half of domain time `sum` in whole nanoseconds; where half of it is no whole number of them, by the free rounding. -/
def HalfNs (sum m : Int) : Prop := if sum % (2 * nsUnit) = 0 then sum = m * (2 * nsUnit) else m = Config.wholeNs ((sum : Rat) / (2 * nsUnit : Int))

/-! ### Queues (R360, R361) -/

/-- From `b` to `u` word `w` is pushed into queue `q`, which stands as `x`; `lost` where it does not enter. In a record that is being discarded it is lost. In
DESCRIPTOR mode a first word must be full and not the last, a second one full and the last; in EVENT mode a record ends by its fourth word: one that does
not drops the record, with a reason. Else it stands in the queue, marked with its instant, and counts in PUSHED. -/
def EntersQueue (q : Nat) (x : QueueSt) (w : QWord) (lost : Bool) (b u : State) : Prop :=
  (∀ j, j ≠ q → u.queue j = b.queue j) ∧ u.get (Reg.Q_STAT.DEPTH q) = (u.queue q).words.length ∧
  if x.discard then lost = true ∧ u.queue q = { x with discard := !w.last } ∧ u.toLog = b.toLog ∧
    u.get (Reg.Q_CNT.PUSHED q) = b.get (Reg.Q_CNT.PUSHED q) ∧ u.get (Reg.Q_ERR.RECORD_BAD q) = b.get (Reg.Q_ERR.RECORD_BAD q)
  else
    ∀ mode why, mode = b.get (Reg.Q_CFG.MODE q) →
      why = (if mode = 1 ∧ x.tail = 0 ∧ (w.valid < 32 ∨ w.last = true) then 1
        else if mode = 1 ∧ x.tail ≠ 0 ∧ (w.valid < 32 ∨ w.last = false) then 2 else if mode = 2 ∧ x.tail = 4 then 3 else 0) →
      (why ≠ 0 → lost = true ∧ u.queue q = { x with words := x.words.take (x.words.length - x.tail), tail := 0, discard := !w.last } ∧
        u.get (Reg.Q_ERR.RECORD_BAD q) = min (b.get (Reg.Q_ERR.RECORD_BAD q) + 1) 65535 ∧ u.get (Reg.Q_CNT.PUSHED q) = b.get (Reg.Q_CNT.PUSHED q) ∧
        u.toLog = (b.log (Src.queue q) Ev.QUEUE_RECORD_BAD why (x.tail + 1)).toLog) ∧
      (why = 0 → lost = false ∧ u.queue q = { x with words := x.words ++ [{ w with at' := b.now }], tail := if w.last then 0 else x.tail + 1 } ∧
        u.get (Reg.Q_CNT.PUSHED q) = (b.get (Reg.Q_CNT.PUSHED q) + 1) % 2 ^ 32 ∧ u.get (Reg.Q_ERR.RECORD_BAD q) = b.get (Reg.Q_ERR.RECORD_BAD q) ∧
        u.toLog = b.toLog)

/-! ### Reads of lower halves (R23, R25, R402) -/

/-- A read of the lower half at `a` over a transport answers with the first word of `l`, and the words that follow it are held for this transport as
they are now, to be given by its next read of each. Where the transport holds a word for `a` itself, that word is the answer, and it is held no more.
The read touches what the transports hold and nothing else. -/
def ReadsHalf (c : Instr) (s : State) (t : Time) (udp : Bool) (a : Nat) (l : List Nat) : Prop :=
  Completes c s fun u =>
    u = { s.at t with latches := u.latches, out := u.out } ∧
    (tget 0 s.latches (latchKey (b2n udp) a) = 0 → u.out = l.take 1) ∧
    (∀ w, tget 0 s.latches (latchKey (b2n udp) a) = w + 1 → u.out = [w]) ∧
    ∀ x, tget 0 u.latches x =
      if x = latchKey (b2n udp) a then 0
      else match (List.range l.length).find? fun i => i != 0 && latchKey (b2n udp) (a + 4 * i) == x with
        | some i => 1 + l.getD i 0
        | none => tget 0 s.latches x

/-- The words at `n` addresses from `a`. -/
def State.wordsFrom (s : State) (a n : Nat) : List Nat := (List.range n).map fun i => s.word (a + 4 * i)

end Sys2Proof.Machine

namespace Sys2Proof

open Machine in
/-- The instant, the register and the word of a command that is a host's write of one register (R401, each register's table); none for any other. -/
def Instr.hostWrite : Instr → Option (Time × Nat × Nat)
  | .reload t => some (t, Reg.DEV_CTRL, 4)
  | .reducedReq t => some (t, Reg.DEV_CTRL, 2)
  | .autoReq t => some (t, Reg.DEV_CTRL, 1)
  | .lineVrateWrite t k v => some (t, Reg.LINE_VRATE k.val, v.toNat)
  | .lineResume t k => some (t, Reg.LINE_CTRL k.val, 2)
  | .linePreset t k => some (t, Reg.LINE_CTRL k.val, 1)
  | .actCancel t n tag => some (t, Reg.ACT_CANCEL, 65536 * tag.toNat + n.val)
  | .islEnable t i => some (t, Reg.ISL_CTRL i.val, 1)
  | .islDisable t i => some (t, Reg.ISL_CTRL i.val, 2)
  | .islHold t i => some (t, Reg.ISL_CTRL i.val, 4)
  | .islResume t i => some (t, Reg.ISL_CTRL i.val, 8)
  | .islFlush t i => some (t, Reg.ISL_CTRL i.val, 16)
  | .islSs1 t i => some (t, Reg.ISL_CTRL i.val, 32)
  | .pgGo t a dir => some (t, Reg.PG_CTRL a.val, 1 + 4 * dir.val)
  | .pgStop t a => some (t, Reg.PG_CTRL a.val, 2)
  | .schedOpnd t e k tag => some (t, Reg.SCHED_OPND, 65536 * tag.toNat + 1024 * k.val + e.val)
  | .fabClrMax t => some (t, Reg.FAB_CTRL, 1)
  | .leRestore t e => some (t, Reg.LE_CTRL e.val, 1)
  | .leClrPeak t e => some (t, Reg.LE_CTRL e.val, 2)
  | .lawCoefDataWrite t e v => some (t, Reg.LAW_COEF_DATA e.val, v.toNat)
  | .lawSwitchForceA t e sl => some (t, Reg.LAW_SWITCH e.val, 65536 * sl.val + 1)
  | .lawSwitchForceB t e sl => some (t, Reg.LAW_SWITCH e.val, 65536 * sl.val + 2)
  | .bandWrite t e sl r v => some (t, bandAddr e.val sl.val r, v.toNat)
  | .liveWriteClear t e sl => some (t, Reg.LAW_STAT e.val sl.val, 65536)
  | .traceArm t e => some (t, Reg.TR_CTRL e.val, 1)
  | .traceStop t e => some (t, Reg.TR_CTRL e.val, 2)
  | .traceForce t e => some (t, Reg.TR_CTRL e.val, 4)
  | .traceCfgWrite t e r v => some (t, traceAddr e.val r, v.toNat)
  | .leMemDataWrite t e v => some (t, Reg.LE_MEM_DATA e.val, v.toNat)
  | .leClrCount t e => some (t, Reg.LE_PCTRL e.val, 1)
  | .axEnable t a => some (t, Reg.AX_CTRL a.val, 1)
  | .axDisable t a => some (t, Reg.AX_CTRL a.val, 2)
  | .axClear t a => some (t, Reg.AX_CTRL a.val, 4)
  | .qsWrite t a r v => some (t, qsAddr a.val r, v.toNat)
  | .fbPreset t a => some (t, Reg.FB_CTRL a.val, 1)
  | .fbClrFault t a => some (t, Reg.FB_CTRL a.val, 2)
  | .encClrFault t k => some (t, Reg.ENC_CTRL k.val, 2)
  | .cmpCtrlOpen t c => some (t, Reg.CMP_CTRL c.val, 1)
  | .cmpCtrlClose t c => some (t, Reg.CMP_CTRL c.val, 2)
  | .cmpCtrlPulse t c => some (t, Reg.CMP_CTRL c.val, 4)
  | .cmpValueWrite t c r v => some (t, cmpWriteAddr c.val r, v.toNat)
  | .emuAlign t u => some (t, Reg.EMU_CTRL u.val, 1)
  | .emuCfgWrite t u r v => some (t, emuWriteAddr u.val r, v.toNat)
  | .ringMute t k n => some (t, Reg.RING_CTRL k.val, 8 + 256 * n.val)
  | .ringUnmute t k n => some (t, Reg.RING_CTRL k.val, 4 + 256 * n.val)
  | .ringSwap t k => some (t, Reg.RING_CTRL k.val, 1)
  | .ringReclose t k => some (t, Reg.RING_CTRL k.val, 2)
  | .ringClr t k => some (t, Reg.RING_CTRL k.val, 16)
  | .svcRead t k tag node len => some (t, Reg.SVC_CMD k.val, 65536 * tag.toNat + 256 * node.val + 4 * len.val + 1)
  | .svcWrite t k tag node len => some (t, Reg.SVC_CMD k.val, 65536 * tag.toNat + 256 * node.val + 4 * len.val + 2)
  | .shoalActiveWrite t k active => some (t, Reg.SH_CFG k.val, b2n active)
  | .sepClrPeak t => some (t, Reg.SEP_CTRL, 1)
  | .nrwRel t n epoch tag => some (t, Reg.NRW_REL, 65536 * epoch.toNat + 256 * tag.toNat + n.val)
  | .dpxHandover t => some (t, Reg.DPX_CTRL, 1)
  | .dpxRejoin t => some (t, Reg.DPX_CTRL, 2)
  | .fedReclose t => some (t, Reg.FED_CTRL, 1)
  | .fedMute t n => some (t, Reg.FED_CTRL, 4 + 65536 * n.val)
  | .fedUnmute t n => some (t, Reg.FED_CTRL, 2 + 65536 * n.val)
  | .fedClr t => some (t, Reg.FED_CTRL, 8)
  | .tdAcceptStep t d => some (t, Reg.TD_CTRL d.val, 1)
  | .tdConfirmAsym t d => some (t, Reg.TD_CTRL d.val, 2)
  | .hqPush t q valid last tag => some (t, Reg.HQ_PUSH, 65536 * tag.toNat + 32768 * b2n last + 256 * valid.val + q.val)
  | .qFlush t q => some (t, Reg.Q_CTRL q.val, 1)
  | .qWatermarkWrite t q hwm lwm => some (t, Reg.Q_CFG q.val, 65536 * hwm.val + lwm.val)
  | .imgBegin t => some (t, Reg.IMG_CTRL, 1)
  | .imgOfsWrite t v => some (t, Reg.IMG_OFS, v.toNat)
  | .imgDataWrite t v => some (t, Reg.IMG_DATA, v.toNat)
  | .imgCommit t => some (t, Reg.IMG_CTRL, 2)
  | .imgAbort t => some (t, Reg.IMG_CTRL, 4)
  | .lcCtrlWrite t tag target _ => some (t, Reg.LC_CTRL, 65536 * tag.toNat + target.val)
  | .bistRun t tag e => some (t, Reg.BIST_CTRL, 65536 * tag.toNat + 256 + e.toNat)
  | .bistRestore t tag e => some (t, Reg.BIST_CTRL, 65536 * tag.toNat + 512 + e.toNat)
  | .logRptrWrite t v => some (t, Reg.LOG_RPTR, v.toNat)
  | .ptClrMax t => some (t, Reg.PT_CTRL, 1)
  | .actArm t tag none => some (t, Reg.ACT_ARM, tag.toNat)
  | _ => none

/-- A command of channel B, which has a supply and a clock of its own (R10). -/
def Instr.ofChannelB : Instr → Bool
  | .safetyInputChange .. | .inputDiscrepancy .. | .testPulse .. | .tapLost .. | .reportMissing .. | .ss1Timeout .. | .stoReadbackFault ..
  | .stoTestPulse .. | .clockDisagreement .. | .temperatureTrip .. | .temperatureTripClear .. | .vddSafeLoss .. | .channelBReady .. => true
  | _ => false

/-- PGOOD rises. -/
def Instr.risesPgood : Instr → Bool
  | .powerGood .. => true
  | _ => false

end Sys2Proof
end

