-- ==== Sys2Proof/Certificates/Slice0/Obligations.lean ====
section
/-! DEFINITION. The statements about the controller: each is a proposition that a prover settles. -/

open Sys2Proof Sys2Proof.Machine

/-! ### The block as a whole -/

/-- A step takes the command at the front of the queue and has its outcome on the state with the rest of the queue; on an empty queue the
block idles (the queue is the model's, log entry 1). -/
def Obligations.StepTakesTheFrontCommand : Prop :=
  (∀ (c : Instr) (rest : List Instr) (s : State),
    step { s with pending := c :: rest } = exec c { s with pending := rest }) ∧
  ∀ s : State, s.pending = [] → step s = .next s

/-- Every command completes in every state: none ends in a fault or a refusal. -/
def Obligations.EveryCommandCompletes : Prop := ∀ (c : Instr) (s : State), ∃ u, exec c s = .next u

/-- While PGOOD is low the controller die is in reset (R440): every command but the rise of PGOOD and the events of channel B, which has a
supply of its own (R10), leaves the whole state as it is. -/
def Obligations.NothingHappensWithoutPower : Prop :=
  ∀ (c : Instr) (s : State), s.dev.powered = false → c.ofChannelB = false → c.risesPgood = false → exec c s = .next s

/-- What every host write does beside its effect (R306, R314, R366, R403): the instant comes, SVC_WRITES counts one, SVC_LAST_IP and SVC_LAST_SRC read 0 (a word over SPI, log entry
20), and no other register and nothing else of the state changes. A unit that follows the active of its pair ignores a host command outside the duplex block. The active counts it, mirrors
it to its partner and keeps it, to be used with the partner's a servo cycle later; a host push enters its queue at once. -/
def Obligations.HostWritesAreCounted : Prop :=
  (∀ (c : Instr) (s : State) (t : Time) (a v : Nat) (m : MirrorRec), c.hostWrite = some (t, a, v) → s.Ready t → a < 0x1E0000 ∨ 0x200000 ≤ a →
    m = ⟨2, s.servoNo + 2, leBytes 4 a ++ leBytes 4 v⟩ →
    (s.get Reg.DPX_STAT.ROLE = 2 ∨ s.get Reg.DPX_STAT.ROLE = 3 → Completes c s fun u => u = s.at t) ∧
    (s.get Reg.DPX_STAT.ROLE = 1 → a < 0x240040 ∨ 0x240060 < a → Completes c s fun u =>
      u = { s.written t with mirrorOut := s.mirrorOut ++ [m], mirrorHeld := s.mirrorHeld ++ [m] }) ∧
    (s.get Reg.DPX_STAT.ROLE = 1 → 0x240040 ≤ a → a ≤ 0x240060 → Completes c s fun u => u.mirrorOut = s.mirrorOut ++ [m] ∧ u.mirrorHeld = s.mirrorHeld)) ∧
  ∀ (s : State) (t : Time), s.Ready t →
    s.written t = { s with tsc := t, regs := (s.written t).regs } ∧
    (s.written t).get Reg.SVC_WRITES.COUNT = (s.get Reg.SVC_WRITES.COUNT + 1) % 2 ^ Reg.SVC_WRITES.COUNT.width ∧
    (s.written t).word Reg.SVC_LAST_IP = 0 ∧ (s.written t).word Reg.SVC_LAST_SRC = 0 ∧
    ∀ a, a ≠ Reg.SVC_WRITES → a ≠ Reg.SVC_LAST_IP → a ≠ Reg.SVC_LAST_SRC → (s.written t).word a = s.word a

/-- What a local event record holds (R413), and which record comes next of its source: later by at least 1 ns than the source's last one (R26). The
record waits for the log ring; nothing but the queue of records, the source's last instant, and the archipelago's queue and drop counter of
exported events changes. -/
def Obligations.EventRecordsCarryTheirEvent : Prop :=
  ∀ (s : State) (src code d0 d1 : Nat), s.dev.powered = true → s.logst.dram = true →
    ∃ r : EventRec, (s.log src code d0 d1).toLog = s.toLog ++ [r] ∧
      r.source = BitVec.ofNat 12 src ∧ r.code = BitVec.ofNat 12 code ∧ r.d0 = BitVec.ofNat 32 d0 ∧ r.d1 = BitVec.ofNat 32 d1 ∧
      r.remote = false ∧ r.early = false ∧ r.precycle = !s.dev.begun ∧
      r.tsc = BitVec.ofNat 64 (max s.now (tget 0 s.lastTsc src)) ∧
      tget 0 (s.log src code d0 d1).lastTsc src = max s.now (tget 0 s.lastTsc src) + 1 ∧
      s.log src code d0 d1 = { s with
        toLog := s.toLog ++ [r], lastTsc := (s.log src code d0 d1).lastTsc
        fed := (s.log src code d0 d1).fed, regs := (s.log src code d0 d1).regs } ∧
      ∀ a, a ≠ Reg.FED_TX → (s.log src code d0 d1).word a = s.word a

/-! ### Reset, power and torque -/

/-- The state right after reset, before PGOOD has risen: STO on every group, every register at its reset word (log entry 3 names those for
which the spec gives none), the TSC, the cycle number and the queue of commands empty, no action armed, every flow and every store entry free,
every queue empty, and no byte of the fabric memory set. -/
def Obligations.ResetState : Prop :=
  TorqueOff State.reset ∧ State.reset.pending = [] ∧ State.reset.tsc = 0 ∧ State.reset.dev.cycle = 0 ∧ State.reset.dev.begun = false ∧
  (∀ a, State.reset.word a = (Regs.resetWord a).toNat) ∧ (∀ a, mget 0 State.reset.mem a = 0) ∧
  (∀ n, State.reset.act? n = none) ∧ (∀ i, State.reset.flow i = FlowSt.init) ∧ (∀ n, State.reset.item? n = none) ∧
  (∀ q, State.reset.queue q = default) ∧
  State.reset.devState = devPowerUp ∧ (∀ e < 16, State.reset.get (Reg.LE_STAT.COEF_FREE e) = 32) ∧
  State.reset.get Reg.STO_STAT.STO = 0xFFFF ∧ State.reset.get Reg.DPX_STAT.ROLE = 0

/-- A fall of PGOOD takes the torque (R10, R384, R440): from any running state the die is in reset, its device state and its fabric memory with it, and STO
stands on every group; what is non-volatile stays. The partner-link port of an ACTIVE unit sends RELINQUISH and drives remote-fault on the ring ports (R314). Commands that
complete: powerGoodLoss. -/
def Obligations.PowerLossTakesTheTorque : Prop :=
  ∀ (s : State) (t : Time), s.Ready t → Completes (.powerGoodLoss t) s fun u =>
    TorqueOff u ∧ u.devState = devPowerUp ∧ u.mem = [] ∧ u.tsc = t ∧ u.rep.run = none ∧
    u.flash = s.flash ∧ u.cartMirror = s.cartMirror ∧ u.nvm = s.nvm ∧ u.pending = s.pending ∧
    (s.role = roleActive → ∃ cause, partnerFrame 6 s.dpx.seq [roleFaulted, cause] ∈ u.dpx.sent ∧ u.dpx.silenced = true)

/-- THE HEADLINE. Without power torque stays off (R10, R440): no step but the rise of PGOOD (R387), whatever command is taken, ends the reset of the
die or releases STO of any group. -/
def Obligations.TorqueStaysOffWithoutPower : Prop :=
  ∀ (s u : State), TorqueOff s → (∀ c rest, s.pending = c :: rest → c.risesPgood = false) → step s = .next u → TorqueOff u

/-! ### Device states and the cycle timer (chapters 01, 19) -/

/-- The requests of DEV_CTRL wait for the next boundary, beside the requests that already wait (R20). SHDN_REQ_N is taken as a level (R20): in a unit that is no part of a pair DEV_STATE.SHDN_REQ shows it, and nothing else changes before the next
boundary. Commands that complete: reload, reducedReq, autoReq, shdnReqAsserted, shdnReqReleased. -/
def Obligations.HostAndPinRequestsOfTheDevice : Prop :=
  (∀ (s : State) (t : Time), s.HostReady t →
      Completes (.reload t) s (fun u => u = { s.written t with dev := { s.dev with reqReload := true } }) ∧
      Completes (.reducedReq t) s (fun u => u = { s.written t with dev := { s.dev with reqReduced := true } }) ∧
      Completes (.autoReq t) s (fun u => u = { s.written t with dev := { s.dev with reqAuto := true } })) ∧
  (∀ (s : State) (t : Time), s.HostReady t →
      Completes (.shdnReqAsserted t) s (Sets Reg.DEV_STATE.SHDN_REQ 1 (s.at t)) ∧
      Completes (.shdnReqReleased t) s (Sets Reg.DEV_STATE.SHDN_REQ 0 (s.at t)))

/-- POWER_UP and LOAD (R19, R384, R387, R378). PGOOD rises on a device without power: the die runs from TSC 0 with its DRAM stacks as trained, and shows its
life-cycle state; where channel B has not reported itself ready, POWER_UP waits for it with nothing further done and no test in progress, and its report lets the steps
go on, after SAFE_SUPPLY_ORDER. In LOAD the check of the image copies ends in BRING_UP where a copy is valid, which then is the image in force: the lines, actions, flows
and store entries are free, the cycle timer runs from now where it did not and there is no archipelago, and a pending auto-start is the image's (R459). It ends in
UNCONFIGURED where no copy is valid. Outside LOAD nothing happens. Commands that complete: powerGood, channelBReady, imageCopiesRead. -/
def Obligations.PowerUpWaitsForChannelB : Prop :=
  (∀ (s : State) (node : Fin 512) (pos : Fin 2) (svc : Bool) (flash : BitVec 16) (trained : Fin 4),
    s.dev.powered = false → s.chb.ready = false →
    Completes (.powerGood node pos svc flash trained) s fun u =>
      u.dev.powered = true ∧ u.tsc = 0 ∧ u.dev.waitB = true ∧ u.dev.trained = trained.val ∧ u.dev.timer = false ∧ u.mem = [] ∧
      u.rep.run = none ∧ u.devState = devPowerUp ∧ u.get Reg.STO_STAT.STO = 0xFFFF ∧ u.chb.valid = false ∧
      u.get Reg.LC_STATE.STATE = s.lifecycle % 8 ∧
      u.get Reg.FED_CFG.NODE = node.val ∧ u.get Reg.DPX_CFG.POS = pos.val ∧
      u.flash = s.flash ∧ u.cartMirror = s.cartMirror ∧ u.nvm = s.nvm ∧ u.pending = s.pending) ∧
  (∀ (s : State) (t : Time), s.Ready t → s.dev.waitB = true →
    Completes (.channelBReady t) s fun u =>
      u = ({ (s.at t).modB fun b => { b with ready := true } with dev := { s.dev with waitB := false } }.log Src.power
        Ev.SAFE_SUPPLY_ORDER 0 (satU 32 (t.toNat / 1000000))).powerUpSteps) ∧
  (∀ (s : State) (t : Time), s.tsc.toNat ≤ t.toNat → s.dev.waitB = false →
    Completes (.channelBReady t) s fun u => u = { s.at t with chb := { s.chb with ready := true } }) ∧
  ∀ (s : State) (t : Time) (a b : Bool), s.Ready t →
    (s.devState = devLoad → ((s.at t).readCopies a b).2 = true →
      Completes (.imageCopiesRead t a b) s fun u =>
        u.devState = devBringUp ∧ u.img = ((s.at t).readCopies a b).1.img ∧ u.dev.enteredAt = t.toNat ∧
        u.dev.timer = (s.dev.timer || !u.img.federation) ∧
        (s.dev.timer = false → u.img.federation = false → u.dev.nextCycle = t.toNat) ∧
        u.dev.autoStart = (u.img.autoStart && s.lifecycle == lcProduction) ∧
        u.lines = [] ∧ u.acts = [] ∧ u.flows = [] ∧ u.items = [] ∧ u.coefQ = [] ∧ u.flash = s.flash ∧ u.pending = s.pending) ∧
    (s.devState = devLoad → ((s.at t).readCopies a b).2 = false →
      Completes (.imageCopiesRead t a b) s fun u =>
        u.devState = devUnconfigured ∧ u.dev.enteredAt = t.toNat ∧ u.lines = [] ∧ u.acts = [] ∧ u.flows = [] ∧ u.items = [] ∧
        u.flash = s.flash ∧ u.pending = s.pending) ∧
    (s.devState ≠ devLoad → Completes (.imageCopiesRead t a b) s fun u => u = s.at t)

/-- BRING_UP and STOPPING end (R19, R20). With every ring of the image running and both channels ready the end of BRING_UP falls due, 1 s after its beginning
with rings that do not run its late end, and with every axis torque-free the end of STOPPING; each falls due for the next boundary, and otherwise nothing
happens. In the boundary's events, where no unit leads this one: BRING_UP ends in REDUCED; late, after a fault of cause 11 of the axes of the rings that do not run
and BRING_UP_INCOMPLETE. STOPPING ends in LOAD for a RELOAD, in REDUCED where SHDN_REQ_N has been released, in the shutdown self-test where the life-cycle state
has one, and with OFF_READY otherwise. Commands that complete: bringUpComplete, bringUpTimeout, stoppingComplete. -/
def Obligations.BringUpAndStoppingEnd : Prop :=
  (∀ (s : State) (t : Time), s.Ready t →
    (s.devState = devBringUp → s.pairWaits = false → s.ringsNotUp = [] → s.channelsReady = true →
      Completes (.bringUpComplete t) s fun u => u = { s.at t with dev := { s.dev with reqUp := true } }) ∧
    (s.devState ≠ devBringUp ∨ s.ringsNotUp ≠ [] ∨ s.channelsReady = false → Completes (.bringUpComplete t) s fun u => u = s.at t) ∧
    (s.devState = devBringUp → s.pairWaits = false → s.ringsNotUp ≠ [] → s.dev.enteredAt + 1000000000 ≤ t.toNat →
      Completes (.bringUpTimeout t) s fun u => u = { s.at t with dev := { s.dev with reqLate := true } }) ∧
    (s.devState ≠ devBringUp ∨ t.toNat < s.dev.enteredAt + 1000000000 → Completes (.bringUpTimeout t) s fun u => u = s.at t) ∧
    (s.devState = devStopping → s.allOff = true → s.on Reg.DEV_STATE.OFF_READY = false →
      Completes (.stoppingComplete t) s fun u => u = { s.at t with dev := { s.dev with reqStopped := true } }) ∧
    (s.devState ≠ devStopping ∨ s.allOff = false → Completes (.stoppingComplete t) s fun u => u = s.at t)) ∧
  ∀ s : State, s.get Reg.DPX_STAT.ROLE = 0 →
    (s.devState = devBringUp → s.on Reg.DEV_STATE.SHDN_REQ = false → s.dev.reqUp = true → s.ringsNotUp = [] → s.channelsReady = true →
      s.boundaryEvents.devState = devReduced ∧ s.boundaryEvents = (s.enterState devReduced).eventsOver) ∧
    (s.devState = devBringUp → s.on Reg.DEV_STATE.SHDN_REQ = false → s.dev.reqLate = true → s.ringsNotUp ≠ [] →
      s.dev.enteredAt + 1000000000 ≤ s.now → s.boundaryEvents.devState = devReduced ∧
        s.boundaryEvents = (((forEach (s.img.axisIds.filter fun a => s.ringsNotUp.contains (s.get (Reg.AX_CFG.RING a)))
          (fun s a => s.takeFault a 11) s).log Src.device Ev.BRING_UP_INCOMPLETE
            (s.ringsNotUp.foldl (fun m k => m + 2 ^ k) 0) 0).enterState devReduced).eventsOver) ∧
    (s.devState = devStopping → s.dev.reqStopped = true → s.allOff = true → s.on Reg.DEV_STATE.OFF_READY = false →
      (s.dev.stopCause = .reload → s.boundaryEvents.devState = devLoad ∧ s.boundaryEvents.dev.autoStart = false) ∧
      (s.dev.stopCause = .shdn → s.on Reg.DEV_STATE.SHDN_REQ = false → s.boundaryEvents.devState = devReduced) ∧
      (s.dev.stopCause = .shdn → s.on Reg.DEV_STATE.SHDN_REQ = true → s.lcTests = true → s.boundaryEvents.devState = devShutdownTest) ∧
      (s.dev.stopCause = .shdn → s.on Reg.DEV_STATE.SHDN_REQ = true → s.lcTests = false →
        s.boundaryEvents.devState = devStopping ∧ s.boundaryEvents.on Reg.DEV_STATE.OFF_READY = true))

/-- While the cycle timer runs (R9, R12), a ring cycle begins at the instant the timer set for it; the cycle number is 0 in the first and goes up by 1 in each that
follows; the next begins 15 625 ns later, by at most 8 ns more or less where the timer is trimmed to the federation (R334). Then every block does its
part of the cycle, and one device-state event is taken. While the timer does not run, the events are evaluated every 15 625 ns all the same. Either way the requests of the
host are discarded with it (R20). Commands that complete: ringCycleStart. -/
def Obligations.RingCyclesFollowEachOther : Prop :=
  (∀ s : State, s.dev.powered = true → s.dev.timer = true → s.now ≤ s.dev.nextCycle → s.dev.nextCycle < 2 ^ 64 →
    Completes .ringCycleStart s fun u => ∃ v : State,
      v = ((s.at (BitVec.ofNat 64 s.dev.nextCycle)).cycleEnd).timerTick ∧ u = v.cycleWork.boundaryEvents ∧
      v.now = s.dev.nextCycle ∧ v.dev.cycleTsc = s.dev.nextCycle ∧
      v.dev.cycle = (if s.dev.begun then s.dev.cycle + 1 else s.dev.cycle) ∧ v.dev.begun = true ∧
      s.dev.nextCycle + 15625 ≤ v.dev.nextCycle + 8 ∧ v.dev.nextCycle ≤ s.dev.nextCycle + 15625 + 8 ∧
      u.dev.reqReload = false ∧ u.dev.reqReduced = false ∧ u.dev.reqAuto = false) ∧
  (∀ s : State, s.dev.powered = true → s.dev.timer = false → s.now ≤ s.dev.nextCycle → s.dev.nextCycle < 2 ^ 64 →
    Completes .ringCycleStart s fun u => ∃ v : State,
      v = { s with tsc := BitVec.ofNat 64 s.dev.nextCycle, dev := { s.dev with nextCycle := s.dev.nextCycle + 15625 } } ∧ u = v.boundaryEvents ∧
      u.dev.reqReload = false ∧ u.dev.reqReduced = false ∧ u.dev.reqAuto = false) ∧
  ∀ s : State, s.dev.powered = true → s.dev.timer = false → s.get Reg.DPX_STAT.ROLE = 0 → s.devState = devUnconfigured →
    s.on Reg.DEV_STATE.SHDN_REQ = false → s.dev.reqReload = true →
    Completes .ringCycleStart s fun u => u.devState = devLoad

/-! ### Line axes, scheduled actions (chapter 02) -/

/-- The commands of a line axis. LINE_VRATE takes the word (R31). A resumption waits for the next ring-cycle start where the line's source is lost and healthy
again, and is discarded otherwise (R34); a preset waits likewise, and is ignored on a line that is Off (R35). Commands that complete: lineVrateWrite, lineResume,
linePreset. -/
def Obligations.LineCommands : Prop :=
  ∀ (s : State) (t : Time) (k : Fin 8), s.HostReady t →
    (∀ v : Word, Completes (.lineVrateWrite t k v) s (Writes (Reg.LINE_VRATE k.val) v.toNat (s.written t))) ∧
    (s.on (Reg.LINE_STAT.SRC_LOST k.val) = true → (s.written t).lineHealthy k.val = true →
      Completes (.lineResume t k) s fun u => (u.line k.val) = { s.line k.val with resumeReq := true, fault := false } ∧
        (∀ j, j ≠ k.val → u.line j = s.line j) ∧ u = { s.written t with lines := u.lines }) ∧
    (s.on (Reg.LINE_STAT.SRC_LOST k.val) = false ∨ (s.written t).lineHealthy k.val = false →
      Completes (.lineResume t k) s fun u => u = s.written t) ∧
    (s.lineSource k.val ≠ 0 → Completes (.linePreset t k) s fun u => (u.line k.val) = { s.line k.val with presetReq := true } ∧
      (∀ j, j ≠ k.val → u.line j = s.line j) ∧ u = { s.written t with lines := u.lines }) ∧
    (s.lineSource k.val = 0 → Completes (.linePreset t k) s fun u => u = s.written t)

/-- Arming and cancelling (R37, R38, R43). A sound action takes the lowest free index of the pool with the staged trigger, tolerance, line, direction, kind
and target, as armed at the instant of the write, and ACT_RESULT answers with the tag, ARMED and the index; the staging registers stand. A bad specification or a
full pool arms nothing and answers BAD_SPEC or POOL_FULL. A planning core's action needs no staging and answers nothing. A cancel frees the index of an action whose instant has not come.
Commands that complete: actArm, actCancel. -/
def Obligations.ActionsAreArmedAndCancelled : Prop :=
  ∀ (s : State) (t : Time) (tag : BitVec 16), s.HostReady t →
    (∀ n : Nat, s.badSpec (bits (s.word Reg.ACT_SPEC) 0 3) (bits (s.word Reg.ACT_SPEC) 8 10) (bits (s.word Reg.ACT_SPEC) 4 3) = false →
      n < 1024 → s.act? n = none → (∀ m < n, (s.act? m).isSome = true) →
      Completes (.actArm t tag none) s fun u =>
        u.act? n = some
          { trig := BitVec.ofNat 64 (s.word64 Reg.ACT_TRIG_LO), tol := BitVec.ofNat 32 (s.word Reg.ACT_TOL)
            line := bits (s.word Reg.ACT_SPEC) 4 3, reverse := bitAt (s.word Reg.ACT_SPEC) 7
            kind := bits (s.word Reg.ACT_SPEC) 0 3, target := bits (s.word Reg.ACT_SPEC) 8 10
            armedAt := t.toNat, stage := .fresh } ∧
        (∀ m, m ≠ n → u.act? m = s.act? m) ∧
        u.get Reg.ACT_RESULT.TAG = tag.toNat ∧ u.get Reg.ACT_RESULT.STATUS = 0 ∧ u.get Reg.ACT_RESULT.INDEX = n ∧
        u = { s.written t with acts := u.acts, regs := u.regs }) ∧
    (s.badSpec (bits (s.word Reg.ACT_SPEC) 0 3) (bits (s.word Reg.ACT_SPEC) 8 10) (bits (s.word Reg.ACT_SPEC) 4 3) = true →
      Completes (.actArm t tag none) s fun u =>
        u.get Reg.ACT_RESULT.TAG = tag.toNat ∧ u.get Reg.ACT_RESULT.STATUS = 2 ∧ u = { s.written t with regs := u.regs }) ∧
    (s.badSpec (bits (s.word Reg.ACT_SPEC) 0 3) (bits (s.word Reg.ACT_SPEC) 8 10) (bits (s.word Reg.ACT_SPEC) 4 3) = false →
      (∀ m < 1024, (s.act? m).isSome = true) →
      Completes (.actArm t tag none) s fun u =>
        u.get Reg.ACT_RESULT.TAG = tag.toNat ∧ u.get Reg.ACT_RESULT.STATUS = 1 ∧
        u = { (s.written t).log (Src.line (bits (s.word Reg.ACT_SPEC) 4 3)) Ev.ACTION_POOL_FULL 1024 0 with regs := u.regs }) ∧
    (∀ a : ActSpec, s.badSpec (bits a.spec.toNat 0 3) (bits a.spec.toNat 8 10) (bits a.spec.toNat 4 3) = true →
      Completes (.actArm t tag (some a)) s fun u => u = s.at t) ∧
    (∀ a : ActSpec, s.badSpec (bits a.spec.toNat 0 3) (bits a.spec.toNat 8 10) (bits a.spec.toNat 4 3) = false →
      (∀ m < 1024, (s.act? m).isSome = true) →
      Completes (.actArm t tag (some a)) s fun u => u = (s.at t).log (Src.line (bits a.spec.toNat 4 3)) Ev.ACTION_POOL_FULL 1024 1) ∧
    (∀ (a : ActSpec) (n : Nat), s.badSpec (bits a.spec.toNat 0 3) (bits a.spec.toNat 8 10) (bits a.spec.toNat 4 3) = false →
      n < 1024 → s.act? n = none → (∀ m < n, (s.act? m).isSome = true) →
      Completes (.actArm t tag (some a)) s fun u =>
        u.act? n = some
          { trig := a.trig, tol := a.tol, line := bits a.spec.toNat 4 3, reverse := bitAt a.spec.toNat 7
            kind := bits a.spec.toNat 0 3, target := bits a.spec.toNat 8 10, armedAt := t.toNat, stage := .fresh } ∧
        (∀ m, m ≠ n → u.act? m = s.act? m) ∧ u.word Reg.ACT_RESULT = s.word Reg.ACT_RESULT ∧
        u = { s.at t with acts := u.acts, regs := u.regs }) ∧
    (∀ (n : Fin 1024) (x : Act), s.act? n.val = some x → (∀ i, x.stage = .at i → t.toNat < i) →
      Completes (.actCancel t n tag) s fun u =>
        u.act? n.val = none ∧ (∀ m, m ≠ n.val → u.act? m = s.act? m) ∧
        u.get Reg.ACT_RESULT.TAG = tag.toNat ∧ u.get Reg.ACT_RESULT.STATUS = 3 ∧ u.get Reg.ACT_RESULT.INDEX = n.val ∧
        u = { s.written t with acts := u.acts, regs := u.regs }) ∧
    ∀ n : Fin 1024, (s.act? n.val = none ∨ ∃ x i, s.act? n.val = some x ∧ x.stage = .at i ∧ i ≤ t.toNat) →
      Completes (.actCancel t n tag) s fun u =>
        u.acts = s.acts ∧ u.get Reg.ACT_RESULT.TAG = tag.toNat ∧ u.get Reg.ACT_RESULT.STATUS = 4 ∧
        u.get Reg.ACT_RESULT.INDEX = n.val ∧ u = { s.written t with regs := u.regs }

/-- The due action that comes first, by instant, then by line axis, then by index (R42), is executed on the state the ones before it left, and its index freed (R38, R41): a GATE opens the gate of a
flow that stands GATED and whose gate no action has opened yet, and logs GATE_EMPTY otherwise; a LINE_EVENT logs its target and index; CMP_OPEN and CMP_CLOSE open and close a window, CMP_PULSE
gives a pulse, and an operand goes to the store. Where none is due nothing happens. Commands that complete: actionExecute. -/
def Obligations.DueActionsExecute : Prop :=
  (∀ (s : State) (t : Time), s.Ready t → (s.at t).dueActs = [] → Completes (.actionExecute t) s fun u => u = s.at t) ∧
  ∀ (s : State) (t : Time) (i k n : Nat) (x : Act), s.Ready t → firstDue (s.at t).dueActs = some (i, k, n) → s.act? n = some x →
    (i, k, n) ∈ (s.at t).dueActs ∧
    (∀ p ∈ (s.at t).dueActs, i < p.1 ∨ (i = p.1 ∧ (k < p.2.1 ∨ (k = p.2.1 ∧ n ≤ p.2.2)))) ∧
    Completes (.actionExecute t) s (fun u => u = ((s.at t).putAct n x.line none).runAct n x) ∧
    (x.kind = 0 → s.flowState x.target = flGated → (s.flow x.target).gateAt = none →
      Completes (.actionExecute t) s fun u => u.act? n = none ∧ (u.flow x.target) = { s.flow x.target with gateAt := some t.toNat } ∧
        (∀ j, j ≠ x.target → u.flow j = s.flow j) ∧ u = { s.at t with acts := u.acts, flows := u.flows, regs := u.regs }) ∧
    (x.kind = 0 → s.flowState x.target ≠ flGated ∨ (s.flow x.target).gateAt.isSome = true →
      Completes (.actionExecute t) s fun u => u.act? n = none ∧
        u = ((s.at t).putAct n x.line none).log (Src.line x.line) Ev.GATE_EMPTY x.target n) ∧
    (x.kind = 2 → Completes (.actionExecute t) s fun u => u.act? n = none ∧ u = ((s.at t).putAct n x.line none).cmpOpen x.target) ∧
    (x.kind = 3 → Completes (.actionExecute t) s fun u => u.act? n = none ∧ u = ((s.at t).putAct n x.line none).cmpClose x.target) ∧
    (x.kind = 1 → Completes (.actionExecute t) s fun u => u.act? n = none ∧
        u = (((s.at t).putAct n x.line none).deliverLine x.line x.target []).trigger fun d => d.trigger == 2 && d.source == x.line) ∧
    (x.kind = 4 → Completes (.actionExecute t) s fun u => u.act? n = none ∧ u = ((s.at t).putAct n x.line none).cmpPulse x.target i) ∧
    (5 ≤ x.kind → Completes (.actionExecute t) s fun u => u.act? n = none ∧
        u = ((s.at t).putAct n x.line none).log (Src.line x.line) Ev.LINE_EVENT x.target n)

/-! ### Islands and profile generators (chapter 03) -/

/-- The requests of ISL_CTRL wait for the servo boundary in the island's flow (R48, R65); SS1 reaches every flow of the subtree, and every ancestor as a path-hold
stop (R49). Commands that complete: islEnable, islDisable, islHold, islResume, islFlush, islSs1. -/
def Obligations.IslandRequestsWaitForTheBoundary : Prop :=
  ∀ (s : State) (t : Time) (i : Fin 512), s.HostReady t →
    Completes (.islEnable t i) s (fun u => u.flow i.val = { s.flow i.val with reqEnable := true } ∧
      (∀ j, j ≠ i.val → u.flow j = s.flow j) ∧ u = { s.written t with flows := u.flows }) ∧
    Completes (.islDisable t i) s (fun u => u.flow i.val = { s.flow i.val with reqDisable := true } ∧
      (∀ j, j ≠ i.val → u.flow j = s.flow j) ∧ u = { s.written t with flows := u.flows }) ∧
    Completes (.islHold t i) s (fun u => u.flow i.val = { s.flow i.val with reqHold := true } ∧
      (∀ j, j ≠ i.val → u.flow j = s.flow j) ∧ u = { s.written t with flows := u.flows }) ∧
    Completes (.islResume t i) s (fun u => u.flow i.val = { s.flow i.val with reqResume := true } ∧
      (∀ j, j ≠ i.val → u.flow j = s.flow j) ∧ u = { s.written t with flows := u.flows }) ∧
    Completes (.islFlush t i) s (fun u => u.flow i.val = { s.flow i.val with reqFlush := true } ∧
      (∀ j, j ≠ i.val → u.flow j = s.flow j) ∧ u = { s.written t with flows := u.flows }) ∧
    Completes (.islSs1 t i) s (fun u =>
      (∀ j, u.flow j = { s.flow j with
        reqSs1 := (s.flow j).reqSs1 || (s.img.subtree i.val).contains j
        reqAnc := (s.flow j).reqAnc || (s.img.ancestors i.val).contains j }) ∧ u = { s.written t with flows := u.flows })

/-- The profile generators (R67–R69). A GO on an axis that is not ENABLED or that a flow holds shows REFUSED and changes nothing else. Otherwise the target waits with the speed cap and the direction
rule for the next servo boundary: as staged where the axis has no active soft window or the window holds it, and clamped to the nearer limit, with LIMITED and SOFT_LIMIT, where it lies outside.
A STOP of a generator that drives its axis or is about to starts its stop; one of a generator at rest does nothing. Commands that complete: pgGo, pgStop. -/
def Obligations.GeneratorsGoAndStop : Prop :=
  ∀ (s : State) (t : Time) (a : Fin 256), s.HostReady t →
    (∀ dir : Fin 4, (s.written t).pgAllowed a.val = false →
      Completes (.pgGo t a dir) s (Raises (Reg.PG_STAT.REFUSED a.val) (s.written t))) ∧
    (∀ dir : Fin 4, (s.written t).pgAllowed a.val = true →
      s.on (Reg.AX_SOFT_CFG.EN a.val) = false ∨
        (s.unitsOf a.val (s.int64 (Reg.AX_SOFT_LO_LO a.val)) ≤ f64 (s.word64 (Reg.PG_TARGET_LO a.val)) ∧
          f64 (s.word64 (Reg.PG_TARGET_LO a.val)) ≤ s.unitsOf a.val (s.int64 (Reg.AX_SOFT_HI_LO a.val))) →
      Completes (.pgGo t a dir) s fun u =>
        u.pg a.val = { s.pg a.val with
          go := some (f64 (s.word64 (Reg.PG_TARGET_LO a.val)), (s.written t).pgCap a.val, dir.val), stopReq := false } ∧
        (∀ b, b ≠ a.val → u.pg b = s.pg b) ∧ u = { s.written t with pgs := u.pgs }) ∧
    (∀ dir : Fin 4, (s.written t).pgAllowed a.val = true → s.on (Reg.AX_SOFT_CFG.EN a.val) = true →
      f64 (s.word64 (Reg.PG_TARGET_LO a.val)) < s.unitsOf a.val (s.int64 (Reg.AX_SOFT_LO_LO a.val)) →
      Completes (.pgGo t a dir) s fun u =>
        (u.pg a.val).go = some (s.unitsOf a.val (s.int64 (Reg.AX_SOFT_LO_LO a.val)), (s.written t).pgCap a.val, dir.val) ∧
        (u.pg a.val).stopReq = false ∧ u.on (Reg.PG_STAT.LIMITED a.val) = true ∧ (∀ b, b ≠ a.val → u.pg b = s.pg b) ∧
        u = { ((s.written t).flag (Reg.PG_STAT.LIMITED a.val)).log (Src.axis a.val) Ev.SOFT_LIMIT 0xFFFFFFFF 2 with pgs := u.pgs }) ∧
    (∀ dir : Fin 4, (s.written t).pgAllowed a.val = true → s.on (Reg.AX_SOFT_CFG.EN a.val) = true →
      s.unitsOf a.val (s.int64 (Reg.AX_SOFT_LO_LO a.val)) ≤ s.unitsOf a.val (s.int64 (Reg.AX_SOFT_HI_LO a.val)) →
      s.unitsOf a.val (s.int64 (Reg.AX_SOFT_HI_LO a.val)) < f64 (s.word64 (Reg.PG_TARGET_LO a.val)) →
      Completes (.pgGo t a dir) s fun u =>
        (u.pg a.val).go = some (s.unitsOf a.val (s.int64 (Reg.AX_SOFT_HI_LO a.val)), (s.written t).pgCap a.val, dir.val) ∧
        (u.pg a.val).stopReq = false ∧ u.on (Reg.PG_STAT.LIMITED a.val) = true ∧ (∀ b, b ≠ a.val → u.pg b = s.pg b) ∧
        u = { ((s.written t).flag (Reg.PG_STAT.LIMITED a.val)).log (Src.axis a.val) Ev.SOFT_LIMIT 0xFFFFFFFF 2 with pgs := u.pgs }) ∧
    (s.on (Reg.PG_STAT.ACTIVE a.val) = true ∨ (s.pg a.val).go.isSome = true →
      Completes (.pgStop t a) s fun u => u.pg a.val = { s.pg a.val with stopReq := true, go := none, after := none } ∧
        (∀ b, b ≠ a.val → u.pg b = s.pg b) ∧ u = { s.written t with pgs := u.pgs }) ∧
    (s.on (Reg.PG_STAT.ACTIVE a.val) = false → (s.pg a.val).go = none →
      Completes (.pgStop t a) s fun u => u = s.written t)

/-! ### Planning cores, the scheduler, the memory fabric (chapter 04) -/

/-- Admission (R75–R77): with a free entry and fewer than 64 items of the flow in flight, a submission, a waiting trigger, and the head record of a queue of MODE 1 or 2
become an item at a free entry; which one is open (log entry 2). Where no entry is free, queues and triggers stand, and a submission waits with its program, which leaves its core, until an
admission finds room for it. Operands (R78): the head word of a queue goes to the oldest entry with an empty slot of kind 1 that names the queue, and leaves the queue; a host operand that can be placed fills its
slot, and one that cannot leaves the store as it is, with the code in SCHED_OPND_RESULT. Commands that complete: itemAdmit, operandDeliver, schedOpnd. -/
def Obligations.ItemsAreAdmittedAndFed : Prop :=
  (∀ (s : State) (t : Time), s.Ready t →
      (∀ q, s.freeEntries = [] → Completes (.itemAdmit t (.queue q)) s fun u => u = s.at t) ∧
      (∀ f, s.freeEntries = [] → Completes (.itemAdmit t (.event f)) s fun u => u = s.at t) ∧
      (s.nextSubmit = none → Completes (.itemAdmit t .waiting) s fun u => u = s.at t) ∧
      (∀ (k : Nat) (e : Option Nat) (l : List Nat), s.nextSubmit = some (k, e, l) →
        Completes (.itemAdmit t .waiting) s fun u =>
          u = ({ s.at t with submitted := s.submitted.take k ++ s.submitted.drop (k + 1) }.admitDesc l).unsuspend e) ∧
      (∀ (c : Fin 16) (b : List Byte) (x : Item), s.freeEntries = [] → b.length = 64 →
        s.item? (s.get (Reg.CORE_STAT.ENTRY c.val)) = some x → x.stage = .running c.val →
        Completes (.itemAdmit t (.submit c b)) s fun u =>
          u.item? (s.get (Reg.CORE_STAT.ENTRY c.val)) = some { x with stage := .suspended c.val, ran := x.ran + (t.toNat - x.since) } ∧
          (∀ e, e ≠ s.get (Reg.CORE_STAT.ENTRY c.val) → u.item? e = s.item? e) ∧
          u.submitted = s.submitted ++ [(some (s.get (Reg.CORE_STAT.ENTRY c.val)), natBytes b)] ∧
          u.get (Reg.CORE_STAT.STATE c.val) = 0 ∧ u = { s.at t with items := u.items, submitted := u.submitted, regs := u.regs }) ∧
      (∀ (c : Fin 16) (b : List Byte), s.freeEntries ≠ [] → b.length = 64 → s.flowRoom (parseDesc (natBytes b)).island = true →
        (∀ p ∈ s.submitted, (parseDesc p.2).island ≠ (parseDesc (natBytes b)).island) →
        Completes (.itemAdmit t (.submit c b)) s fun u =>
          Admitted s u (parseDesc (natBytes b)).island 2 (natBytes b)
            (mread 0 s.mem (parseDesc (natBytes b)).payloadAddr (parseDesc (natBytes b)).payloadLen)
            ((s.at t).islandSlots (parseDesc (natBytes b)).island (parseDesc (natBytes b))) ∧
          u.mem = s.mem ∧ u.flows = s.flows ∧ u.queues = s.queues) ∧
      (∀ (f : Fin 64) (p : ProgDecl), s.freeEntries ≠ [] → s.img.program? (512 + f.val) = some p → tget 0 s.trigs (512 + f.val) ≠ 0 →
        s.flowRoom (512 + f.val) = true →
        Completes (.itemAdmit t (.event f)) s fun u =>
          Admitted s u (512 + f.val) p.cls [] [] p.slotList ∧
          tget 0 u.trigs (512 + f.val) = tget 0 s.trigs (512 + f.val) - 1 ∧ u.mem = s.mem ∧ u.flows = s.flows ∧ u.queues = s.queues) ∧
      (∀ (q : Fin 32) (l : List QWord), s.freeEntries ≠ [] → s.get (Reg.Q_CFG.MODE q.val) = 1 → s.headRecord q.val = some l →
        s.flowRoom (parseDesc (l.flatMap fun w => w.bytes)).island = true →
        Completes (.itemAdmit t (.queue q)) s fun u =>
          u = ((s.at t).popWords q.val l.length).admitDesc (l.flatMap fun w => w.bytes)) ∧
      ∀ (q : Fin 32) (l : List QWord) (p : ProgDecl), s.freeEntries ≠ [] → s.get (Reg.Q_CFG.MODE q.val) = 2 → s.headRecord q.val = some l →
        s.img.queueFlow? q.val = some p → s.flowRoom p.flow = true →
        Completes (.itemAdmit t (.queue q)) s fun u =>
          Admitted s u p.flow p.cls [] [] p.slotList ∧ (u.queue q.val) = { s.queue q.val with taken := l.length } ∧
          (∀ j, j ≠ q.val → u.queue j = s.queue j) ∧ u.mem = s.mem ∧ u.flows = s.flows) ∧
  ((∀ (s : State) (t : Time) (q : Fin 32) (w : QWord) (e : Nat) (x : Item), s.Ready t → s.headOperand q.val = some w →
      least (fun p => p.2.serial) (s.itemList.filter fun p =>
        p.2.slots.any fun p => p.2.kind == 1 && p.2.queue == q.val && p.2.word.isNone) = some (e, x) →
      Completes (.operandDeliver t q) s fun u => ∃ k,
        (x.slots.find? fun p => p.2.kind == 1 && p.2.queue == q.val && p.2.word.isNone).map (·.1) = some k ∧
        u = (((s.at t).modQueue q.val fun y => { y with taken := y.taken - 1 }).popWords q.val 1).fillSlot e k
          ((w.valid + 64 * b2n w.last) :: w.bytes)) ∧
    ∀ (s : State) (t : Time) (e : Fin 1024) (k : Fin 4) (tag : BitVec 16), s.HostReady t →
      (∀ x : Item, s.item? e.val = some x → s.placeCode e.val k.val 5 = 0 →
        Completes (.schedOpnd t e k tag) s fun u => (∃ y, u.item? e.val = some y ∧
          y.slots = x.slots.map (fun p => if p.1 = k.val then (k.val,
            { p.2 with word := some ((List.range 8).flatMap fun i => leBytes 4 (s.word (Reg.SCHED_OPND_DATA i))) }) else p) ∧
          y.serial = x.serial ∧ y.flow = x.flow) ∧
          (∀ e', e' ≠ e.val → u.item? e' = s.item? e') ∧
          u.get Reg.SCHED_OPND_RESULT.TAG = tag.toNat ∧ u.get Reg.SCHED_OPND_RESULT.STATUS = 0 ∧
          u = { s.written t with items := u.items, regs := u.regs, serial := u.serial }) ∧
      (s.placeCode e.val k.val 5 ≠ 0 → Completes (.schedOpnd t e k tag) s fun u =>
        u.items = s.items ∧ u.get Reg.SCHED_OPND_RESULT.TAG = tag.toNat ∧
        u.get Reg.SCHED_OPND_RESULT.STATUS = s.placeCode e.val k.val 5))

/-- Dispatch (R80–R82): the first ready item starts on the core that R81 gives it, and a counter's item with its counter loaded again (R79). With no core idle it pre-empts the running item of
lower rank, which is saved and ready again. Where no item is ready, or none can be pre-empted, nothing happens. Completion and time-out (R74, R83, R84). An item that completes makes the core's
writes visible, leaves its core, counts down the counter it names, is announced to the slots that wait for it, and the completed items of its
flow go in order. An item that has run for ITEM_MAX starts afresh on another core the first time and is discarded the second time; on a core without an item, or before the time has
passed, nothing happens. Commands that complete: itemDispatch, itemComplete, itemTimeout. -/
def Obligations.ItemsRunAndEnd : Prop :=
  (∀ (s : State) (t : Time), s.Ready t →
      (firstCand (s.at t).readyCands = none → Completes (.itemDispatch t) s fun u => u = s.at t) ∧
      (∀ (cls r e c : Nat) (x : Item), firstCand (s.at t).readyCands = some (cls, r, .entry e) → (s.at t).coreFor (.entry e) = some c →
        s.item? e = some x →
        Completes (.itemDispatch t) s fun u =>
          u.item? e = some { x with stage := .running c, since := t.toNat } ∧ (∀ e', e' ≠ e → u.item? e' = s.item? e') ∧
          u.get (Reg.CORE_STAT.STATE c) = 1 ∧ u.get (Reg.CORE_STAT.CLASS c) = cls % 2 ^ (Reg.CORE_STAT.CLASS c).width ∧
          u.get (Reg.CORE_STAT.ENTRY c) = e % 2 ^ (Reg.CORE_STAT.ENTRY c).width ∧
          (x.stage = .ready → u.coreSwap = s.coreSwap) ∧
          u = { s.at t with items := u.items, flowCore := u.flowCore, regs := u.regs, coreSwap := u.coreSwap, freeCount := u.freeCount }) ∧
      (∀ (cls r k c : Nat), k < 64 → firstCand (s.at t).readyCands = some (cls, r, .counter k) → (s.at t).coreFor (.counter k) = some c →
        Completes (.itemDispatch t) s fun u =>
          (u.dc k).ready = false ∧ (u.dc k).core = some c ∧ (∀ j, j ≠ k → u.dc j = s.dc j) ∧ u.items = s.items ∧
          u.get (Reg.CORE_STAT.STATE c) = 1 ∧ u.get (Reg.DC_VAL.VALUE k) = s.get (Reg.DC_CFG.INIT k) ∧
          u.on (Reg.DC_STAT.RUNNING k) = true ∧ u = { s.at t with dcs := u.dcs, regs := u.regs }) ∧
      (∀ (cls r e c v : Nat) (x y : Item), firstCand (s.at t).readyCands = some (cls, r, .entry e) → (s.at t).coreFor (.entry e) = none →
        (List.range 16).any (s.at t).coreIdle = false → (s.at t).victim cls x.timedOut = some (v, y) → y.stage = .running c → v ≠ e →
        s.item? e = some x →
        Completes (.itemDispatch t) s fun u =>
          u.item? e = some { x with stage := .running c, since := t.toNat } ∧
          u.item? v = some { y with stage := .saved c, ran := y.ran + (t.toNat - y.since), readyAt := s.serial } ∧
          (∀ e', e' ≠ e → e' ≠ v → u.item? e' = s.item? e') ∧ u.get (Reg.CORE_STAT.STATE c) = 1 ∧
          u = { s.at t with items := u.items, serial := u.serial, flowCore := u.flowCore, regs := u.regs, coreSwap := u.coreSwap,
                            freeCount := u.freeCount }) ∧
      (∀ (cls r e : Nat), firstCand (s.at t).readyCands = some (cls, r, .entry e) → (s.at t).coreFor (.entry e) = none →
        (∀ no, (s.at t).victim cls no = none) → Completes (.itemDispatch t) s fun u => u = s.at t)) ∧
  (∀ (s : State) (t : Time) (c : Fin 16), s.Ready t →
      (∀ r, s.get (Reg.CORE_STAT.STATE c.val) ≠ 1 →
        Completes (.itemComplete t c r) s (fun u => u = s.at t) ∧ Completes (.itemTimeout t c) s fun u => u = s.at t) ∧
      (∀ (r : ItemResult) (x : Item), s.get (Reg.CORE_STAT.STATE c.val) = 1 →
        s.item? (s.get (Reg.CORE_STAT.ENTRY c.val)) = some x → x.stage = .running c.val →
        Completes (.itemComplete t c r) s fun u => ∃ v w : State,
          v = forEach r.writes (fun s w => s.fabWrite w.addr.toNat (natBytes w.data)) (s.at t) ∧
          w = (v.coreFree c.val).putItem (s.get (Reg.CORE_STAT.ENTRY c.val)) (some { x with stage := .done, plan := r.plan }) ∧
          u = (((r.counter.elim w fun k => w.dcDec k.val).announce x.flow x.serial).release x.flow 1024).syncFlow x.flow) ∧
      (∀ r : ItemResult, s.get (Reg.CORE_STAT.STATE c.val) = 1 → s.get (Reg.CORE_STAT.ENTRY c.val) = counterEntry → s.item? counterEntry = none →
        Completes (.itemComplete t c r) s fun u => ∃ v : State,
          v = (forEach r.writes (fun s w => s.fabWrite w.addr.toNat (natBytes w.data)) (s.at t)).counterEnds c.val ∧
          u = r.counter.elim v fun k => v.dcDec k.val) ∧
      (∀ x : Item, s.get (Reg.CORE_STAT.STATE c.val) = 1 → s.item? (s.get (Reg.CORE_STAT.ENTRY c.val)) = some x → x.stage = .running c.val →
        x.timedOut = none → s.get Reg.SCHED_CFG.ITEM_MAX * 10000 ≤ x.ran + (t.toNat - x.since) →
        Completes (.itemTimeout t c) s fun u =>
          u.item? (s.get (Reg.CORE_STAT.ENTRY c.val)) =
            some { x with stage := .ready, ran := 0, readyAt := s.serial, timedOut := some c.val } ∧
          (∀ e', e' ≠ s.get (Reg.CORE_STAT.ENTRY c.val) → u.item? e' = s.item? e') ∧
          u.get (Reg.CORE_STAT.STATE c.val) = 0) ∧
      (∀ x : Item, s.get (Reg.CORE_STAT.STATE c.val) = 1 → s.item? (s.get (Reg.CORE_STAT.ENTRY c.val)) = some x → x.stage = .running c.val →
        x.timedOut.isSome = true → 512 ≤ x.flow → s.get Reg.SCHED_CFG.ITEM_MAX * 10000 ≤ x.ran + (t.toNat - x.since) →
        Completes (.itemTimeout t c) s fun u =>
          u.item? (s.get (Reg.CORE_STAT.ENTRY c.val)) = none ∧ u.get (Reg.CORE_STAT.STATE c.val) = 0) ∧
      ∀ x : Item, s.get (Reg.CORE_STAT.STATE c.val) = 1 → s.item? (s.get (Reg.CORE_STAT.ENTRY c.val)) = some x → x.stage = .running c.val →
        x.ran + (t.toNat - x.since) < s.get Reg.SCHED_CFG.ITEM_MAX * 10000 → Completes (.itemTimeout t c) s fun u => u = s.at t)

/-- The memory fabric (R87–R90, R92). In a decision the requester that the round robin of the classes gives, which is raised and not isolated, owns the target; a masked high class gets no grant. A
new window unmasks the high class. A grant held for 20 µs isolates its owner's port: every grant it holds ends, and it gets none from then on. CLR_MAX clears the longest grants.
Commands that complete: fabricGrant, fabricQuotaWindow, fabricHang, fabClrMax. -/
def Obligations.FabricGrantsAndIsolates : Prop :=
  ∀ (s : State) (t : Time) (k : Fin 33), s.Ready t →
    (∀ (reqs : List (Fin 64 × Fin 257)) (w : Nat) (rest : List Nat),
      ((s.at t).rollQuota k.val).fabricOrder k.val (reqs.map fun e => e.1.val) = w :: rest →
      (((s.at t).rollQuota k.val).on (Reg.FAB_TGT_STAT.HIGH_MASKED k.val) = false ∨ highClass w = false) →
      Completes (.fabricGrant t k reqs) s fun u =>
        u.get (Reg.FAB_TGT_STAT.OWNER k.val) = w ∧ u.on (Reg.FAB_TGT_STAT.OWNED k.val) = true ∧ s.isolated w = false ∧
        (∃ e ∈ reqs, e.1.val = w) ∧ (u.tgt k.val).since = t.toNat + 1 ∧ (∀ j, j ≠ k.val → u.tgt j = s.tgt j)) ∧
    (∀ reqs : List (Fin 64 × Fin 257), (∀ e ∈ reqs, s.isolated e.1.val = true) →
      Completes (.fabricGrant t k reqs) s fun u => u.on (Reg.FAB_TGT_STAT.OWNED k.val) = false) ∧
    Completes (.fabricQuotaWindow t) s (fun u => ∀ j < 33, (u.tgt j).window = t.toNat / 1000 ∧
      ((s.tgt j).window ≠ t.toNat / 1000 → (u.tgt j).highs = 0 ∧ u.on (Reg.FAB_TGT_STAT.HIGH_MASKED j) = false) ∧
      ((s.tgt j).window = t.toNat / 1000 → u.tgt j = s.tgt j)) ∧
    (s.on (Reg.FAB_TGT_STAT.OWNED k.val) = true → (s.tgt k.val).since + 20000 ≤ t.toNat →
      Completes (.fabricHang t k) s fun u =>
        u = ((((s.at t).cutPort (s.get (Reg.FAB_TGT_STAT.OWNER k.val))).log (requesterSrc (s.get (Reg.FAB_TGT_STAT.OWNER k.val))) Ev.FABRIC_HANG
          (s.get (Reg.FAB_TGT_STAT.OWNER k.val) + 256 * k.val) (t.toNat - (s.tgt k.val).since)).isolationStops (s.get (Reg.FAB_TGT_STAT.OWNER k.val)))) ∧
    (s.on (Reg.FAB_TGT_STAT.OWNED k.val) = true → (s.tgt k.val).since + 20000 ≤ t.toNat → 52 < s.get (Reg.FAB_TGT_STAT.OWNER k.val) →
      Completes (.fabricHang t k) s fun u => u.isolated (s.get (Reg.FAB_TGT_STAT.OWNER k.val)) = true ∧
        (∀ j < 33, s.on (Reg.FAB_TGT_STAT.OWNED j) = true → s.get (Reg.FAB_TGT_STAT.OWNER j) = s.get (Reg.FAB_TGT_STAT.OWNER k.val) →
          u.on (Reg.FAB_TGT_STAT.OWNED j) = false) ∧ s.get (Reg.FAB_TGT_STAT.OWNER k.val) ∈ u.fabErr ∧ u.flows = s.flows) ∧
    (s.on (Reg.FAB_TGT_STAT.OWNED k.val) = true → t.toNat < (s.tgt k.val).since + 20000 → Completes (.fabricHang t k) s fun u => u = s.at t) ∧
    (s.get Reg.DPX_STAT.ROLE = 0 → Completes (.fabClrMax t) s fun u =>
      (∀ j < 33, u.get (Reg.FAB_TGT_STAT.MAX_HOLD j) = 0) ∧ u = { s.written t with regs := u.regs } ∧
      ∀ a, (∀ j < 33, a ≠ Reg.FAB_TGT_STAT j) → u.word a = (s.written t).word a)

/-! ### Axis control laws and tracing (chapter 05) -/

/-- The coefficient queue (R102, R103). A coefficient word, or a forced switch to bank A or B, joins the end of the queue of its engine where the slot has an axis and fewer than 32 wait; a full queue
drops it with COEF_OVF, a slot without an axis with COEF_BAD, and COEF_DROPPED is logged. The other commands of the law unit (R101, R104, R106, R116). A restore of shed extension tasks waits for the next ring cycle; CLR_PEAK clears its field, and so does a write of LIVE_WRITE, but
for what is counted at the same instant (R7); a band word waits for the servo boundary in its slot, its reserved bits 0. Commands that complete: lawCoefDataWrite, lawSwitchForceA, lawSwitchForceB,
leRestore, leClrPeak, bandWrite, liveWriteClear. -/
def Obligations.LawUnitTakesHostCommands : Prop :=
  (∀ (s : State) (t : Time) (e : Fin 16), s.HostReady t →
      (∀ v : Word, (s.coefQueue e.val).length < 32 → (s.slotAxis? e.val (s.get (Reg.LAW_COEF_SEL.SLOT e.val))).isSome = true →
        Completes (.lawCoefDataWrite t e v) s fun u =>
          u.coefQueue e.val = s.coefQueue e.val ++ [⟨none, s.get (Reg.LAW_COEF_SEL.SLOT e.val), s.get (Reg.LAW_COEF_SEL.BANK e.val),
            s.get (Reg.LAW_COEF_SEL.INDEX e.val), v.toNat % 2 ^ 28⟩] ∧
          (∀ j, j ≠ e.val → u.coefQueue j = s.coefQueue j) ∧ u = { s.written t with coefQ := u.coefQ, regs := u.regs } ∧
          ∀ a, a ≠ Reg.LE_STAT e.val → u.word a = (s.written t).word a) ∧
      (∀ (sl : Fin 32), (s.coefQueue e.val).length < 32 → (s.slotAxis? e.val sl.val).isSome = true →
        (Completes (.lawSwitchForceA t e sl) s fun u => u.coefQueue e.val = s.coefQueue e.val ++ [⟨some 0, sl.val, 0, 0, 0⟩] ∧
          (∀ j, j ≠ e.val → u.coefQueue j = s.coefQueue j) ∧ u = { s.written t with coefQ := u.coefQ, regs := u.regs } ∧
          ∀ a, a ≠ Reg.LE_STAT e.val → u.word a = (s.written t).word a) ∧
        Completes (.lawSwitchForceB t e sl) s fun u => u.coefQueue e.val = s.coefQueue e.val ++ [⟨some 1, sl.val, 0, 0, 0⟩] ∧
          (∀ j, j ≠ e.val → u.coefQueue j = s.coefQueue j) ∧ u = { s.written t with coefQ := u.coefQ, regs := u.regs } ∧
          ∀ a, a ≠ Reg.LE_STAT e.val → u.word a = (s.written t).word a) ∧
      (∀ v : Word, 32 ≤ (s.coefQueue e.val).length → Completes (.lawCoefDataWrite t e v) s fun u =>
        u = ((s.written t).flag (Reg.LE_STAT.COEF_OVF e.val)).log (s.engineSrc e.val) Ev.COEF_DROPPED (s.word (Reg.LAW_COEF_SEL e.val)) 1) ∧
      (∀ v : Word, (s.coefQueue e.val).length < 32 → s.slotAxis? e.val (s.get (Reg.LAW_COEF_SEL.SLOT e.val)) = none →
        Completes (.lawCoefDataWrite t e v) s fun u =>
          u = ((s.written t).flag (Reg.LE_STAT.COEF_BAD e.val)).log (s.engineSrc e.val) Ev.COEF_DROPPED (s.word (Reg.LAW_COEF_SEL e.val)) 2) ∧
      (∀ sl : Fin 32, 32 ≤ (s.coefQueue e.val).length →
        (Completes (.lawSwitchForceA t e sl) s fun u =>
          u = ((s.written t).flag (Reg.LE_STAT.COEF_OVF e.val)).log (s.engineSrc e.val) Ev.COEF_DROPPED (65536 * sl.val + 1) 1) ∧
        Completes (.lawSwitchForceB t e sl) s fun u =>
          u = ((s.written t).flag (Reg.LE_STAT.COEF_OVF e.val)).log (s.engineSrc e.val) Ev.COEF_DROPPED (65536 * sl.val + 2) 1) ∧
      (∀ sl : Fin 32, (s.coefQueue e.val).length < 32 → s.slotAxis? e.val sl.val = none →
        (Completes (.lawSwitchForceA t e sl) s fun u =>
          u = ((s.written t).flag (Reg.LE_STAT.COEF_BAD e.val)).log (s.engineSrc e.val) Ev.COEF_DROPPED (65536 * sl.val + 1) 2) ∧
        Completes (.lawSwitchForceB t e sl) s fun u =>
          u = ((s.written t).flag (Reg.LE_STAT.COEF_BAD e.val)).log (s.engineSrc e.val) Ev.COEF_DROPPED (65536 * sl.val + 2) 2)) ∧
  (∀ (s : State) (t : Time) (e : Fin 16), s.HostReady t →
      (s.on (Reg.LE_STAT.SHED e.val) = true → Completes (.leRestore t e) s fun u => u.eng e.val = { s.eng e.val with reqRestore := true } ∧
        (∀ j, j ≠ e.val → u.eng j = s.eng j) ∧ u = { s.written t with engines := u.engines }) ∧
      (s.on (Reg.LE_STAT.SHED e.val) = false → Completes (.leRestore t e) s fun u => u = s.written t) ∧
      Completes (.leClrPeak t e) s (Sets (Reg.LE_LOAD.PEAK e.val) 0 (s.written t)) ∧
      (∀ (sl : Fin 24) (r : Fin 3) (v : Word), Completes (.bandWrite t e sl r v) s fun u =>
        u.slot e.val sl.val = { s.slot e.val sl.val with bandWrites := (s.slot e.val sl.val).bandWrites ++
          [([Reg.BAND_OUTER e.val sl.val, Reg.BAND_INNER e.val sl.val, Reg.BAND_CFG e.val sl.val].getD r.val 0,
            if r.val = 2 then Nat.land v.toNat 0xFFFFFF01 else v.toNat)] } ∧ u = { s.written t with slots := u.slots }) ∧
      ∀ sl : Fin 24, Completes (.liveWriteClear t e sl) s fun u =>
        u.get (Reg.LAW_STAT.LIVE_WRITE e.val sl.val) = min 1 ((s.at t).kept (Reg.LAW_STAT.LIVE_WRITE e.val sl.val)) ∧
        u.get (Reg.LAW_STAT.LIVE_WRITES e.val sl.val) = satU (Reg.LAW_STAT.LIVE_WRITES e.val sl.val).width ((s.at t).kept (Reg.LAW_STAT.LIVE_WRITES e.val sl.val)) ∧
        (tget (0, 0) s.raised (Reg.LAW_STAT.LIVE_WRITE e.val sl.val).place = (0, 0) → u.get (Reg.LAW_STAT.LIVE_WRITE e.val sl.val) = 0) ∧
        (tget (0, 0) s.raised (Reg.LAW_STAT.LIVE_WRITES e.val sl.val).place = (0, 0) → u.get (Reg.LAW_STAT.LIVE_WRITES e.val sl.val) = 0) ∧
        u.get (Reg.LAW_STAT.BANK e.val sl.val) = s.get (Reg.LAW_STAT.BANK e.val sl.val) ∧
        u = { s.written t with regs := u.regs } ∧ ∀ a, a ≠ Reg.LAW_STAT e.val sl.val → u.word a = (s.written t).word a)

/-- The tasks of a loop engine (R105, R126): the next ready main task starts on set 0 at its entry for its ring cycle, in 8 cycles or 10 with a switch of sets, before every extension task; of the
other state it touches only what the reference laws of its slots compute. An extension task starts on set 1 where no main task is ready or
runs and none is shed. The downlink of an axis slot (R105–R107, R144–R146). At its deadline the drive block carries the committed downlink, which is spent, and the count of misses ends; without one the block repeats the last duties
as held, and the miss is counted. A slot without an axis, or whose deadline does not pass now, sends nothing. Commands that complete: lawTaskStart, extTaskStart, downlinkDeadline. -/
def Obligations.LawTasksStartAndDownlinksAreSent : Prop :=
  (∀ (s : State) (t : Time) (e : Fin 16), s.Ready t →
      (∀ k n : Nat, (s.eng e.val).main.task = none → (s.at t).nextMain e.val = some (k, n) →
        Completes (.lawTaskStart t e) s fun u =>
          (u.eng e.val).main.task = some k ∧ (u.eng e.val).main.born = n ∧ (u.eng e.val).onExt = false ∧ (u.eng e.val).ext = (s.eng e.val).ext ∧
          (u.eng e.val).main.pc = s.get (Reg.TASK_ENTRY.ADDR e.val k) ∧
          (u.eng e.val).cycles = (s.eng e.val).cycles + (if (s.eng e.val).onExt then 10 else 8) ∧ (∀ j, j ≠ e.val → u.eng j = s.eng j) ∧
          u = { s.at t with engines := u.engines, regs := u.regs, slots := u.slots, lemem := u.lemem } ∧
          ((∀ sl ∈ onesBelow 24 (s.get (Reg.TASK_SLOTS.SLOTS e.val k)), s.slotAxis? e.val sl = none ∨
              s.refLaws.contains (s.get (Reg.LAW_AXIS.LAW e.val sl)) = false) →
            u = { s.at t with engines := u.engines, regs := u.regs })) ∧
      ((s.eng e.val).main.task.isSome = true ∨ (s.at t).nextMain e.val = none → Completes (.lawTaskStart t e) s fun u => u = s.at t) ∧
      (∀ (k : Nat) (rest : List Nat), (s.eng e.val).extReady = k :: rest → (s.eng e.val).main.task = none → (s.at t).nextMain e.val = none →
        (s.eng e.val).ext.task = none → (s.eng e.val).shed = false →
        Completes (.extTaskStart t e) s fun u =>
          (u.eng e.val).ext.task = some k ∧ (u.eng e.val).onExt = true ∧ (u.eng e.val).extReady = rest ∧ (u.eng e.val).main = (s.eng e.val).main ∧
          (u.eng e.val).ext.pc = s.get (Reg.TASK_ENTRY.ADDR e.val k) ∧ (∀ j, j ≠ e.val → u.eng j = s.eng j) ∧
          u = { s.at t with engines := u.engines, regs := u.regs }) ∧
      ((s.eng e.val).shed = true ∨ (s.eng e.val).extReady = [] ∨ (s.eng e.val).main.task.isSome = true →
        Completes (.extTaskStart t e) s fun u => u = s.at t)) ∧
  (∀ (s : State) (t : Time) (e : Fin 16) (sl : Fin 24), s.Ready t →
      (s.slotAxis? e.val sl.val = none → Completes (.downlinkDeadline t e sl) s fun u => u = s.at t) ∧
      (∀ a : Nat, s.slotAxis? e.val sl.val = some a → s.dev.begun = false ∨ s.get (Reg.LE_CFG.RING e.val) ≠ s.ringOf a ∨ t.toNat < s.deadlineAt a ∨
          s.lawDue a ≤ (s.slot e.val sl.val).due → Completes (.downlinkDeadline t e sl) s fun u => u = s.at t) ∧
      (∀ (a : Nat) (d : Nat × Nat × Nat), s.slotAxis? e.val sl.val = some a → (s.at t).deadlineNow e.val sl.val a = true →
        (s.slot e.val sl.val).sent = some d → s.get (Reg.AX_CFG.KIND a) ≠ 1 →
        Completes (.downlinkDeadline t e sl) s fun u =>
          (u.slot e.val sl.val).sent = none ∧ (u.slot e.val sl.val).due = s.lawDue a ∧ (u.axis a).block = s.driveBlock a d false ∧
          (u.axis a).blockPrev = (s.axis a).block ∧ u.get (Reg.LAW_STAT.CONSEC e.val sl.val) = 0 ∧
          (∀ b, b ≠ a → u.axis b = s.axis b) ∧ u.flows = s.flows ∧ u.toLog = s.toLog) ∧
      (∀ (a : Nat) (d : Nat × Nat × Nat), s.slotAxis? e.val sl.val = some a → (s.at t).deadlineNow e.val sl.val a = true →
        (s.slot e.val sl.val).sent = some d → s.get (Reg.AX_CFG.KIND a) = 1 → (sx 24 d.2.2).natAbs ≤ 0x400000 →
        Completes (.downlinkDeadline t e sl) s fun u =>
          (u.slot e.val sl.val).sent = none ∧ (u.slot e.val sl.val).due = s.lawDue a ∧ (u.axis a).block = s.driveBlock a d false ∧
          u.get (Reg.LAW_STAT.CONSEC e.val sl.val) = 0 ∧ u.get (Reg.STEP_STAT.LOAD_ANGLE a) = bits d.2.2 8 16 ∧ (u.axis a).stallRun = 0 ∧
          (∀ b, b ≠ a → u.axis b = s.axis b) ∧ u.flows = s.flows ∧ u.toLog = s.toLog) ∧
      ∀ a : Nat, s.slotAxis? e.val sl.val = some a → (s.at t).deadlineNow e.val sl.val a = true → (s.slot e.val sl.val).sent = none →
        s.get (Reg.LAW_STAT.CONSEC e.val sl.val) = 0 →
        Completes (.downlinkDeadline t e sl) s fun u =>
          (u.slot e.val sl.val).sent = none ∧ (u.slot e.val sl.val).due = s.lawDue a ∧
          (u.axis a).block = s.driveBlock a (0, 0, 0) true ∧ u.get (Reg.LAW_STAT.CONSEC e.val sl.val) = 1 ∧
          u.on (Reg.LE_STAT.SHED e.val) = true ∧ (∀ b, b ≠ a → u.axis b = s.axis b) ∧ u.flows = s.flows)

/-- Tracing (R112, R113). ARM clears the buffer and captures from index 0; STOP ends in IDLE; FORCE triggers at the next record. A configuration word is refused where the length does not
fit, applies at once in IDLE and DONE, and waits otherwise. Commands that complete: traceArm, traceStop, traceForce, traceCfgWrite. -/
def Obligations.TraceCommands : Prop :=
  ∀ (s : State) (t : Time) (e : Fin 16), s.HostReady t →
    ((s.trace e.val).pending = [] → Completes (.traceArm t e) s fun u =>
      u.get (Reg.TR_STAT.STATE e.val) = trArmed ∧ u.get (Reg.TR_STAT.WRAPPED e.val) = 0 ∧ u.get (Reg.TR_PTR.WPTR e.val) = 0 ∧
      u.get (Reg.TR_PTR.TRIG_PTR e.val) = 0 ∧ (∀ k, k / 16384 = e.val → tget 0 u.trmem k = 0) ∧
      (∀ k, k / 16384 ≠ e.val → tget 0 u.trmem k = tget 0 s.trmem k) ∧ (∀ j, j ≠ e.val → u.trace j = s.trace j) ∧
      u = { s.written t with regs := u.regs, trmem := u.trmem, traces := u.traces }) ∧
    ((s.trace e.val).pending = [] → Completes (.traceStop t e) s fun u =>
      u.get (Reg.TR_STAT.STATE e.val) = trIdle ∧ u.trmem = s.trmem ∧ u = { s.written t with regs := u.regs, traces := u.traces } ∧
      ∀ a, a ≠ Reg.TR_STAT e.val → u.word a = (s.written t).word a) ∧
    Completes (.traceForce t e) s (fun u => u.trace e.val = { s.trace e.val with force := true } ∧
      (∀ j, j ≠ e.val → u.trace j = s.trace j) ∧ u = { s.written t with traces := u.traces }) ∧
    (∀ v : Word, traceBad v.toNat = true → Completes (.traceCfgWrite t e 0 v) s (Raises (Reg.TR_STAT.CFG_REFUSED e.val) (s.written t))) ∧
    (∀ (r : Fin 9) (v : Word), (r.val = 0 → traceBad v.toNat = false) →
      s.get (Reg.TR_STAT.STATE e.val) = trIdle ∨ s.get (Reg.TR_STAT.STATE e.val) = trDone →
      Completes (.traceCfgWrite t e r v) s fun u => u.word (traceAddr e.val r) = s.mergeRw (traceAddr e.val r) v.toNat ∧
        u = { s.written t with regs := u.regs } ∧ ∀ a, a ≠ traceAddr e.val r → u.word a = (s.written t).word a) ∧
    ∀ (r : Fin 9) (v : Word), (r.val = 0 → traceBad v.toNat = false) →
      s.get (Reg.TR_STAT.STATE e.val) ≠ trIdle → s.get (Reg.TR_STAT.STATE e.val) ≠ trDone →
      Completes (.traceCfgWrite t e r v) s fun u =>
        (traceAddr e.val r, s.mergeRw (traceAddr e.val r) v.toNat) ∈ (u.trace e.val).pending ∧
        u.on (Reg.TR_STAT.LENGTH_PENDING e.val) = true ∧ u.word (traceAddr e.val r) = s.word (traceAddr e.val r)

/-! ### Loop-engine instructions (chapter 06) -/

/-- Arithmetic on d registers (R123, R131): the result saturated to 24 bits, N and Z from it, V where it saturates, L set then; every other register and bit of sr stays.
Commands that complete: leAdd, leSub, leNeg, leAbs, leAsl, leMin, leMax, leClmp. -/
def Obligations.RegisterArithmetic : Prop :=
  ∀ (s : State) (e : Fin 16) (a b c : Fin 32),
    LeCompletes (.leAdd e a b c) s e.val (fun x y => WroteD x y a.val (ux 24 (satS 24 (x.sD b.val + x.sD c.val))) ∧
      FlagsTake x y (satFlags x (x.sD b.val + x.sD c.val))) ∧
    LeCompletes (.leSub e a b c) s e.val (fun x y => WroteD x y a.val (ux 24 (satS 24 (x.sD b.val - x.sD c.val))) ∧
      FlagsTake x y (satFlags x (x.sD b.val - x.sD c.val))) ∧
    LeCompletes (.leNeg e a b) s e.val (fun x y => WroteD x y a.val (ux 24 (satS 24 (-x.sD b.val))) ∧
      FlagsTake x y (satFlags x (-x.sD b.val))) ∧
    LeCompletes (.leAbs e a b) s e.val (fun x y => WroteD x y a.val (ux 24 (satS 24 (x.sD b.val).natAbs)) ∧
      FlagsTake x y (satFlags x (x.sD b.val).natAbs)) ∧
    (∀ k : Fin 32, LeCompletes (.leAsl e a b k) s e.val fun x y => WroteD x y a.val (ux 24 (satS 24 (x.sD b.val * 2 ^ k.val))) ∧
      FlagsTake x y (satFlags x (x.sD b.val * 2 ^ k.val))) ∧
    LeCompletes (.leMin e a b c) s e.val (fun x y => WroteD x y a.val (ux 24 (min (x.sD b.val) (x.sD c.val))) ∧
      FlagsTake x y (nzFlags (min (x.sD b.val) (x.sD c.val)))) ∧
    LeCompletes (.leMax e a b c) s e.val (fun x y => WroteD x y a.val (ux 24 (max (x.sD b.val) (x.sD c.val))) ∧
      FlagsTake x y (nzFlags (max (x.sD b.val) (x.sD c.val)))) ∧
    LeCompletes (.leClmp e a b c) s e.val (fun x y => ∃ m : Int, m = min ((x.sD c.val).natAbs : Int) 0x7FFFFF ∧
      WroteD x y a.val (ux 24 (min (max (x.sD b.val) (-m)) m)) ∧ FlagsTake x y (nzFlags (min (max (x.sD b.val) (-m)) m)))

/-- Logic, shifts, moves and comparison of d registers (R131, R134): bit by bit; the right shifts; the moves set no flag; CMP sets N, Z and V from the exact difference and writes no
register; NOP does nothing. Commands that complete: leNop, leAnd, leOr, leXor, leNot, leAsr, leLsr, leMovd, leSel, leCmp. -/
def Obligations.RegisterLogicShiftsAndMoves : Prop :=
  ∀ (s : State) (e : Fin 16) (a b c k : Fin 32) (cc : Fin 16),
    LeCompletes (.leNop e) s e.val (fun x y => WroteNone x y ∧ FlagsTake x y []) ∧
    LeCompletes (.leAnd e a b c) s e.val (fun x y => ∃ v < 2 ^ 24, WroteD x y a.val v ∧ FlagsTake x y (nzFlags (sx 24 v)) ∧
      ∀ i < 24, v.testBit i = ((x.getD b.val).testBit i && (x.getD c.val).testBit i)) ∧
    LeCompletes (.leOr e a b c) s e.val (fun x y => ∃ v < 2 ^ 24, WroteD x y a.val v ∧ FlagsTake x y (nzFlags (sx 24 v)) ∧
      ∀ i < 24, v.testBit i = ((x.getD b.val).testBit i || (x.getD c.val).testBit i)) ∧
    LeCompletes (.leXor e a b c) s e.val (fun x y => ∃ v < 2 ^ 24, WroteD x y a.val v ∧ FlagsTake x y (nzFlags (sx 24 v)) ∧
      ∀ i < 24, v.testBit i = ((x.getD b.val).testBit i != (x.getD c.val).testBit i)) ∧
    LeCompletes (.leNot e a b) s e.val (fun x y => ∃ v < 2 ^ 24, WroteD x y a.val v ∧ FlagsTake x y (nzFlags (sx 24 v)) ∧
      ∀ i < 24, v.testBit i = !(x.getD b.val).testBit i) ∧
    LeCompletes (.leAsr e a b k) s e.val (fun x y => WroteD x y a.val (ux 24 (x.sD b.val / 2 ^ k.val)) ∧
      FlagsTake x y (nzFlags (x.sD b.val / 2 ^ k.val))) ∧
    LeCompletes (.leLsr e a b k) s e.val (fun x y => WroteD x y a.val (x.getD b.val / 2 ^ k.val % 2 ^ 24) ∧
      FlagsTake x y (nzFlags (sx 24 (x.getD b.val / 2 ^ k.val)))) ∧
    LeCompletes (.leMovd e a b) s e.val (fun x y => WroteD x y a.val (x.getD b.val % 2 ^ 24) ∧ FlagsTake x y []) ∧
    LeCompletes (.leSel e a b c cc) s e.val (fun x y =>
      WroteD x y a.val ((if x.cond s.servo cc.val then x.getD b.val else x.getD c.val) % 2 ^ 24) ∧ FlagsTake x y []) ∧
    LeCompletes (.leCmp e b c) s e.val (fun x y => WroteNone x y ∧
      FlagsTake x y (nzFlags (x.sD b.val - x.sD c.val) ++ [(srV, outS 24 (x.sD b.val - x.sD c.val))]))

/-- Accumulator arithmetic (R123, R131): the result saturated to 56 bits, N, Z and E from it, V where it saturates, L set then; CMPA sets its flags from the exact difference and writes
nothing. Commands that complete: leAdda, leSuba, leNega, leAbsa, leAddad, leSha, leShav, leMpya, leMaca, leMsua, leClra, leMva, leLda, leCmpa. -/
def Obligations.AccumulatorArithmetic : Prop :=
  ∀ (s : State) (e : Fin 16) (a b c : Fin 8) (d d' : Fin 32),
    LeCompletes (.leAdda e a b c) s e.val (fun x y => WroteA x y a.val (satS 56 (x.sA b.val + x.sA c.val)) ∧
      FlagsTake x y (accFlags x (x.sA b.val + x.sA c.val))) ∧
    LeCompletes (.leSuba e a b c) s e.val (fun x y => WroteA x y a.val (satS 56 (x.sA b.val - x.sA c.val)) ∧
      FlagsTake x y (accFlags x (x.sA b.val - x.sA c.val))) ∧
    LeCompletes (.leNega e a b) s e.val (fun x y => WroteA x y a.val (satS 56 (-x.sA b.val)) ∧ FlagsTake x y (accFlags x (-x.sA b.val))) ∧
    LeCompletes (.leAbsa e a b) s e.val (fun x y => WroteA x y a.val (satS 56 (x.sA b.val).natAbs) ∧
      FlagsTake x y (accFlags x (x.sA b.val).natAbs)) ∧
    LeCompletes (.leAddad e a b d) s e.val (fun x y => WroteA x y a.val (satS 56 (x.sA b.val + x.sD d.val * 2 ^ 24)) ∧
      FlagsTake x y (accFlags x (x.sA b.val + x.sD d.val * 2 ^ 24))) ∧
    (∀ k : BitVec 9, LeCompletes (.leSha e a b k) s e.val fun x y =>
      (0 ≤ k.toInt → WroteA x y a.val (satS 56 (x.sA b.val * 2 ^ k.toInt.toNat)) ∧ FlagsTake x y (accFlags x (x.sA b.val * 2 ^ k.toInt.toNat))) ∧
      (k.toInt < 0 → WroteA x y a.val (x.sA b.val / 2 ^ (-k.toInt).toNat) ∧ FlagsTake x y (accFlags x (x.sA b.val / 2 ^ (-k.toInt).toNat)))) ∧
    LeCompletes (.leShav e a b d) s e.val (fun x y =>
      (0 ≤ sx 7 (x.getD d.val) → WroteA x y a.val (satS 56 (x.sA b.val * 2 ^ (sx 7 (x.getD d.val)).toNat)) ∧
        FlagsTake x y (accFlags x (x.sA b.val * 2 ^ (sx 7 (x.getD d.val)).toNat))) ∧
      (sx 7 (x.getD d.val) < 0 → WroteA x y a.val (x.sA b.val / 2 ^ (-sx 7 (x.getD d.val)).toNat) ∧
        FlagsTake x y (accFlags x (x.sA b.val / 2 ^ (-sx 7 (x.getD d.val)).toNat)))) ∧
    LeCompletes (.leMpya e a d d') s e.val (fun x y => WroteA x y a.val (satS 56 (x.sD d.val * x.sD d'.val * 2)) ∧
      FlagsTake x y (accFlags x (x.sD d.val * x.sD d'.val * 2))) ∧
    LeCompletes (.leMaca e a d d') s e.val (fun x y => WroteA x y a.val (satS 56 (x.sA a.val + x.sD d.val * x.sD d'.val * 2)) ∧
      FlagsTake x y (accFlags x (x.sA a.val + x.sD d.val * x.sD d'.val * 2))) ∧
    LeCompletes (.leMsua e a d d') s e.val (fun x y => WroteA x y a.val (satS 56 (x.sA a.val - x.sD d.val * x.sD d'.val * 2)) ∧
      FlagsTake x y (accFlags x (x.sA a.val - x.sD d.val * x.sD d'.val * 2))) ∧
    LeCompletes (.leClra e a) s e.val (fun x y => WroteA x y a.val 0 ∧ FlagsTake x y [(srN, false), (srZ, true), (srE, false)]) ∧
    LeCompletes (.leMva e a b) s e.val (fun x y => WroteA x y a.val (x.sA b.val) ∧
      FlagsTake x y (nzFlags (x.sA b.val) ++ [(srE, eFlag (x.sA b.val))])) ∧
    LeCompletes (.leLda e a d) s e.val (fun x y => WroteA x y a.val (x.sD d.val * 2 ^ 24) ∧
      FlagsTake x y (nzFlags (x.sD d.val * 2 ^ 24) ++ [(srE, false)])) ∧
    LeCompletes (.leCmpa e b c) s e.val (fun x y => WroteNone x y ∧ FlagsTake x y (nzFlags (x.sA b.val - x.sA c.val) ++
      [(srE, eFlag (x.sA b.val - x.sA c.val)), (srV, outS 56 (x.sA b.val - x.sA c.val))]))

/-- Reading an accumulator into a d register (R123), and normalisation (R124): RDA rounds, RDT truncates, both saturate and set L then; EXPA and EXPD give the count of left shifts that bring the value into
[0.5, 1) or [−1, −0.5), and 47 or 23 for 0. Commands that complete: leRda, leRdt, leExpa, leExpd. -/
def Obligations.AccumulatorsAreReadAndNormalised : Prop :=
  ∀ (s : State) (e : Fin 16) (a d : Fin 32) (b : Fin 8),
    LeCompletes (.leRda e a b) s e.val (fun x y => ∃ w, w = rounded (x.bit srRM) (x.sA b.val) ∧
      WroteD x y a.val (ux 24 (readOut w)) ∧ FlagsTake x y (nzFlags (readOut w) ++
        [(srL, x.bit srL || decide (w < -(2 ^ 47)) || decide ((2 ^ 23 - 1) * 2 ^ 24 < w))])) ∧
    LeCompletes (.leRdt e a b) s e.val (fun x y =>
      WroteD x y a.val (ux 24 (readOut (x.sA b.val))) ∧ FlagsTake x y (nzFlags (readOut (x.sA b.val)) ++
        [(srL, x.bit srL || decide (x.sA b.val < -(2 ^ 47)) || decide ((2 ^ 23 - 1) * 2 ^ 24 < x.sA b.val))])) ∧
    LeCompletes (.leExpa e a b) s e.val (fun x y => ∃ n : Int, WroteD x y a.val (ux 24 n) ∧ FlagsTake x y [(srZ, decide (n = 0))] ∧
      (x.sA b.val = 0 → n = 47) ∧ (0 < x.sA b.val → -8 ≤ n ∧ 2 ^ 54 ≤ x.sA b.val * 2 ^ (n + 8).toNat ∧ x.sA b.val * 2 ^ (n + 8).toNat < 2 ^ 55) ∧
      (x.sA b.val < 0 → -8 ≤ n ∧ -(2 ^ 55) ≤ x.sA b.val * 2 ^ (n + 8).toNat ∧ x.sA b.val * 2 ^ (n + 8).toNat < -(2 ^ 54))) ∧
    LeCompletes (.leExpd e a d) s e.val (fun x y => ∃ n : Nat, WroteD x y a.val n ∧ FlagsTake x y [(srZ, decide (n = 0))] ∧
      (x.sD d.val = 0 → n = 23) ∧ (0 < x.sD d.val → 2 ^ 22 ≤ x.sD d.val * 2 ^ n ∧ x.sD d.val * 2 ^ n < 2 ^ 23) ∧
      (x.sD d.val < 0 → -(2 ^ 23) ≤ x.sD d.val * 2 ^ n ∧ x.sD d.val * 2 ^ n < -(2 ^ 22)))

/-- The functions (R131). SCS writes an even register and the one after it, whose values stay open within the error of R131 (log entry 2) and are saturated; an odd one is fault 1. RSQ keeps its error bound above 0.25 and gives the bound
with L at or below; RCP gives the bound of the sign with L for |dB| ≤ 0.5, and otherwise the quotient, exact where it is a whole number and one of its two neighbours where it is not. Commands that complete: leScs, leRsq, leRcp. -/
def Obligations.FunctionsKeepTheirBounds : Prop :=
  ∀ (s : State) (e : Fin 16) (a b : Fin 32) (c : Fin 8),
    (a.val % 2 = 0 → LeCompletes (.leScs e a b) s e.val fun x y =>
      (∃ v w : Nat, v < 2 ^ 24 ∧ w < 2 ^ 24 ∧ tget 0 y.d (x.phys a.val) = v ∧ tget 0 y.d (x.phys (a.val + 1)) = w ∧
        rabs ((sx 24 v : Rat) / 8388608 - sinTurn (x.getD b.val)) ≤ 1 / 4194304 ∧
        rabs ((sx 24 w : Rat) / 8388608 - sinTurn (x.getD b.val + 2 ^ 22)) ≤ 1 / 4194304) ∧
      (∀ k, k ≠ x.phys a.val → k ≠ x.phys (a.val + 1) → tget 0 y.d k = tget 0 x.d k) ∧ y.a = x.a ∧ y.p = x.p ∧ FlagsTake x y []) ∧
    (a.val % 2 = 1 → s.dev.powered = true → Completes (.leScs e a b) s fun u => u = s.leFault e.val 1) ∧
    LeCompletes (.leRsq e a c) s e.val (fun x y =>
      (x.sA c.val ≤ 2 ^ 45 → WroteD x y a.val 0x7FFFFF ∧ FlagsTake x y [(srL, true)]) ∧
      (2 ^ 45 < x.sA c.val → ∃ r : Nat, r < 2 ^ 23 ∧ WroteD x y a.val r ∧ FlagsTake x y [] ∧
        ((r - 2) * (r - 2) : Nat) * x.sA c.val ≤ 2 ^ 91 ∧ 2 ^ 91 ≤ ((r + 2) * (r + 2) : Nat) * x.sA c.val)) ∧
    LeCompletes (.leRcp e a b) s e.val (fun x y =>
      ((x.sD b.val).natAbs ≤ 2 ^ 22 → WroteD x y a.val (if x.sD b.val < 0 then 0x800000 else 0x7FFFFF) ∧ FlagsTake x y [(srL, true)]) ∧
      (2 ^ 22 < (x.sD b.val).natAbs → ∃ r : Nat, r < 2 ^ 24 ∧ WroteD x y a.val r ∧ FlagsTake x y [] ∧
        ((2 : Int) ^ 45 % x.sD b.val = 0 → sx 24 r * x.sD b.val = 2 ^ 45) ∧
        (sx 24 r * x.sD b.val - 2 ^ 45).natAbs < (x.sD b.val).natAbs))

/-- Pointers, immediates and special registers (R120, R131, R133): each writes the register it names, truncated to its width; CLRL clears L. A code that law code may not write is fault 3, one
that names no register is fault 1 (R136). Commands that complete: leMvp, leAddp, leAddpi, leMvdp, leMvpd, leLdi, leLdpi, leClrl, leMfs, leMts, leLdsi. -/
def Obligations.PointersAndSpecialRegisters : Prop :=
  ∀ (s : State) (e : Fin 16) (a b : Fin 8) (d c : Fin 32) (k : BitVec 9) (i : BitVec 21),
    LeCompletes (.leMvp e a b) s e.val (fun x y => WroteP x y a.val (x.getP b.val % 2 ^ 18) ∧ FlagsTake x y []) ∧
    LeCompletes (.leAddp e a b d) s e.val (fun x y => WroteP x y a.val ((x.getP b.val + x.getD d.val) % 2 ^ 18) ∧ FlagsTake x y []) ∧
    LeCompletes (.leAddpi e a b k) s e.val (fun x y => WroteP x y a.val (((x.getP b.val : Int) + k.toInt) % 2 ^ 18).toNat ∧ FlagsTake x y []) ∧
    LeCompletes (.leMvdp e a d) s e.val (fun x y => WroteP x y a.val (x.getD d.val % 2 ^ 18) ∧ FlagsTake x y []) ∧
    LeCompletes (.leMvpd e d b) s e.val (fun x y => WroteD x y d.val (x.getP b.val % 2 ^ 24) ∧ FlagsTake x y []) ∧
    LeCompletes (.leLdi e d i) s e.val (fun x y => WroteD x y d.val (ux 24 (i.toInt * 8)) ∧ FlagsTake x y (nzFlags (i.toInt * 8))) ∧
    LeCompletes (.leLdpi e a i) s e.val (fun x y => WroteP x y a.val (i.toNat % 2 ^ 18) ∧ FlagsTake x y []) ∧
    LeCompletes (.leClrl e) s e.val (fun x y => WroteNone x y ∧ FlagsTake x y [(srL, false)]) ∧
    (∀ v : Nat, s.spGet e.val (s.set' e.val) c.val = some v →
      LeCompletes (.leMfs e d c) s e.val fun x y => WroteD x y d.val (v % 2 ^ 24) ∧ FlagsTake x y []) ∧
    (c.val < 8 → (LeCompletes (.leMts e c d) s e.val fun x y => (∀ j, tget 0 y.m j = if j = c.val then x.getD d.val % 2 ^ 18 else tget 0 x.m j) ∧
        y.d = x.d ∧ y.a = x.a ∧ y.p = x.p ∧ y.l = x.l ∧ y.b = x.b ∧ y.lc = x.lc ∧ y.sr = x.sr) ∧
      LeCompletes (.leLdsi e c i) s e.val fun x y => (∀ j, tget 0 y.m j = if j = c.val then ux 24 i.toInt % 2 ^ 18 else tget 0 x.m j) ∧
        y.d = x.d ∧ y.a = x.a ∧ y.p = x.p ∧ y.l = x.l ∧ y.b = x.b ∧ y.lc = x.lc ∧ y.sr = x.sr) ∧
    (8 ≤ c.val → c.val < 16 → (LeCompletes (.leMts e c d) s e.val fun x y => (∀ j, tget 0 y.l j = if j = c.val - 8 then x.getD d.val % 2 ^ 18 else tget 0 x.l j) ∧
        y.d = x.d ∧ y.a = x.a ∧ y.p = x.p ∧ y.m = x.m ∧ y.b = x.b ∧ y.lc = x.lc ∧ y.sr = x.sr) ∧
      LeCompletes (.leLdsi e c i) s e.val fun x y => (∀ j, tget 0 y.l j = if j = c.val - 8 then ux 24 i.toInt % 2 ^ 18 else tget 0 x.l j) ∧
        y.d = x.d ∧ y.a = x.a ∧ y.p = x.p ∧ y.m = x.m ∧ y.b = x.b ∧ y.lc = x.lc ∧ y.sr = x.sr) ∧
    (16 ≤ c.val → c.val < 24 → (LeCompletes (.leMts e c d) s e.val fun x y => (∀ j, tget 0 y.b j = if j = c.val - 16 then x.getD d.val % 2 ^ 18 else tget 0 x.b j) ∧
        y.d = x.d ∧ y.a = x.a ∧ y.p = x.p ∧ y.m = x.m ∧ y.l = x.l ∧ y.lc = x.lc ∧ y.sr = x.sr) ∧
      LeCompletes (.leLdsi e c i) s e.val fun x y => (∀ j, tget 0 y.b j = if j = c.val - 16 then ux 24 i.toInt % 2 ^ 18 else tget 0 x.b j) ∧
        y.d = x.d ∧ y.a = x.a ∧ y.p = x.p ∧ y.m = x.m ∧ y.l = x.l ∧ y.lc = x.lc ∧ y.sr = x.sr) ∧
    (c.val = 24 → (LeCompletes (.leMts e c d) s e.val fun x y => WroteNone x y ∧ y.sr = Nat.land (x.getD d.val) 0x31F) ∧
      LeCompletes (.leLdsi e c i) s e.val fun x y => WroteNone x y ∧ y.sr = Nat.land (ux 24 i.toInt) 0x31F) ∧
    (c.val = 25 → (LeCompletes (.leMts e c d) s e.val fun x y => y.lc = x.getD d.val % 2 ^ 16 ∧ y.d = x.d ∧ y.a = x.a ∧ y.p = x.p ∧
        y.m = x.m ∧ y.l = x.l ∧ y.b = x.b ∧ y.sr = x.sr) ∧
      LeCompletes (.leLdsi e c i) s e.val fun x y => y.lc = ux 24 i.toInt % 2 ^ 16 ∧ y.d = x.d ∧ y.a = x.a ∧ y.p = x.p ∧
        y.m = x.m ∧ y.l = x.l ∧ y.b = x.b ∧ y.sr = x.sr) ∧
    ((loopEnd (s.set' e.val).pc (s.set' e.val).loops (s.set' e.val).rrb).2.1 ≤ 0x3FFF → c.val = 26 → (s.set' e.val).loops = [] → s.dev.powered = true →
      (Completes (.leMts e c d) s fun u => EngineRan s e.val u ∧ (u.set' e.val).rrb = (s.set' e.val).getD d.val % 16 ∧
        WroteNone (s.set' e.val) (u.set' e.val)) ∧
      Completes (.leLdsi e c i) s fun u => EngineRan s e.val u ∧ (u.set' e.val).rrb = ux 24 i.toInt % 16 ∧
        WroteNone (s.set' e.val) (u.set' e.val)) ∧
    (s.dev.powered = true → c.val = 27 ∨ c.val = 28 →
      (Completes (.leMts e c d) s fun u => u = s.leFault e.val 3) ∧ Completes (.leLdsi e c i) s fun u => u = s.leFault e.val 3) ∧
    (s.dev.powered = true → 29 ≤ c.val →
      (Completes (.leMts e c d) s fun u => u = s.leFault e.val 1) ∧ (Completes (.leLdsi e c i) s fun u => u = s.leFault e.val 1) ∧
      Completes (.leMfs e d c) s fun u => u = s.leFault e.val 1)

/-- Loads (R125, R132): the word at the operand's address enters its register, the pointer is updated first, and no flag changes. At an unassigned address the engine takes fault 2.
Commands that complete: leLd, leLde, leLdp, leLdh, leLdl. -/
def Obligations.LoadsReadTheDataSpace : Prop :=
  ∀ (s : State) (e : Fin 16) (r : Fin 32) (q p : Fin 8) (u : Fin 4) (off : BitVec 17) (ad p' : Nat),
    (s.set' e.val).ea p.val u.val off.toInt = (ad, p') →
    (∀ w : Nat, s.leLoad e.val ad = some w →
      LeCompletes (.leLd e r p u off) s e.val (fun x y => (∀ k, tget 0 y.d k = if k = x.phys r.val then w % 2 ^ 24 else tget 0 x.d k) ∧
        (∀ k, y.getP k = if k = p.val then p' % 2 ^ 18 else x.getP k) ∧ y.a = x.a ∧ y.m = x.m ∧ y.l = x.l ∧ y.b = x.b ∧ y.lc = x.lc ∧ y.sr = x.sr) ∧
      LeCompletes (.leLde e r p u off) s e.val (fun x y => (∀ k, tget 0 y.d k = if k = x.phys r.val then bits w 24 4 else tget 0 x.d k) ∧
        (∀ k, y.getP k = if k = p.val then p' % 2 ^ 18 else x.getP k) ∧ y.a = x.a ∧ y.m = x.m ∧ y.l = x.l ∧ y.b = x.b ∧ y.lc = x.lc ∧ y.sr = x.sr) ∧
      LeCompletes (.leLdp e q p u off) s e.val (fun x y =>
        (∀ k, y.getP k = if k = q.val then w % 2 ^ 18 else if k = p.val then p' % 2 ^ 18 else x.getP k) ∧
        y.d = x.d ∧ y.a = x.a ∧ y.m = x.m ∧ y.l = x.l ∧ y.b = x.b ∧ y.lc = x.lc ∧ y.sr = x.sr) ∧
      LeCompletes (.leLdh e q p u off) s e.val (fun x y => (∀ k, tget 0 y.a k = if k = q.val then w * 2 ^ 24 else tget 0 x.a k) ∧
        (∀ k, y.getP k = if k = p.val then p' % 2 ^ 18 else x.getP k) ∧ y.d = x.d ∧ y.m = x.m ∧ y.l = x.l ∧ y.b = x.b ∧ y.lc = x.lc ∧ y.sr = x.sr) ∧
      LeCompletes (.leLdl e q p u off) s e.val (fun x y =>
        (∀ k, tget 0 y.a k = if k = q.val then setBits (tget 0 x.a q.val) 0 24 w else tget 0 x.a k) ∧
        (∀ k, y.getP k = if k = p.val then p' % 2 ^ 18 else x.getP k) ∧ y.d = x.d ∧ y.m = x.m ∧ y.l = x.l ∧ y.b = x.b ∧ y.lc = x.lc ∧ y.sr = x.sr)) ∧
    (s.dev.powered = true → s.leLoad e.val ad = none →
      (Completes (.leLd e r p u off) s fun v => v = s.leFault e.val 2) ∧ (Completes (.leLde e r p u off) s fun v => v = s.leFault e.val 2) ∧
      (Completes (.leLdp e q p u off) s fun v => v = s.leFault e.val 2) ∧ (Completes (.leLdh e q p u off) s fun v => v = s.leFault e.val 2) ∧
      Completes (.leLdl e q p u off) s fun v => v = s.leFault e.val 2)

/-- Stores (R125, R132): a writable word at the operand's address takes the register's value, no other word of any engine changes, and the pointer is updated; a store that law code may not make is the fault R136 names.
Commands that complete: leSt, leSth, leStl. -/
def Obligations.StoresWriteOneWord : Prop :=
  ∀ (s : State) (e : Fin 16) (r : Fin 32) (q p : Fin 8) (u : Fin 4) (off : BitVec 17) (ad p' : Nat),
    s.dev.powered = true → (s.set' e.val).ea p.val u.val off.toInt = (ad, p') →
    (loopEnd (s.set' e.val).pc (s.set' e.val).loops (s.set' e.val).rrb).2.1 ≤ 0x3FFF →
    (storeFault ad = 0 → ∀ (c : Instr) (v : Nat),
      (c = .leSt e r p u off ∧ v = ux 32 ((s.set' e.val).sD r.val)) ∨
      (c = .leSth e q p u off ∧ v = bits (tget 0 (s.set' e.val).a q.val) 24 32) ∨
      (c = .leStl e q p u off ∧ v = bits (tget 0 (s.set' e.val).a q.val) 0 24) →
      Completes c s fun w => (∀ k, tget 0 w.lemem k = if k = 262144 * e.val + ad then BitVec.ofNat 32 v else tget 0 s.lemem k) ∧
        EngineRan { s with lemem := w.lemem } e.val w ∧ Follows (s.set' e.val) (w.set' e.val) ∧
        (∀ k, (w.set' e.val).getP k = if k = p.val then p' % 2 ^ 18 else (s.set' e.val).getP k) ∧
        (w.set' e.val).d = (s.set' e.val).d ∧ (w.set' e.val).a = (s.set' e.val).a ∧ (w.set' e.val).sr = (s.set' e.val).sr) ∧
    (storeFault ad ≠ 0 → (Completes (.leSt e r p u off) s fun w => w = s.leFault e.val (storeFault ad)) ∧
      (Completes (.leSth e q p u off) s fun w => w = s.leFault e.val (storeFault ad)) ∧
      Completes (.leStl e q p u off) s fun w => w = s.leFault e.val (storeFault ad))

/-- The products of Format P (R123, R130): aAD takes the product, or the sum or difference with it, saturated to 56 bits and under SATA to [−1, 1 − 2^−47]; the dual forms do the same with the next registers and the
next accumulator; N, Z and E come from the first unit, V and L from any; an odd AD of a dual form is fault 1. The moves, each of which may be absent, load their registers after the products and update their pointers, the second
after the first; one at an unassigned address is fault 2. Commands that complete: leMpy, leMac, leMsu, leMpy2, leMac2, leMsu2, leMov. -/
def Obligations.ProductsAccumulate : Prop :=
  ∀ (s : State) (e : Fin 16) (ad : Fin 8) (s1 s2 : Fin 16) (m0 m1 : Option PMove),
    (∀ (x0 x1 : LeSet) (a0 a1 : Option Nat), s.leMove? e.val (s.set' e.val) m0 = some (x0, a0) → s.leMove? e.val x0 m1 = some (x1, a1) →
      (∀ (c : Instr) (op : Nat), (c, op) ∈ [(Instr.leMpy e ad s1 s2 m0 m1, 0), (.leMac e ad s1 s2 m0 m1, 1), (.leMsu e ad s1 s2 m0 m1, 2)] →
        LeCompletes c s e.val fun x y => ∃ v q : Int, v = accum op (x.sA ad.val) (x.sD s1.val * x.sD s2.val * 2) ∧
          q = (if x.bit srSATA then satS 48 (satS 56 v) else satS 56 v) ∧ (∀ k, y.sA k = if k = ad.val then q else x.sA k) ∧
          y.d = x1.d ∧ y.p = x1.p ∧ y.m = x.m ∧ y.l = x.l ∧ y.b = x.b ∧ y.lc = x.lc ∧
          FlagsTake x y (nzFlags q ++ [(srE, eFlag q), (srV, outS 56 v),
            (srL, x.bit srL || outS 56 v || (x.bit srSATA && outS 48 (satS 56 v)))])) ∧
      (∀ (c : Instr) (op : Nat), (c, op) ∈ [(Instr.leMpy2 e ad s1 s2 m0 m1, 0), (.leMac2 e ad s1 s2 m0 m1, 1), (.leMsu2 e ad s1 s2 m0 m1, 2)] →
        ad.val % 2 = 0 →
        LeCompletes c s e.val fun x y => ∃ v v' q q' : Int, v = accum op (x.sA ad.val) (x.sD s1.val * x.sD s2.val * 2) ∧
          v' = accum op (x.sA (ad.val + 1)) (x.sD ((s1.val + 1) % 16) * x.sD ((s2.val + 1) % 16) * 2) ∧
          q = (if x.bit srSATA then satS 48 (satS 56 v) else satS 56 v) ∧ q' = (if x.bit srSATA then satS 48 (satS 56 v') else satS 56 v') ∧
          (∀ k, y.sA k = if k = ad.val then q else if k = ad.val + 1 then q' else x.sA k) ∧
          y.d = x1.d ∧ y.p = x1.p ∧ y.m = x.m ∧ y.l = x.l ∧ y.b = x.b ∧ y.lc = x.lc ∧
          FlagsTake x y (nzFlags q ++ [(srE, eFlag q), (srV, outS 56 v || outS 56 v'),
            (srL, x.bit srL || outS 56 v || (x.bit srSATA && outS 48 (satS 56 v)) || outS 56 v' || (x.bit srSATA && outS 48 (satS 56 v')))])) ∧
      LeCompletes (.leMov e m0 m1) s e.val fun x y => y.d = x1.d ∧ y.p = x1.p ∧ y.a = x.a ∧ y.m = x.m ∧ y.l = x.l ∧ y.b = x.b ∧
        y.lc = x.lc ∧ FlagsTake x y []) ∧
    (∀ c : Instr, c ∈ [Instr.leMpy2 e ad s1 s2 m0 m1, .leMac2 e ad s1 s2 m0 m1, .leMsu2 e ad s1 s2 m0 m1] → ad.val % 2 = 1 → s.dev.powered = true →
      Completes c s fun u => u = s.leFault e.val 1) ∧
    (∀ c : Instr, c ∈ [Instr.leMpy e ad s1 s2 m0 m1, .leMac e ad s1 s2 m0 m1, .leMsu e ad s1 s2 m0 m1, .leMov e m0 m1] → s.dev.powered = true →
      s.leMove? e.val (s.set' e.val) m0 = none → Completes c s fun u => u = s.leFault e.val 2) ∧
    ∀ (m : PMove) (a' p' w : Nat), (s.set' e.val).ea m.p.val (if m.u then 3 else 1) 0 = (a', p') → s.leLoad e.val a' = some w →
      LeCompletes (.leMov e (some m) none) s e.val fun x y =>
        (∀ k, tget 0 y.d k = if k = x.phys m.d.val then w % 2 ^ 24 else tget 0 x.d k) ∧
        (∀ k, y.getP k = if k = m.p.val then p' % 2 ^ 18 else x.getP k) ∧ y.a = x.a ∧ FlagsTake x y []

/-- Control flow (R128, R133, R134): the sixteen condition codes hold as R134 tables them; a taken branch goes to its target and ends the loops whose body does not hold it; a call pushes the address after it, to 4 levels, and a return pops it; a loop of a count other than 0 begins with its body, a
count of 0 skips it. A fifth level of calls or loops, and a return from an empty stack, are the faults R136 names. Commands that complete: leJmp, leJcc, leCall, leRet, leLoop. -/
def Obligations.ControlFlowOfLaws : Prop :=
  (∀ (x : LeSet) (srv : Bool) (c : Fin 16), some (x.cond srv c.val) =
    [true, x.bit srZ, !x.bit srZ, x.bit srN, !x.bit srN, !x.bit srN && !x.bit srZ, x.bit srN || x.bit srZ, x.bit srV, !x.bit srV, x.bit srL, !x.bit srL,
      x.bit srE, !x.bit srE, srv, !srv, false][c.val]?) ∧
  ∀ (s : State) (e : Fin 16) (cc : Fin 16) (k : BitVec 14), s.dev.powered = true →
    Completes (.leJmp e k) s (fun u => EngineRan s e.val u ∧ (u.set' e.val).pc = k.toNat ∧
      (u.set' e.val).loops = leaveLoops k.toNat (s.set' e.val).loops ∧ WroteNone (s.set' e.val) (u.set' e.val)) ∧
    ((s.set' e.val).cond s.servo cc.val = true → Completes (.leJcc e cc k) s fun u => EngineRan s e.val u ∧ (u.set' e.val).pc = k.toNat ∧
      (u.set' e.val).loops = leaveLoops k.toNat (s.set' e.val).loops ∧ WroteNone (s.set' e.val) (u.set' e.val)) ∧
    ((s.set' e.val).cond s.servo cc.val = false → LeCompletes (.leJcc e cc k) s e.val fun x y => WroteNone x y ∧ y.sr = x.sr) ∧
    ((s.set' e.val).calls.length < 4 → Completes (.leCall e k) s fun u => EngineRan s e.val u ∧ (u.set' e.val).pc = k.toNat ∧
      (u.set' e.val).calls = ((s.set' e.val).pc + 1) :: (s.set' e.val).calls ∧ (u.set' e.val).loops = (s.set' e.val).loops ∧
      WroteNone (s.set' e.val) (u.set' e.val)) ∧
    (4 ≤ (s.set' e.val).calls.length → Completes (.leCall e k) s fun u => u = s.leFault e.val 5) ∧
    (∀ (r : Nat) (rest : List Nat), (s.set' e.val).calls = r :: rest → r ≤ 0x3FFF → Completes (.leRet e) s fun u => EngineRan s e.val u ∧
      (u.set' e.val).pc = r ∧ (u.set' e.val).calls = rest ∧ (u.set' e.val).loops = (s.set' e.val).loops ∧ WroteNone (s.set' e.val) (u.set' e.val)) ∧
    ((s.set' e.val).calls = [] → Completes (.leRet e) s fun u => u = s.leFault e.val 5) ∧
    ∀ (rot cntreg : Bool) (len : Fin 128) (n : Nat), n = (if cntreg then (s.set' e.val).lc else k.toNat) →
      (n ≠ 0 → (s.set' e.val).loops.length < 4 → (s.set' e.val).pc + 1 ≤ 0x3FFF → Completes (.leLoop e rot cntreg len k) s fun u =>
        EngineRan s e.val u ∧ (u.set' e.val).pc = (s.set' e.val).pc + 1 ∧
        (u.set' e.val).loops = ⟨(s.set' e.val).pc + 1, (s.set' e.val).pc + len.val + 1, n, rot⟩ :: (s.set' e.val).loops ∧
        WroteNone (s.set' e.val) (u.set' e.val)) ∧
      (n ≠ 0 → 4 ≤ (s.set' e.val).loops.length → Completes (.leLoop e rot cntreg len k) s fun u => u = s.leFault e.val 4) ∧
      (n = 0 → (loopEnd ((s.set' e.val).pc + len.val + 1) (s.set' e.val).loops (s.set' e.val).rrb).2.1 ≤ 0x3FFF →
        Completes (.leLoop e rot cntreg len k) s fun u =>
          EngineRan s e.val u ∧ ((u.set' e.val).loops, (u.set' e.val).pc, (u.set' e.val).rrb) =
            loopEnd ((s.set' e.val).pc + len.val + 1) (s.set' e.val).loops (s.set' e.val).rrb ∧
          ((s.set' e.val).loops = [] → (u.set' e.val).pc = (s.set' e.val).pc + len.val + 2) ∧ WroteNone (s.set' e.val) (u.set' e.val))

/-- Tasks end, commit and fault (R126, R127, R136). END ends the running task; after a main task a pre-empted extension task goes on where no main task is ready. CMT of a slot of the running main task, before the deadline of its
ring cycle, puts the slot's downlink words into the send buffer and goes on, and after it only goes on (R105); from an extension task, or of a slot that is not the task's, it is refused with BAD_CMT. An illegal encoding is
fault 1: LE_FAULT shows where and why, FAULTED is set, and the task ends. Commands that complete: leEnd, leCmt, leIllegalOpcode. -/
def Obligations.TasksEndCommitAndFault : Prop :=
  ∀ (s : State) (e : Fin 16), s.dev.powered = true →
    ((s.eng e.val).onExt = false → Completes (.leEnd e) s fun u => (u.eng e.val).main.task = none ∧
      (u.eng e.val).onExt = ((s.eng e.val).ext.task.isSome && (s.nextMain e.val).isNone) ∧ (∀ j, j ≠ e.val → u.eng j = s.eng j) ∧
      u = { s with engines := u.engines, regs := u.regs, raised := u.raised }) ∧
    ((s.eng e.val).onExt = true → Completes (.leEnd e) s fun u => (u.eng e.val).ext.task = none ∧ (u.eng e.val).main = (s.eng e.val).main ∧
      (∀ j, j ≠ e.val → u.eng j = s.eng j) ∧ u = { s with engines := u.engines, regs := u.regs }) ∧
    (∀ (own : Bool) (n : Fin 32) (sl k : Nat), sl = (if own then (s.eng e.val).main.ts else n.val) → (s.eng e.val).onExt = false →
      (s.eng e.val).main.task = some k → sl < 24 → bitAt (s.get (Reg.TASK_SLOTS.SLOTS e.val k)) sl = true →
      (loopEnd (s.set' e.val).pc (s.set' e.val).loops (s.set' e.val).rrb).2.1 ≤ 0x3FFF →
      ((s.slot e.val sl).due ≤ (s.eng e.val).main.born → Completes (.leCmt e own n) s fun u =>
        u.slot e.val sl = { s.slot e.val sl with sent := some (s.leWord e.val (mboxAddr sl 0x20) % 2 ^ 24,
          s.leWord e.val (mboxAddr sl 0x21) % 2 ^ 24, s.leWord e.val (mboxAddr sl 0x22) % 2 ^ 24) } ∧
        (∀ e' sl', (e', sl') ≠ (e.val, sl) → u.slot e' sl' = s.slot e' sl') ∧
        Follows (s.set' e.val) (u.set' e.val) ∧ WroteNone (s.set' e.val) (u.set' e.val) ∧ u.lemem = s.lemem ∧ u.toLog = s.toLog) ∧
      ((s.eng e.val).main.born < (s.slot e.val sl).due → LeCompletes (.leCmt e own n) s e.val WroteNone)) ∧
    (∀ (own : Bool) (n : Fin 32), (s.eng e.val).onExt = true →
      (loopEnd (s.set' e.val).pc (s.set' e.val).loops (s.set' e.val).rrb).2.1 ≤ 0x3FFF →
      Completes (.leCmt e own n) s fun u => u.on (Reg.LE_PSTAT.BAD_CMT e.val) = true ∧ u.slots = s.slots ∧
        Follows (s.set' e.val) (u.set' e.val)) ∧
    (∀ (n : Fin 32) (k : Nat), (s.eng e.val).onExt = false → (s.eng e.val).main.task = some k →
      24 ≤ n.val ∨ bitAt (s.get (Reg.TASK_SLOTS.SLOTS e.val k)) n.val = false →
      (loopEnd (s.set' e.val).pc (s.set' e.val).loops (s.set' e.val).rrb).2.1 ≤ 0x3FFF →
      Completes (.leCmt e false n) s fun u => u.on (Reg.LE_PSTAT.BAD_CMT e.val) = true ∧ u.slots = s.slots ∧
        Follows (s.set' e.val) (u.set' e.val)) ∧
    Completes (.leIllegalOpcode e) s (fun u => u = s.leFault e.val 1 ∧ u.get (Reg.LE_FAULT.CAUSE e.val) = 1 ∧
      u.get (Reg.LE_FAULT.PC e.val) = (s.set' e.val).pc % 2 ^ (Reg.LE_FAULT.PC e.val).width ∧ u.on (Reg.LE_PSTAT.FAULTED e.val) = true ∧
      (if (s.eng e.val).onExt then (u.eng e.val).ext.task = none else (u.eng e.val).main.task = none) ∧ ∀ j, j ≠ e.val → u.eng j = s.eng j)

/-- The words that a host gives an engine (R142). LE_MEM_DATA writes X and Y memory only, at LE_MEM_ADDR; CLR_COUNT clears the count of faults. Commands that complete:
leMemDataWrite, leClrCount. -/
def Obligations.HostWritesEngineMemory : Prop :=
  ∀ (s : State) (t : Time) (e : Fin 16), s.HostReady t →
    Completes (.leClrCount t e) s (Sets (Reg.LE_FAULT.COUNT e.val) 0 (s.written t)) ∧
    ∀ v : Word, (s.get (Reg.LE_MEM_ADDR.ADDR e.val) < 65536 → Completes (.leMemDataWrite t e v) s fun u =>
        (∀ k, tget 0 u.lemem k = if k = 262144 * e.val + s.get (Reg.LE_MEM_ADDR.ADDR e.val) then v else tget 0 s.lemem k) ∧
        u = { s.written t with lemem := u.lemem }) ∧
      (65536 ≤ s.get (Reg.LE_MEM_ADDR.ADDR e.val) → Completes (.leMemDataWrite t e v) s fun u => u = s.written t)

/-! ### Drive output (chapter 07) -/

/-- Requests of an axis (R158–R160, R150). An enable, a disable and a clear wait for the servo boundary; a request that waits already is one request. At the
boundary a disable by AX_CTRL of a channel that does not exist, or that is a member of an island, is refused with the reason, logged and raised in AX_STATE, and changes nothing of
the axis's state; a disable that is taken wins over every enable of the same boundary; an enable that no reason refuses leads from OFF or FAULT to PRECHARGE, and one that a reason refuses is refused with it. A quiet or
strong mode word waits for the servo boundary, its reserved bits 0. Commands that complete: axEnable, axDisable, axClear, qsWrite. -/
def Obligations.AxisRequestsWaitForTheBoundary : Prop :=
  (∀ (s : State) (t : Time) (a : Fin 256), s.HostReady t →
    Completes (.axEnable t a) s (fun u =>
      u.axis a.val = { s.axis a.val with
        reqEnable := if 1 ∈ (s.axis a.val).reqEnable then (s.axis a.val).reqEnable else (s.axis a.val).reqEnable ++ [1] } ∧
      (∀ b, b ≠ a.val → u.axis b = s.axis b) ∧ u = { s.written t with axes := u.axes }) ∧
    Completes (.axClear t a) s (fun u => u.axis a.val = { s.axis a.val with reqClear := true } ∧
      (∀ b, b ≠ a.val → u.axis b = s.axis b) ∧ u = { s.written t with axes := u.axes }) ∧
    Completes (.axDisable t a) s (fun u => u.axis a.val = { s.axis a.val with axDisable := true } ∧
      (∀ b, b ≠ a.val → u.axis b = s.axis b) ∧ u = { s.written t with axes := u.axes }) ∧
    ∀ (r : Fin 3) (v : Word), Completes (.qsWrite t a r v) s fun u =>
      u.axis a.val = { s.axis a.val with qsWrites := (s.axis a.val).qsWrites ++
        [([Reg.QS_UP a.val, Reg.QS_DOWN a.val, Reg.QS_CFG a.val].getD r.val 0, if r.val = 2 then Nat.land v.toNat 0xFFFF0003 else v.toNat)] } ∧
      (∀ b, b ≠ a.val → u.axis b = s.axis b) ∧ u = { s.written t with axes := u.axes }) ∧
  ∀ (s : State) (a : Nat), a < 256 →
    ((s.axis a).axDisable = true → (s.axis a).reqDisable = false → (s.axis a).reqClear = false → (s.axis a).reqEnable = [] →
      s.on (Reg.AX_STATE.LATCHED a) = false → (s.img.axis? a = none ∨ s.on (Reg.AX_CFG.IN_ISLAND a) = true) →
      (s.axisRequests a).get (Reg.AX_STATE.REASON a) = (if s.img.axis? a = none then 8 else 6) ∧
      (s.axisRequests a).on (Reg.AX_STATE.REFUSED a) = true ∧ (s.axisRequests a).axState a = s.axState a ∧
      (s.axisRequests a).axis a = { s.axis a with reqEnable := [], reqDisable := false, axDisable := false, reqClear := false }) ∧
    ((s.img.axis? a).isSome = true → s.axState a = axPrecharge →
      ((s.axis a).reqDisable = true ∨ (s.axis a).axDisable = true ∧ s.on (Reg.AX_CFG.IN_ISLAND a) = false) → (s.axis a).reqClear = false →
      (s.axisRequests a).axState a = axDisabling ∧ (s.axisRequests a).get (Reg.AX_STATE.PHASE a) = phTorqueOff) ∧
    (∀ p < 3, (s.img.axis? a).isSome = true → s.axState a = axOff ∨ s.axState a = axFault → (s.axis a).reqEnable = [p] → (s.axis a).reqDisable = false →
      (s.axis a).axDisable = false → (s.axis a).reqClear = false →
      (s.node (s.ringOf a) (s.nodeOf a)).pwmQ ≠ 3 → (s.node (s.ringOf a) (s.nodeOf a)).pwmS ≠ 3 →
      (s.enableReason a p = 0 → (s.axisRequests a).axState a = axPrecharge ∧ (s.axisRequests a).on (Reg.AX_STATE.LATCHED a) = false) ∧
      (s.enableReason a p ≠ 0 → (s.axisRequests a).axState a = s.axState a ∧ (s.axisRequests a).on (Reg.AX_STATE.REFUSED a) = true ∧
        (s.axisRequests a).get (Reg.AX_STATE.REASON a) = s.enableReason a p))

/-- The sequence of enabling (R159). At a servo boundary, with the bus voltage reached, PRECHARGE gives way to BRAKE_RELEASE, which a BRAKE_REL_T of 0 passes at once; after PRECHG_T without it the axis faults
with cause 1. After BRAKE_REL_T the axis is ENABLED where its following error permits, in strong mode only for MODE 2, a change of the mode counted in MODE_SWITCHES, and faults with cause 9 otherwise. Away from a
servo boundary, and where its condition does not hold, none of the commands does anything. Commands that complete: prechargeComplete, prechargeTimeout, brakeReleaseTimeout. -/
def Obligations.EnablingRunsThroughItsStates : Prop :=
  ∀ (s b : State) (t : Time) (a : Fin 256), s.Ready t → b = s.at t →
    (b.atServo = true → s.axState a.val = axPrecharge → s.udcOk a.val = true → s.get (Reg.DRV_SEQ1.BRAKE_REL_T a.val) ≠ 0 →
      Completes (.prechargeComplete t a) s fun u => AxisEnters a.val axBrakeRelease 0 b u ∧ (u.setpt a.val).v = 0 ∧ (u.setpt a.val).a = 0 ∧
        (u.setpt a.val).tau = (s.setpt a.val).tau ∧ (u.setpt a.val).x = b.unitsOf a.val (b.pos a.val)) ∧
    (b.atServo = true → s.axState a.val = axPrecharge → s.udcOk a.val = true → s.get (Reg.DRV_SEQ1.BRAKE_REL_T a.val) = 0 →
      Completes (.prechargeComplete t a) s fun u => (s.ferrOk a.val = true → u.axState a.val = axEnabled) ∧
        (s.ferrOk a.val = false → u.axState a.val = axFault ∧ u.get (Reg.AX_FAULT.CAUSE a.val) = 9)) ∧
    (b.atServo = false ∨ s.axState a.val ≠ axPrecharge ∨ s.udcOk a.val = false → Completes (.prechargeComplete t a) s fun u => u = b) ∧
    (b.atServo = true → s.axState a.val = axPrecharge → b.elapsed a.val (s.get (Reg.DRV_SEQ0.PRECHG_T a.val)) = true → s.udcOk a.val = false →
      Completes (.prechargeTimeout t a) s (AxisFaults a.val 1 b)) ∧
    (b.atServo = false ∨ s.axState a.val ≠ axPrecharge ∨ b.elapsed a.val (s.get (Reg.DRV_SEQ0.PRECHG_T a.val)) = false ∨ s.udcOk a.val = true →
      Completes (.prechargeTimeout t a) s fun u => u = b) ∧
    (b.atServo = true → s.axState a.val = axBrakeRelease → b.elapsed a.val (s.get (Reg.DRV_SEQ1.BRAKE_REL_T a.val)) = true → s.ferrOk a.val = true →
      Completes (.brakeReleaseTimeout t a) s fun u => u.axState a.val = axEnabled ∧ u.get (Reg.AX_STATE.PHASE a.val) = 0 ∧
        (u.axis a.val).timerAt = s.dev.cycle.toNat ∧ (u.axis a.val).strong = decide (s.get (Reg.QS_CFG.MODE a.val) = 2) ∧ (u.axis a.val).nextStrong = none ∧
        u.get (Reg.DRV_STAT.MODE_SWITCHES a.val) = (s.get (Reg.DRV_STAT.MODE_SWITCHES a.val) +
          b2n ((s.axis a.val).strong != decide (s.get (Reg.QS_CFG.MODE a.val) = 2))) % 2 ^ (Reg.DRV_STAT.MODE_SWITCHES a.val).width ∧
        (∀ x, x ≠ a.val → u.axis x = s.axis x) ∧
        (s.lawSlot a.val = none → ∀ x, x ≠ Reg.AX_STATE a.val → x ≠ Reg.DRV_STAT a.val → u.word x = s.word x) ∧
        ∀ e sl, s.lawSlot a.val = some (e, sl) → u.get (Reg.LAW_STAT.BANK e sl) = 0 ∧ u.get (Reg.LAW_STAT.BAND e sl) = 0) ∧
    (b.atServo = true → s.axState a.val = axBrakeRelease → b.elapsed a.val (s.get (Reg.DRV_SEQ1.BRAKE_REL_T a.val)) = true → s.ferrOk a.val = false →
      Completes (.brakeReleaseTimeout t a) s (AxisFaults a.val 9 b)) ∧
    (b.atServo = false ∨ s.axState a.val ≠ axBrakeRelease ∨ b.elapsed a.val (s.get (Reg.DRV_SEQ1.BRAKE_REL_T a.val)) = false →
      Completes (.brakeReleaseTimeout t a) s fun u => u = b)

/-- The sequence of disabling (R159). At a servo boundary, at rest, DECEL gives way to HOLD; after HOLD_T the brake is set; after BRAKE_SET_T the torque goes off and a life record falls due; a time of 0 passes at once; with the
bridge reported off the axis is OFF, its latch kept. 16 ring cycles without that report are a fault of cause 10. Away from a servo boundary, and outside its phase, none of the commands does anything. Commands that complete:
decelComplete, holdTimeout, brakeSetTimeout, bridgeOffReported, torqueOffTimeout. -/
def Obligations.DisablingRunsThroughItsPhases : Prop :=
  ∀ (s b : State) (t : Time) (a : Fin 256), s.Ready t → b = s.at t →
    (b.atServo = true → s.inPhase a.val phDecel = true → s.atRest a.val = true → s.get (Reg.DRV_SEQ1.HOLD_T a.val) ≠ 0 →
      Completes (.decelComplete t a) s fun u => AxisEnters a.val axDisabling phHold b u ∧ u.lifeDue = s.lifeDue) ∧
    (b.atServo = true → s.inPhase a.val phDecel = true → s.atRest a.val = true → s.get (Reg.DRV_SEQ1.HOLD_T a.val) = 0 → s.get (Reg.DRV_SEQ1.BRAKE_SET_T a.val) ≠ 0 →
      Completes (.decelComplete t a) s (AxisEnters a.val axDisabling phBrakeSet b)) ∧
    (b.atServo = true → s.inPhase a.val phDecel = true → s.atRest a.val = true → s.get (Reg.DRV_SEQ1.HOLD_T a.val) = 0 → s.get (Reg.DRV_SEQ1.BRAKE_SET_T a.val) = 0 →
      Completes (.decelComplete t a) s fun u => AxisEnters a.val axDisabling phTorqueOff b u ∧ u.lifeDue = s.lifeDue ++ [a.val]) ∧
    (b.atServo = true → s.inPhase a.val phHold = true → b.elapsed a.val (s.get (Reg.DRV_SEQ1.HOLD_T a.val)) = true → s.get (Reg.DRV_SEQ1.BRAKE_SET_T a.val) ≠ 0 →
      Completes (.holdTimeout t a) s (AxisEnters a.val axDisabling phBrakeSet b)) ∧
    (b.atServo = true → s.inPhase a.val phHold = true → b.elapsed a.val (s.get (Reg.DRV_SEQ1.HOLD_T a.val)) = true → s.get (Reg.DRV_SEQ1.BRAKE_SET_T a.val) = 0 →
      Completes (.holdTimeout t a) s fun u => AxisEnters a.val axDisabling phTorqueOff b u ∧ u.lifeDue = s.lifeDue ++ [a.val]) ∧
    (b.atServo = true → s.inPhase a.val phBrakeSet = true → b.elapsed a.val (s.get (Reg.DRV_SEQ1.BRAKE_SET_T a.val)) = true →
      Completes (.brakeSetTimeout t a) s fun u => AxisEnters a.val axDisabling phTorqueOff b u ∧ u.lifeDue = s.lifeDue ++ [a.val]) ∧
    (b.atServo = true → s.inPhase a.val phTorqueOff = true → s.bridgeOff a.val = true →
      Completes (.bridgeOffReported t a) s fun u => AxisEnters a.val axOff 0 b u ∧ u.get (Reg.AX_STATE.LATCHED a.val) = s.get (Reg.AX_STATE.LATCHED a.val)) ∧
    (b.atServo = true → s.inPhase a.val phTorqueOff = true → s.bridgeOff a.val = false → (s.axis a.val).timerAt + 16 ≤ s.dev.cycle.toNat →
      Completes (.torqueOffTimeout t a) s (AxisFaults a.val 10 b)) ∧
    (b.atServo = false ∨ s.inPhase a.val phDecel = false ∨ s.atRest a.val = false → Completes (.decelComplete t a) s fun u => u = b) ∧
    (b.atServo = false ∨ s.inPhase a.val phHold = false ∨ b.elapsed a.val (s.get (Reg.DRV_SEQ1.HOLD_T a.val)) = false →
      Completes (.holdTimeout t a) s fun u => u = b) ∧
    (b.atServo = false ∨ s.inPhase a.val phBrakeSet = false ∨ b.elapsed a.val (s.get (Reg.DRV_SEQ1.BRAKE_SET_T a.val)) = false →
      Completes (.brakeSetTimeout t a) s fun u => u = b) ∧
    (b.atServo = false ∨ s.inPhase a.val phTorqueOff = false ∨ s.bridgeOff a.val = false → Completes (.bridgeOffReported t a) s fun u => u = b) ∧
    (b.atServo = false ∨ s.inPhase a.val phTorqueOff = false ∨ s.bridgeOff a.val = true ∨ s.dev.cycle.toNat < (s.axis a.val).timerAt + 16 →
      Completes (.torqueOffTimeout t a) s fun u => u = b)

/-! ### Feedback, compare outputs, encoder emulation (chapter 08) -/

/-- The host's commands of the feedback (R167, R168, R174). A preset waits with the value of FB_PRESET, unless the axis is driven: then it is refused. A fault clears, with its cause, once the cause is gone; it stands otherwise. A window of
illegal transitions that has ended is judged first; a pair of a local encoder that still stands broken is raised in its turn. Commands that complete: fbPreset, fbClrFault, encClrFault. -/
def Obligations.FeedbackCommands : Prop :=
  (∀ (s : State) (t : Time) (a : Fin 256), s.HostReady t →
    ((s.written t).driven a.val = false → Completes (.fbPreset t a) s fun u =>
      u.fb a.val = { s.fb a.val with preset := some (s.int64 (Reg.FB_PRESET_LO a.val)) } ∧ (∀ b, b ≠ a.val → u.fb b = s.fb b) ∧
      u = { s.written t with fbs := u.fbs }) ∧
    ((s.written t).driven a.val = true → Completes (.fbPreset t a) s (Raises (Reg.FB_STAT.PRESET_REFUSED a.val) (s.written t))) ∧
    (s.on (Reg.FB_STAT.FAULT a.val) = true → s.fbCauseGone a.val = true → Completes (.fbClrFault t a) s fun u =>
      u.on (Reg.FB_STAT.FAULT a.val) = false ∧ u.get (Reg.FB_STAT.CAUSE a.val) = 0 ∧ u = { s.written t with regs := u.regs } ∧
      ∀ x, x ≠ Reg.FB_STAT a.val → u.word x = (s.written t).word x) ∧
    (s.on (Reg.FB_STAT.FAULT a.val) = false ∨ s.fbCauseGone a.val = false → Completes (.fbClrFault t a) s fun u => u = s.written t)) ∧
  ∀ (s b : State) (t : Time) (k : Fin 8), s.HostReady t → b = (s.written t).rollWindow k.val →
    (b.on (Reg.ENC_STAT.FAULT k.val) = true → b.encCauseGone k.val = true → (s.enc k.val).broken = [] ∨ s.on (Reg.ENC_CFG.EN k.val) = false →
      Completes (.encClrFault t k) s fun u =>
        u.on (Reg.ENC_STAT.FAULT k.val) = false ∧ u.get (Reg.ENC_STAT.CAUSE k.val) = 0 ∧ u = { b with regs := u.regs } ∧
        ∀ x, x ≠ Reg.ENC_STAT k.val → u.word x = b.word x) ∧
    (b.on (Reg.ENC_STAT.FAULT k.val) = true → b.encCauseGone k.val = true → (s.enc k.val).broken ≠ [] → s.on (Reg.ENC_CFG.EN k.val) = true →
      Completes (.encClrFault t k) s fun u => u.on (Reg.ENC_STAT.FAULT k.val) = true ∧ u.get (Reg.ENC_STAT.CAUSE k.val) = 2 ∧ u.encs = b.encs) ∧
    (b.on (Reg.ENC_STAT.FAULT k.val) = false ∨ b.encCauseGone k.val = false → Completes (.encClrFault t k) s fun u => u = b)

/-- The local encoders (R169, R172–R174). A level counts once it has stood for more than FILT samples. Of an input in use a step forward in the quadrature sequence counts up, one back counts down, no step counts nothing, and two steps
at once are an illegal transition, counted in ERRS; of one not in use the levels are followed and nothing counts. After a count the due line actions and then the compare channels take their turn. A rising Z latches the count after the sample of A and B. A broken pair
of an input in use is a fault of cause 2, unless one stands. A window of illegal transitions that has ended is judged and restarts. Once STANDSTILL_T has passed since the last counted edge, of an axis or of a local encoder, the speed reads 0
and STANDSTILL is set; before that nothing happens. Commands that complete: encoderTransition, encoderIndex, encoderWireBreak, illegalWindowEnd, standstillDetect. -/
def Obligations.EncodersCountAndStandStill : Prop :=
  (∀ (s : State) (t : Time) (k : Fin 8), s.Ready t →
      (∀ (a b : Bool) (na nb : Nat),
        quadPlace (s.filtered k.val (s.enc k.val).a a na) (s.filtered k.val (s.enc k.val).b b nb) = quadPlace (s.enc k.val).a (s.enc k.val).b →
        Completes (.encoderTransition t k a b na nb) s fun u => u = s.at t) ∧
      (∀ (a b : Bool) (na nb : Nat), s.on (Reg.ENC_CFG.EN k.val) = false → s.get (Reg.ENC_CFG.FILT k.val) < na → s.get (Reg.ENC_CFG.FILT k.val) < nb →
        quadPlace a b ≠ quadPlace (s.enc k.val).a (s.enc k.val).b →
        Completes (.encoderTransition t k a b na nb) s fun u => u.enc k.val = { s.enc k.val with a := a, b := b } ∧
          (∀ j, j ≠ k.val → u.enc j = s.enc j) ∧ u = { s.at t with encs := u.encs }) ∧
      (∀ (a b : Bool) (na nb : Nat) (d : Int), s.on (Reg.ENC_CFG.EN k.val) = true → (s.at t).dueActs = [] →
        s.get (Reg.ENC_CFG.FILT k.val) < na → s.get (Reg.ENC_CFG.FILT k.val) < nb →
        (quadPlace a b = (quadPlace (s.enc k.val).a (s.enc k.val).b + 1) % 4 ∧ d = 1) ∨
          (quadPlace (s.enc k.val).a (s.enc k.val).b = (quadPlace a b + 1) % 4 ∧ d = -1) →
        Completes (.encoderTransition t k a b na nb) s fun u =>
          u.int64 (Reg.ENC_CNT_LO k.val) = wrapS 48 (s.int64 (Reg.ENC_CNT_LO k.val) + d) ∧ (u.enc k.val).a = a ∧ (u.enc k.val).b = b ∧
          (u.enc k.val).edge = some (t.toNat / 5 * 5) ∧ u.on (Reg.ENC_STAT.STANDSTILL k.val) = false ∧ (∀ j, j ≠ k.val → u.enc j = s.enc j) ∧
          ∀ c < 16, u.get (Reg.CMP_CFG.SRC c) ≠ 1 → u.cmp c = s.cmp c) ∧
      (∀ (a b : Bool) (na nb : Nat) (b1 : State), b1 = encTransition k.val a b na nb (s.at t) →
        b1.int64 (Reg.ENC_CNT_LO k.val) ≠ s.int64 (Reg.ENC_CNT_LO k.val) →
        Completes (.encoderTransition t k a b na nb) s fun u => u = (b1.takeActs t.toNat).cmpEncoder k.val
          (wrapS 48 (b1.int64 (Reg.ENC_CNT_LO k.val) - s.int64 (Reg.ENC_CNT_LO k.val)))) ∧
      (∀ (a b : Bool) (na nb : Nat), s.on (Reg.ENC_CFG.EN k.val) = true → s.get (Reg.ENC_CFG.FILT k.val) < na → s.get (Reg.ENC_CFG.FILT k.val) < nb →
        quadPlace a b = (quadPlace (s.enc k.val).a (s.enc k.val).b + 2) % 4 →
        Completes (.encoderTransition t k a b na nb) s fun u =>
          u.int64 (Reg.ENC_CNT_LO k.val) = s.int64 (Reg.ENC_CNT_LO k.val) ∧ (u.enc k.val).a = a ∧ (u.enc k.val).b = b ∧
          u.get (Reg.ENC_STAT.ERRS k.val) = (s.get (Reg.ENC_STAT.ERRS k.val) + 1) % 2 ^ (Reg.ENC_STAT.ERRS k.val).width) ∧
      (∀ (a b z : Bool) (na nb nz : Nat) (u : State), exec (.encoderTransition t k a b na nb) s = .next u →
        ((z = true ∧ s.get (Reg.ENC_CFG.FILT k.val) < nz) → (u.enc k.val).z = false → u.on (Reg.ENC_CFG.EN k.val) = true →
          u.get (Reg.ENC_CFG.FILT k.val) = s.get (Reg.ENC_CFG.FILT k.val) →
          Completes (.encoderIndex t k a b z na nb nz) s fun w => w.int64 (Reg.ENC_IDX_LO k.val) = u.int64 (Reg.ENC_CNT_LO k.val) ∧
            (w.enc k.val).index = some (u.int64 (Reg.ENC_CNT_LO k.val)) ∧ (w.enc k.val).z = true ∧ w.on (Reg.ENC_STAT.IDX_SEEN k.val) = true ∧
            w.int64 (Reg.ENC_CNT_LO k.val) = u.int64 (Reg.ENC_CNT_LO k.val)) ∧
        (u.filtered k.val (u.enc k.val).z z nz = false ∨ (u.enc k.val).z = true ∨ u.on (Reg.ENC_CFG.EN k.val) = false →
          Completes (.encoderIndex t k a b z na nb nz) s fun w => w.enc k.val = { u.enc k.val with z := u.filtered k.val (u.enc k.val).z z nz } ∧
            (∀ j, j ≠ k.val → w.enc j = u.enc j) ∧ w = { u with encs := w.encs })) ∧
      (∀ line : Fin 3, s.on (Reg.ENC_CFG.EN k.val) = true → s.on (Reg.ENC_STAT.FAULT k.val) = false → Completes (.encoderWireBreak t k line true) s fun u =>
        u.on (Reg.ENC_STAT.FAULT k.val) = true ∧ u.get (Reg.ENC_STAT.CAUSE k.val) = 2 ∧ line.val ∈ (u.enc k.val).broken) ∧
      (∀ line : Fin 3, s.on (Reg.ENC_CFG.EN k.val) = false ∨ s.on (Reg.ENC_STAT.FAULT k.val) = true → Completes (.encoderWireBreak t k line true) s fun u =>
        line.val ∈ (u.enc k.val).broken ∧ (∀ j, j ≠ k.val → u.enc j = s.enc j) ∧ u = { s.at t with encs := u.encs }) ∧
      (∀ line : Fin 3, Completes (.encoderWireBreak t k line false) s fun u => u.enc k.val = { s.enc k.val with broken := (s.enc k.val).broken.filter (· != line.val) } ∧
        (∀ j, j ≠ k.val → u.enc j = s.enc j) ∧ u = { s.at t with encs := u.encs }) ∧
      (illWindow (s.get (Reg.ENC_CFG.ILL_WIN k.val)) t.toNat ≠ (s.enc k.val).window → Completes (.illegalWindowEnd t k) s fun u =>
        (u.enc k.val).illegal = 0 ∧ (u.enc k.val).window = illWindow (s.get (Reg.ENC_CFG.ILL_WIN k.val)) t.toNat ∧ u.get (Reg.ENC_STAT.IN_WIN k.val) = 0 ∧
        ((s.enc k.val).illegal ≤ s.get (Reg.ENC_CFG.ILL_MAX k.val) → (u.enc k.val).windowOk = true) ∧
        u = { s.at t with regs := u.regs, encs := u.encs } ∧ ∀ x, x ≠ Reg.ENC_STAT k.val → u.word x = s.word x) ∧
      (illWindow (s.get (Reg.ENC_CFG.ILL_WIN k.val)) t.toNat = (s.enc k.val).window → Completes (.illegalWindowEnd t k) s fun u => u = s.at t)) ∧
  (∀ (s : State) (t : Time) (k : Fin 256), s.Ready t →
      ((s.fb k.val).seen = true → (s.fb k.val).edge + standstillNs (s.get (Reg.FB_LIMITS.STANDSTILL_T k.val)) ≤ t.toNat →
        Completes (.standstillDetect t false k) s fun u => u.word (Reg.FB_SPEED k.val) = 0 ∧ u.on (Reg.FB_STAT.STANDSTILL k.val) = true ∧
          (u.fb k.val).est.omega = 0 ∧ (∀ j, j ≠ k.val → u.fb j = s.fb j) ∧ u = { s.at t with regs := u.regs, fbs := u.fbs }) ∧
      ((s.fb k.val).seen = false ∨ t.toNat < (s.fb k.val).edge + standstillNs (s.get (Reg.FB_LIMITS.STANDSTILL_T k.val)) →
        Completes (.standstillDetect t false k) s fun u => u = s.at t) ∧
      (∀ e : Nat, e = (if (s.enc k.val).moved then (s.enc k.val).edge.getD (s.enc k.val).loadAt else (s.enc k.val).loadAt) →
        (k.val < 8 → e + standstillNs (s.get (Reg.ENC_LIMITS.STANDSTILL_T k.val)) ≤ t.toNat →
          Completes (.standstillDetect t true k) s fun u => u.word (Reg.ENC_SPEED k.val) = 0 ∧ u.on (Reg.ENC_STAT.STANDSTILL k.val) = true ∧
            (u.enc k.val).est.omega = 0 ∧ (∀ j, j ≠ k.val → u.enc j = s.enc j) ∧ u = { s.at t with regs := u.regs, encs := u.encs }) ∧
        (8 ≤ k.val ∨ t.toNat < e + standstillNs (s.get (Reg.ENC_LIMITS.STANDSTILL_T k.val)) →
          Completes (.standstillDetect t true k) s fun u => u = s.at t)))

/-- The compare channels (R175–R180, R185). OPEN starts a window and its count of pulses, CLOSE ends it; a pulse starts and is counted unless one runs or fewer than 20 ns have passed since the last, when the drop is counted; it closes the window
that has reached its limit; where the outputs are not live there is none. A written register waits for the next ring cycle. A point that is due gives its pulse where the window is open and moves the compare point by the spacing; with no spacing it disarms the channel. A line action of the same instant comes
first. A pulse ends at its instant. Encoder emulation (R181–R184). An align and a configuration word wait for the next ring cycle; a divisor of 0 is refused. A step that is due moves the output count by one in the direction of the ring cycle, modulo 2^32, and the
pins show it. Commands that complete: cmpCtrlOpen, cmpCtrlClose, cmpCtrlPulse, cmpValueWrite, comparePoint, comparePulseEnd, emuAlign, emuCfgWrite, emuStep. -/
def Obligations.CompareAndEmulationOutputs : Prop :=
  (∀ (s : State) (t : Time) (c : Fin 16), s.Ready t →
      (s.get Reg.DPX_STAT.ROLE = 0 →
        Completes (.cmpCtrlOpen t c) s (fun u => u.on (Reg.CMP_STAT.OPEN c.val) = true ∧ u.cmp c.val = { s.cmp c.val with emitted := 0 } ∧
          (∀ j, j ≠ c.val → u.cmp j = s.cmp j) ∧ u = { s.written t with regs := u.regs, cmps := u.cmps } ∧
          ∀ a, a ≠ Reg.CMP_STAT c.val → u.word a = (s.written t).word a) ∧
        Completes (.cmpCtrlClose t c) s (Sets (Reg.CMP_STAT.OPEN c.val) 0 (s.written t)) ∧
        (s.pinsLive = true → (∀ e, (s.cmp c.val).pulse = some e → e + 20 ≤ t.toNat) →
          (∀ e, (s.cmp c.val).pulse = none → (s.cmp c.val).lastEnd = some e → e + 20 ≤ t.toNat) → Completes (.cmpCtrlPulse t c) s fun u =>
            (u.cmp c.val).pulse = some (t.toNat + s.cmpWidth c.val) ∧ (u.cmp c.val).pin = !s.on (Reg.CMP_CFG.POL c.val) ∧
            (u.cmp c.val).emitted = (s.cmp c.val).emitted + 1 ∧ (u.cmp c.val).points = (s.cmp c.val).points ∧
            (∀ j, j ≠ c.val → u.cmp j = s.cmp j) ∧ u = { s.written t with regs := u.regs, cmps := u.cmps } ∧
            u.get (Reg.CMP_STAT.OPEN c.val) =
              (if s.get (Reg.CMP_LIMIT.VALUE c.val) ≠ 0 ∧ s.get (Reg.CMP_LIMIT.VALUE c.val) ≤ (s.cmp c.val).emitted + 1 then 0 else s.get (Reg.CMP_STAT.OPEN c.val)) ∧
            u.get (Reg.CMP_PULSES.PULSES c.val) = (s.get (Reg.CMP_PULSES.PULSES c.val) + 1) % 2 ^ (Reg.CMP_PULSES.PULSES c.val).width) ∧
        (s.pinsLive = false → Completes (.cmpCtrlPulse t c) s fun u => u = s.written t) ∧
        (∀ e, s.pinsLive = true → (s.cmp c.val).pulse = some e ∨ ((s.cmp c.val).pulse = none ∧ (s.cmp c.val).lastEnd = some e) → t.toNat < e + 20 →
          Completes (.cmpCtrlPulse t c) s fun u =>
            u.get (Reg.CMP_SKIP.DROPS c.val) = satU (Reg.CMP_SKIP.DROPS c.val).width (s.get (Reg.CMP_SKIP.DROPS c.val) + 1) ∧
            u = { s.written t with regs := u.regs, raised := u.raised } ∧ ∀ a, a ≠ Reg.CMP_SKIP c.val → u.word a = (s.written t).word a) ∧
        ∀ (r : Fin 6) (v : Word), Completes (.cmpValueWrite t c r v) s fun u =>
          u.cmp c.val = { s.cmp c.val with writes := (s.cmp c.val).writes ++ [(cmpWriteAddr c.val r, s.mergeRw (cmpWriteAddr c.val r) v.toNat)] } ∧
          (∀ j, j ≠ c.val → u.cmp j = s.cmp j) ∧ u = { s.written t with cmps := u.cmps }) ∧
      (∀ (i : Nat) (rest : List Nat), (s.cmp c.val).points = i :: rest → i ≤ t.toNat → (s.at t).dueActs = [] → s.on (Reg.CMP_STAT.ARMED c.val) = true →
        s.on (Reg.CMP_STAT.OPEN c.val) = false → s.cmpS c.val ≠ 0 →
        Completes (.comparePoint t c) s fun u => (u.cmp c.val).points = rest ∧ u.get (Reg.CMP_PULSES.PULSES c.val) = s.get (Reg.CMP_PULSES.PULSES c.val) ∧
          u.cmpV c.val = wrapS 64 (if s.on (Reg.CMP_CFG.DIR c.val) then s.cmpV c.val - s.cmpS c.val else s.cmpV c.val + s.cmpS c.val)) ∧
      (∀ (i : Nat) (rest : List Nat), (s.cmp c.val).points = i :: rest → i ≤ t.toNat → (s.at t).dueActs = [] → s.on (Reg.CMP_STAT.ARMED c.val) = true →
        s.on (Reg.CMP_STAT.OPEN c.val) = true → s.pinsLive = true → (∀ e, (s.cmp c.val).pulse = some e → e + 20 ≤ i) →
        (∀ e, (s.cmp c.val).pulse = none → (s.cmp c.val).lastEnd = some e → e + 20 ≤ i) →
        Completes (.comparePoint t c) s fun u => (u.cmp c.val).points = rest ∧ (u.cmp c.val).pulse = some (i + s.cmpWidth c.val) ∧
          u.get (Reg.CMP_PULSES.PULSES c.val) = (s.get (Reg.CMP_PULSES.PULSES c.val) + 1) % 2 ^ (Reg.CMP_PULSES.PULSES c.val).width ∧
          (s.cmpS c.val = 0 → u.on (Reg.CMP_STAT.ARMED c.val) = false)) ∧
      (∀ (i : Nat) (rest : List Nat), (s.cmp c.val).points = i :: rest → i ≤ t.toNat →
        Completes (.comparePoint t c) s fun u => u = (((s.at t).modCmp c.val fun x => { x with points := rest }).takeActs i).cmpPoint c.val i) ∧
      ((s.cmp c.val).points = [] ∨ (∃ i rest, (s.cmp c.val).points = i :: rest ∧ t.toNat < i) → Completes (.comparePoint t c) s fun u => u = s.at t) ∧
      (∀ e : Nat, (s.cmp c.val).pulse = some e → e ≤ t.toNat → Completes (.comparePulseEnd t c) s fun u =>
        u.cmp c.val = { s.cmp c.val with pulse := none, lastEnd := some e, pin := s.on (Reg.CMP_CFG.POL c.val) } ∧
        (∀ j, j ≠ c.val → u.cmp j = s.cmp j) ∧ u = { s.at t with cmps := u.cmps }) ∧
      ((s.cmp c.val).pulse = none ∨ (∃ e, (s.cmp c.val).pulse = some e ∧ t.toNat < e) → Completes (.comparePulseEnd t c) s fun u => u = s.at t)) ∧
  (∀ (s : State) (t : Time) (k : Fin 4), s.Ready t →
      (s.get Reg.DPX_STAT.ROLE = 0 →
        Completes (.emuAlign t k) s (fun u => u.emu k.val = { s.emu k.val with align := true } ∧ (∀ j, j ≠ k.val → u.emu j = s.emu j) ∧
          u = { s.written t with emus := u.emus }) ∧
        Completes (.emuCfgWrite t k 2 0) s (Raises (Reg.EMU_STAT.CFG_REFUSED k.val) (s.written t)) ∧
        ∀ (r : Fin 4) (v : Word), (r.val = 2 → v ≠ 0) → Completes (.emuCfgWrite t k r v) s fun u =>
          u.emu k.val = { s.emu k.val with writes := (s.emu k.val).writes ++ [(emuWriteAddr k.val r, s.mergeRw (emuWriteAddr k.val r) v.toNat)] } ∧
          (∀ j, j ≠ k.val → u.emu j = s.emu j) ∧ u = { s.written t with emus := u.emus }) ∧
      (∀ (i : Nat) (rest : List Nat), (s.emu k.val).steps = i :: rest → i ≤ t.toNat → s.pinsLive = true → Completes (.emuStep t k) s fun u =>
        u.word (Reg.EMU_OUT k.val) = (if (s.emu k.val).up then (s.word (Reg.EMU_OUT k.val) + 1) % 2 ^ 32 else (s.word (Reg.EMU_OUT k.val) + 2 ^ 32 - 1) % 2 ^ 32) ∧
        ((u.emu k.val).pinA, (u.emu k.val).pinB, (u.emu k.val).pinZ) = s.emuLevels k.val (u.word (Reg.EMU_OUT k.val)) ∧
        (u.emu k.val).steps = rest ∧ (∀ j, j ≠ k.val → u.emu j = s.emu j) ∧ (∀ a, a ≠ Reg.EMU_OUT k.val → u.word a = s.word a) ∧
        u = { s.at t with regs := u.regs, emus := u.emus }) ∧
      ((s.emu k.val).steps = [] ∨ s.pinsLive = false ∨ (∃ i rest, (s.emu k.val).steps = i :: rest ∧ t.toNat < i) →
        Completes (.emuStep t k) s fun u => u = s.at t))
/-! ### Reads of lower halves, self-test -/

/-- A read of the lower half of a value wider than a word (R23, R25, R44, R187, R213, R245, R264, R300, R342, R355) holds the words that belong to it, so that the
whole value is of one instant: the cycle number, the TSC and the TSC of the cycle-start, positions of lines, axes and local encoders, the serial of a
node, a shoal's line reference, a narrows' passing line, the safety signature, the federation's numbers, the time of a time domain, and its snapshot. Commands that complete: cycleLoRead, tscLoRead, cycleTscLoRead, linePosLoRead, fbPosLoRead, encCntLoRead, nodeSerialLoRead, shLrefLoRead, nrwPassLoRead, safeSigLoRead, fedLoRead, tdSecLoRead, tdSnapTscLoRead. -/
def Obligations.LowerHalvesAreReadWithTheRest : Prop :=
  ∀ (s : State) (t : Time) (udp : Bool), s.Ready t →
    ReadsHalf (.cycleLoRead t udp) s t udp Reg.CYCLE_LO [s.dev.cycle.toNat % 2 ^ 32, s.dev.cycle.toNat / 2 ^ 32] ∧
    ReadsHalf (.tscLoRead t udp) s t udp Reg.TSC_LO [t.toNat % 2 ^ 32, t.toNat / 2 ^ 32] ∧
    ReadsHalf (.cycleTscLoRead t udp) s t udp Reg.CYCLE_TSC_LO [s.dev.cycleTsc % 2 ^ 32, s.dev.cycleTsc / 2 ^ 32 % 2 ^ 32] ∧
    (∀ k : Fin 8, ReadsHalf (.linePosLoRead t udp k) s t udp (Reg.LINE_POS_LO k.val) (s.wordsFrom (Reg.LINE_POS_LO k.val) 2)) ∧
    (∀ (a : Fin 256) (r : Fin 4) (x : Nat), [Reg.FB_POS_LO a.val, Reg.FB_UPOS_LO a.val, Reg.FB_IDX_LO a.val, Reg.FB_PRESET_LO a.val][r.val]? = some x →
      ReadsHalf (.fbPosLoRead t udp a r) s t udp x (s.wordsFrom x 2)) ∧
    (∀ (k : Fin 8) (r : Fin 2) (x : Nat), [Reg.ENC_CNT_LO k.val, Reg.ENC_IDX_LO k.val][r.val]? = some x →
      ReadsHalf (.encCntLoRead t udp k r) s t udp x (s.wordsFrom x 2)) ∧
    (∀ (k : Fin 16) (n : Fin 25), ReadsHalf (.nodeSerialLoRead t udp k n) s t udp (Reg.NODE_SERIAL_LO k.val n.val)
      (s.wordsFrom (Reg.NODE_SERIAL_LO k.val n.val) 2)) ∧
    (∀ k : Fin 256, ReadsHalf (.shLrefLoRead t udp k) s t udp (Reg.SH_LREF_LO k.val) (s.wordsFrom (Reg.SH_LREF_LO k.val) 2)) ∧
    (∀ n : Fin 128, ReadsHalf (.nrwPassLoRead t udp n) s t udp (Reg.NRW_PASS_LO n.val) (s.wordsFrom (Reg.NRW_PASS_LO n.val) 2)) ∧
    (∀ (r : Fin 2) (x : Nat), [Reg.SAFE_SIG_LO, Reg.SAFE_CONF_LO][r.val]? = some x → ReadsHalf (.safeSigLoRead t udp r) s t udp x (s.wordsFrom x 2)) ∧
    (∀ (r : Fin 3) (x : Nat), [Reg.FED_CYC_LO, Reg.FED_OFS_LO, Reg.FED_CYC_BASE_LO][r.val]? = some x →
      ReadsHalf (.fedLoRead t udp r) s t udp x (s.wordsFrom x 2)) ∧
    (∀ d : Fin 4, ReadsHalf (.tdSecLoRead t udp d) s t udp (Reg.TD_SEC_LO d.val)
      [(secNs (s.tdAt d.val t.toNat)).1 % 2 ^ 32, (secNs (s.tdAt d.val t.toNat)).1 / 2 ^ 32 % 2 ^ 32, (secNs (s.tdAt d.val t.toNat)).2]) ∧
    ∀ d : Fin 4, ReadsHalf (.tdSnapTscLoRead t udp d) s t udp (Reg.TD_SNAP_TSC_LO d.val) (s.wordsFrom (Reg.TD_SNAP_TSC_LO d.val) 5)
/-! ### The ring (chapter 09) -/

/-- What a ring master takes from the wire (R192, R194, R198, R209). A cycle-start that returns well formed within 12 µs, the first on its port and of this cycle, gives the port its loop delay, of which
the maximum is kept, and over 6 000 ns the ring is over its budget; a spoilt one leaves the port the delay of the last cycle; a late, second or foreign one does nothing. A response belongs to the slot
whose expected start is nearest; 33 ns or more before that start, or 49 ns or more after it, it is out of its window, counted and logged; inside the window a spoilt one is counted, and an axis
response that agrees gives its axis the uplink. A slot whose windows close without a response is missing. A unit that is not the ring master of its pair is a node of its rings (R195, R196, R206,
R302). It acts on the first cycle-start of the master in a ring cycle: the cycle number and the instant of the next one follow. What comes in at a port leaves by the other, unaltered; by the same, a
cycle-start turned back with RETURN, where the other is in loop-back; and an ENUM or PROBE poll of its acting port with HOPS altered. The ring master, and a ring that is not enabled, forward nothing.
A link that goes down puts the port of a node into loop-back and has it send remote fault; a link that comes up ends the remote fault. Commands that complete: cycleStartReturn, responseReceive,
slotWindowClose, frameForward, ringLinkDown, ringLinkUp. -/
def Obligations.RingMastersJudgeWhatReturns : Prop :=
  (
    ∀ (s : State) (t : Time) (k : Fin 16), s.Ready t →
      (∀ (b clean : Bool) (frame : List Byte), (s.ring k.val).cur = none → Completes (.cycleStartReturn t k b frame clean) s fun u => u = s.at t) ∧
      (∀ (b clean : Bool) (frame : List Byte) (c : RingCyc), (s.ring k.val).cur = some c →
        (12000 < t.toNat - c.start ∨ (if b then c.okB else c.okA) = true ∨ (frameOk 18 (natBytes frame) clean = true ∧ leAt (natBytes frame) 0 8 ≠ c.cycle) →
          Completes (.cycleStartReturn t k b frame clean) s fun u => u = s.at t) ∧
        (t.toNat - c.start ≤ 12000 → (if b then c.okB else c.okA) = false → frameOk 18 (natBytes frame) clean = true → leAt (natBytes frame) 0 8 = c.cycle →
          Completes (.cycleStartReturn t k b frame clean) s fun u =>
            (∃ c', (u.ring k.val).cur = some c' ∧ (if b then c'.cB else c'.cA) = some (t.toNat - c.start) ∧ (if b then c'.okB else c'.okA) = true ∧
              c'.thru = (c.thru || !bitAt (leAt (natBytes frame) 8 1) 6) ∧ (b = true → c'.ret0 = (c.ret0 || !bitAt (leAt (natBytes frame) 8 1) 6)) ∧
              c'.table = c.table ∧ c'.accepted = c.accepted) ∧
            u.get (if b then Reg.RING_LOOP_B.MAX k.val else Reg.RING_LOOP_A.MAX k.val) =
              max (s.get (if b then Reg.RING_LOOP_B.MAX k.val else Reg.RING_LOOP_A.MAX k.val)) (t.toNat - c.start) ∧
            u.on (Reg.RING_STAT.OVER_BUDGET k.val) = (s.on (Reg.RING_STAT.OVER_BUDGET k.val) || decide (6000 < t.toNat - c.start)) ∧
            (∀ m, (s.ring k.val).recloseAt = some m → (u.ring k.val).recloseAt =
              if b = true ∧ bitAt (leAt (natBytes frame) 8 1) 6 = false ∧ s.dev.cycle.toNat = m + 1 then none else some m) ∧
            (∀ j, j ≠ k.val → u.ring j = s.ring j) ∧ u.axes = s.axes ∧ u.nodes = s.nodes) ∧
        (t.toNat - c.start ≤ 12000 → (if b then c.okB else c.okA) = false → frameOk 18 (natBytes frame) clean = false →
          Completes (.cycleStartReturn t k b frame clean) s fun u =>
            (u.ring k.val).cur = some (if b then { c with cB := (s.ring k.val).lastB } else { c with cA := (s.ring k.val).lastA }) ∧
            (∀ j, j ≠ k.val → u.ring j = s.ring j) ∧ u = { s.at t with rings := u.rings })) ∧
      (∀ (b clean : Bool) (frame : List Byte), (s.at t).slotOfArrival k.val b = none → Completes (.responseReceive t k b frame clean) s fun u => u = s.at t) ∧
      (∀ (b clean : Bool) (frame : List Byte) (c : RingCyc) (i e : Nat), (s.at t).slotOfArrival k.val b = some (c, i) → c.expected b i = some e →
        (s.slotNode k.val i c = none ∨ (c.accepted.contains i = true ∧ entKind (c.table.getD i 0) ≠ 3) →
          Completes (.responseReceive t k b frame clean) s fun u => u = s.at t) ∧
        ∀ n : Nat, s.slotNode k.val i c = some n → c.accepted.contains i = false ∨ entKind (c.table.getD i 0) = 3 →
        (t.toNat + 32 < e ∨ e + 48 < t.toNat → Completes (.responseReceive t k b frame clean) s fun u =>
          u = ((if n < 25 then (s.at t).addSat (Reg.NODE_CNT.EDGE k.val n) 1 else s.at t).modCyc k.val c.cycle fun c => { c with edges := c.edges ++ [n] }).log
            (Src.ring k.val) Ev.SLOT_EDGE (i + 256 * n + 65536 * b2n b) (ux 32 ((t.toNat : Int) - e))) ∧
        (∀ ok, ok = (frameOk 50 (natBytes frame) clean &&
            agrees (natBytes frame) i (entKind (c.table.getD i 0)) n (s.anyNode k.val (entKind (c.table.getD i 0))) c) →
          e ≤ t.toNat + 32 → t.toNat ≤ e + 48 →
          (ok = false → n < 25 → Completes (.responseReceive t k b frame clean) s
            (Sets (Reg.NODE_CNT.CRC k.val n) (min (s.get (Reg.NODE_CNT.CRC k.val n) + 1) (2 ^ (Reg.NODE_CNT.CRC k.val n).width - 1)) (s.at t))) ∧
          (ok = false → 25 ≤ n → Completes (.responseReceive t k b frame clean) s fun u => u = s.at t) ∧
          (ok = true → Completes (.responseReceive t k b frame clean) s fun u =>
            u = ((s.at t).acceptSlot k.val b i c (natBytes frame)).settle k.val ∧
            (entKind (c.table.getD i 0) = 1 → (u.axis (entAxis (c.table.getD i 0))).uplink = some (parseUplink (natBytes frame)) ∧
              (u.axis (entAxis (c.table.getD i 0))).uplinkAt = t.toNat)))) ∧
      (∀ i : Fin 32, (s.at t).openCyc k.val i.val = none → Completes (.slotWindowClose t k i) s fun u => u = s.at t) ∧
      (∀ (i : Fin 32) (c : RingCyc), (s.at t).openCyc k.val i.val = some c → Completes (.slotWindowClose t k i) s fun u =>
        c.closeAt i.val ≤ t.toNat ∧ c.accepted.contains i.val = false ∧ u = ((s.at t).closeSlot k.val i.val c).settle k.val)) ∧ (
    ∀ (s : State) (t : Time) (k : Fin 16) (b clean : Bool) (frame : List Byte), s.Ready t →
      (s.isNode = false ∨ s.on (Reg.RING_CFG.EN k.val) = false → Completes (.frameForward t k b frame clean) s fun u => u = s.at t) ∧
      (s.isNode = true → s.on (Reg.RING_CFG.EN k.val) = true → frameOk 18 (natBytes frame) clean = true →
        leAt (natBytes frame) 10 1 = roleActive → bitAt (leAt (natBytes frame) 8 1) 6 = false →
        tget none s.dpx.heard k.val = none → s.follows = true →
        Completes (.frameForward t k b frame clean) s fun u =>
          tget none u.dpx.heard k.val = some (leAt (natBytes frame) 0 8, t.toNat, b) ∧ u.dev.cycle.toNat = leAt (natBytes frame) 0 8 ∧
          u.dev.nextCycle = t.toNat - tget 0 s.dpx.delays k.val + 15625 ∧ u.word (Reg.RING_MUTE k.val) = leAt (natBytes frame) 12 4) ∧
      (s.isNode = true → s.on (Reg.RING_CFG.EN k.val) = true → s.dpx.silenced = false → (s.ring k.val).probeLoop = none →
        (frameOk 18 (natBytes frame) clean = false → frameOk 38 (natBytes frame) clean = false → ((s.ring k.val).port (!b)).looped = false →
          Completes (.frameForward t k b frame clean) s fun u => (u.ring k.val).forwarded = some (!b, natBytes frame)) ∧
        (frameOk 18 (natBytes frame) clean = true → s.follows = true → ((s.ring k.val).port (!b)).looped = false →
          Completes (.frameForward t k b frame clean) s fun u => (u.ring k.val).forwarded = some (!b, natBytes frame)) ∧
        (frameOk 18 (natBytes frame) clean = true → s.follows = true → (s.ring k.val).cur = none → ((s.ring k.val).port (!b)).looped = true →
          Completes (.frameForward t k b frame clean) s fun u => (u.ring k.val).forwarded = some (b, setReturn (natBytes frame))) ∧
        (∀ cyc i : Nat, frameOk 38 (natBytes frame) clean = true → s.acted k.val = some (cyc, i, b) → ((s.ring k.val).port (!b)).looped = false →
          Completes (.frameForward t k b frame clean) s fun u => (u.ring k.val).forwarded =
            some (!b, if s.hopPoll k.val (natBytes frame) then alterHops (natBytes frame) else natBytes frame))) ∧
      (s.isNode = false →
        Completes (.ringLinkDown t k b) s (Sets (if b then Reg.RING_STAT.LINK_B k.val else Reg.RING_STAT.LINK_A k.val) 0 (s.at t)) ∧
        Completes (.ringLinkUp t k b) s (Sets (if b then Reg.RING_STAT.LINK_B k.val else Reg.RING_STAT.LINK_A k.val) 1 (s.at t))) ∧
      (s.isNode = true →
        Completes (.ringLinkDown t k b) s (fun u => u.linkUp k.val b = false ∧ (u.ring k.val).port b = { looped := true, remoteFault := true, upRun := 0 } ∧
          (u.ring k.val).port (!b) = (s.ring k.val).port (!b) ∧ (∀ j, j ≠ k.val → u.ring j = s.ring j) ∧
          u = { s.at t with regs := u.regs, rings := u.rings } ∧ ∀ x, x ≠ Reg.RING_STAT k.val → u.word x = s.word x) ∧
        Completes (.ringLinkUp t k b) s fun u => u.linkUp k.val b = true ∧
          (u.ring k.val).port b = { (s.ring k.val).port b with remoteFault := false, upRun := 0 } ∧
          (u.ring k.val).port (!b) = (s.ring k.val).port (!b) ∧ (∀ j, j ≠ k.val → u.ring j = s.ring j) ∧
          u = { s.at t with regs := u.regs, rings := u.rings } ∧ ∀ x, x ≠ Reg.RING_STAT k.val → u.word x = s.word x))

/-- Rings change by bring-up, by muting and by the host (R199, R207, R213). RING_RECLOSE and RING_UNMUTE wait for a cycle-start. A node is muted on request unless it is
so already, and by the third ring cycle in a row with a response out of its window, or with every slot missing where no landing is released: its axes find a fault of cause 3. A cycle-start
that did not return folds a ring that sends on one port. RING_CLR clears the maxima and the counters of the nodes. Commands that complete: ringFold, nodeMuted, ringReclose, ringUnmute, ringMute, ringClr. -/
def Obligations.RingsAreMutedFoldedAndCleared : Prop :=
  (∀ (s : State) (t : Time) (k : Fin 16), s.Ready t →
    ((s.ring k.val).unreturned = true → (s.ring k.val).both = false → s.ringMode k.val = ringClosed → Completes (.ringFold t k) s fun u =>
      u.ringMode k.val = ringFolded ∧ (u.ring k.val).both = true ∧ (u.ring k.val).unreturned = false ∧ (u.ring k.val).healed = false ∧
      (u.ring k.val).recloseAt = none ∧ (∀ j, j ≠ k.val → u.ring j = s.ring j) ∧
      u = { s.at t with regs := u.regs, rings := u.rings } ∧ ∀ x, x ≠ Reg.RING_STAT k.val → u.word x = s.word x) ∧
    ((s.ring k.val).unreturned = true → (s.ring k.val).both = false → s.ringMode k.val = ringStarting → Completes (.ringFold t k) s fun u =>
      (u.ring k.val).both = true ∧ (u.ring k.val).unreturned = false ∧ (∀ j, j ≠ k.val → u.ring j = s.ring j) ∧ u = { s.at t with rings := u.rings }) ∧
    ((s.ring k.val).unreturned = false ∨ (s.ring k.val).both = true ∨ (s.ringMode k.val ≠ ringClosed ∧ s.ringMode k.val ≠ ringStarting) →
      Completes (.ringFold t k) s fun u => u = s.at t) ∧
    (∀ n : Fin 24, s.ringMode k.val = ringOff ∨ s.addressed k.val n.val = false ∨ s.nodeMuted k.val n.val = true ∨
        (s.ring k.val).reqMute.contains n.val = true →
      Completes (.nodeMuted t k n) s fun u => u = s.at t) ∧
    ∀ n : Fin 24, s.ringMode k.val ≠ ringOff → s.addressed k.val n.val = true → s.nodeMuted k.val n.val = false →
      (s.ring k.val).reqMute.contains n.val = false →
      (∀ r, (3 ≤ (s.node k.val n.val).edgeRun ∧ r = 1) ∨ ((s.node k.val n.val).edgeRun < 3 ∧ 3 ≤ (s.node k.val n.val).missRun ∧
          ((s.node k.val n.val).landing = false ∨ ∃ a ∈ s.nodeAxes k.val n.val, s.axState a ≠ axOff) ∧ r = 2) →
        Completes (.nodeMuted t k n) s fun u => u.get (Reg.NODE_INFO.MUTE_REASON k.val n.val) = r ∧
          (u.ring k.val).reqMute = (s.ring k.val).reqMute ++ [n.val] ∧
          (∀ a ∈ s.nodeAxes k.val n.val, s.axState a ≠ axFault → (u.axis a).faultDue = some ((s.axis a).faultDue.getD 3)) ∧
          u = (s.at t).muteNode k.val n.val r) ∧
      ((s.node k.val n.val).edgeRun < 3 → (s.node k.val n.val).missRun < 3 ∨
          ((s.node k.val n.val).landing = true ∧ ∀ a ∈ s.nodeAxes k.val n.val, s.axState a = axOff) →
        Completes (.nodeMuted t k n) s fun u => u = s.at t)) ∧
  ∀ (s : State) (t : Time) (k : Fin 16), s.HostReady t →
    Completes (.ringReclose t k) s (fun u => u.ring k.val = { s.ring k.val with reqReclose := true } ∧ (∀ j, j ≠ k.val → u.ring j = s.ring j) ∧
      u = { s.written t with rings := u.rings }) ∧
    (∀ n : Fin 32, Completes (.ringUnmute t k n) s fun u =>
      u.ring k.val = { s.ring k.val with reqUnmute := (s.ring k.val).reqUnmute ++ [n.val] } ∧ (∀ j, j ≠ k.val → u.ring j = s.ring j) ∧
      u = { s.written t with rings := u.rings }) ∧
    (∀ n : Fin 32, 24 ≤ n.val ∨ s.nodeMuted k.val n.val = true ∨ (s.ring k.val).reqMute.contains n.val = true →
      Completes (.ringMute t k n) s fun u => u = s.written t) ∧
    (∀ n : Fin 32, n.val < 24 → s.nodeMuted k.val n.val = false → (s.ring k.val).reqMute.contains n.val = false →
      Completes (.ringMute t k n) s fun u => u.get (Reg.NODE_INFO.MUTE_REASON k.val n.val) = 3 ∧
        (u.ring k.val).reqMute = (s.ring k.val).reqMute ++ [n.val] ∧
        (∀ a ∈ s.nodeAxes k.val n.val, s.axState a ≠ axFault → (u.axis a).faultDue = some ((s.axis a).faultDue.getD 3)) ∧
        u = (s.written t).muteNode k.val n.val 3) ∧
    Completes (.ringClr t k) s (fun u => u.get (Reg.RING_LOOP_A.MAX k.val) = 0 ∧ u.get (Reg.RING_LOOP_B.MAX k.val) = 0 ∧
      (∀ n < 25, u.word (Reg.NODE_CNT k.val n) = 0) ∧ u = { s.written t with regs := u.regs } ∧
      ∀ x, x ≠ Reg.RING_LOOP_A k.val → x ≠ Reg.RING_LOOP_B k.val → (∀ n < 25, x ≠ Reg.NODE_CNT k.val n) → u.word x = (s.written t).word x)

/-- Schedules, landings (R201, R202, R203, R205, R225). A requested swap waits for the next cycle-start. There it is refused with the first reason that holds and its lowest slot, and the table stays; or
the shadow becomes the active table and TBL_GEN goes up, or, where the slots of an addressed node change, the ASSIGNs go out first, for which 64 ring cycles are the limit. A claimed landing whose node
is gone while its axes are OFF is released at the next cycle-start: its entries are LANDING entries again, its address is free. Service transactions and bring-up (R195, R210, R211, R213). One
transaction of the host is accepted at a time, with an address on the ring and a length that fits; it enters the SERVICE slots where none is in them and waits otherwise; its end gives its status, and
a READ its data. The bring-up of a ring that sends begins the enumeration of each origin in use; an answer from a hop that the image lists has its node assigned and the next hop asked; a hop that goes
unanswered ends the origin; and the node takes its address in the ring cycle that its ASSIGN named. Commands that complete: ringSwap, swapExecute, swapTimeout, landingReleased, svcRead, svcWrite,
serviceTransactionEnd, ringBringUp. -/
def Obligations.SchedulesSwapAndTransactionsEnd : Prop :=
  (
    (∀ (s : State) (t : Time) (k : Fin 16), s.HostReady t →
      (s.on (Reg.RSCHED_STAT.SWAP_PENDING k.val) = false → Completes (.ringSwap t k) s fun u =>
        u.on (Reg.RSCHED_STAT.SWAP_PENDING k.val) = true ∧ (u.ring k.val).swapAt = some (s.dev.cycle.toNat + 1) ∧
        (u.ring k.val).assigned = false ∧ (u.ring k.val).assigns = [] ∧ (∀ j, j ≠ k.val → u.ring j = s.ring j) ∧
        u = { s.written t with regs := u.regs, rings := u.rings } ∧ ∀ x, x ≠ Reg.RSCHED_STAT k.val → u.word x = (s.written t).word x) ∧
      (s.on (Reg.RSCHED_STAT.SWAP_PENDING k.val) = true → Completes (.ringSwap t k) s fun u => u = s.written t)) ∧
    ∀ (s : State) (t : Time) (k : Fin 16), s.Ready t →
      ((s.ring k.val).swapAt = none ∨ (∃ c, (s.ring k.val).swapAt = some c ∧ (t.toNat < s.dev.nextCycle ∨ s.dev.cycle.toNat + 1 < c)) →
        Completes (.swapExecute t k) s fun u => u = s.at t) ∧
      (∀ c, (s.ring k.val).swapAt = some c → s.dev.nextCycle ≤ t.toNat → c ≤ s.dev.cycle.toNat + 1 →
        (∀ r i, ((s.at t).freeMuted k.val).swapRefusal k.val = some (r, i) → Completes (.swapExecute t k) s fun u =>
          u.on (Reg.RSCHED_STAT.SWAP_REFUSED k.val) = true ∧ u.get (Reg.RSCHED_STAT.REASON k.val) = r ∧ u.get (Reg.RSCHED_STAT.SLOT k.val) = i ∧
          u.on (Reg.RSCHED_STAT.SWAP_PENDING k.val) = false ∧ u.activeTable k.val = s.activeTable k.val ∧ u.shadowTable k.val = s.shadowTable k.val) ∧
        (((s.at t).freeMuted k.val).swapRefusal k.val = none →
          ((s.at t).freeMuted k.val).swapChanges k.val = [] ∨ ((s.ring k.val).assigned = true ∧ (s.ring k.val).assigns = []) →
          Completes (.swapExecute t k) s fun u => u.activeTable k.val = s.shadowTable k.val ∧ u.shadowTable k.val = s.shadowTable k.val ∧
            u.get (Reg.RING_STAT.TBL_GEN k.val) = (s.get (Reg.RING_STAT.TBL_GEN k.val) + 1) % 256 ∧
            u.on (Reg.RSCHED_STAT.SWAP_PENDING k.val) = false ∧ (u.ring k.val).swapAt = none) ∧
        (((s.at t).freeMuted k.val).swapRefusal k.val = none → ∀ p l, ((s.at t).freeMuted k.val).swapChanges k.val = p :: l →
          (s.ring k.val).assigned = false ∨ (s.ring k.val).assigns ≠ [] →
          Completes (.swapExecute t k) s fun u => (u.ring k.val).swapAt = some (s.dev.cycle.toNat + 9) ∧ (u.ring k.val).assigns = p :: l ∧
            (u.ring k.val).assigned = true ∧ u.activeTable k.val = s.activeTable k.val ∧ u.shadowTable k.val = s.shadowTable k.val)) ∧
      ((s.ring k.val).assigns = [] ∨ (s.ring k.val).swapAt = none ∨ s.dev.cycle.toNat < (s.ring k.val).swapFrom + 64 →
        Completes (.swapTimeout t k) s fun u => u = s.at t) ∧
      ((s.ring k.val).assigns ≠ [] → (s.ring k.val).swapAt.isSome = true → (s.ring k.val).swapFrom + 64 ≤ s.dev.cycle.toNat →
        Completes (.swapTimeout t k) s fun u => u.on (Reg.RSCHED_STAT.SWAP_REFUSED k.val) = true ∧ u.get (Reg.RSCHED_STAT.REASON k.val) = 5 ∧
          u.on (Reg.RSCHED_STAT.SWAP_PENDING k.val) = false ∧ (u.ring k.val).swapAt = none ∧ u.activeTable k.val = s.activeTable k.val) ∧
      (∀ n : Fin 24, (s.node k.val n.val).missRun < 3 ∨ (s.node k.val n.val).landing = false ∨ (∃ a ∈ s.nodeAxes k.val n.val, s.axState a ≠ axOff) →
        Completes (.landingReleased t k n) s fun u => u = s.at t) ∧
      (∀ n : Fin 24, (s.node k.val n.val).landing = true → 3 ≤ (s.node k.val n.val).missRun →
        (∀ a ∈ s.nodeAxes k.val n.val, s.axState a = axOff) → Completes (.landingReleased t k n) s fun u =>
          u.node k.val n.val = { s.node k.val n.val with release := true } ∧ (∀ j m, (j, m) ≠ (k.val, n.val) → m < 32 → u.node j m = s.node j m) ∧
          u = { s.at t with nodes := u.nodes }) ∧
      ∀ n : Fin 24, (s.node k.val n.val).release = true →
        (s.releaseLanding k.val n.val).addressed k.val n.val = false ∧ (s.releaseLanding k.val n.val).word (Reg.NODE_SERIAL_LO k.val n.val) = 0 ∧
        (∀ i ∈ nodeSlots (s.activeTable k.val) n.val, entKind ((s.releaseLanding k.val n.val).word (Reg.SCHED_ACT k.val i)) = 3 ∧
          (s.releaseLanding k.val n.val).word (Reg.SCHED_SHD k.val i) = (s.releaseLanding k.val n.val).word (Reg.SCHED_ACT k.val i)) ∧
        ∀ a ∈ s.nodeAxes k.val n.val, (s.releaseLanding k.val n.val).on (Reg.LIFE_STAT.ACCEPTED a) = false) ∧ (
    (∀ (s : State) (t : Time) (k : Fin 16) (tag : BitVec 16) (node : Fin 32) (len : Fin 64), s.HostReady t →
        ((s.ring k.val).hostTxn.isSome = true → ∀ c ∈ [Instr.svcRead t k tag node len, .svcWrite t k tag node len], Completes c s fun u =>
          u.get (Reg.SVC_RESULT.TAG k.val) = tag.toNat ∧ u.get (Reg.SVC_RESULT.STATUS k.val) = 5 ∧ u = { s.written t with regs := u.regs }) ∧
        ((s.ring k.val).hostTxn = none → ∀ c : Instr × Nat, c ∈ [(Instr.svcRead t k tag node len, 32), (.svcWrite t k tag node len, 24)] →
          25 ≤ node.val ∨ len.val = 0 ∨ c.2 < len.val →
          Completes c.1 s fun u => u.get (Reg.SVC_RESULT.TAG k.val) = tag.toNat ∧ u.get (Reg.SVC_RESULT.STATUS k.val) = 4 ∧
            u = { s.written t with regs := u.regs }) ∧
        ((s.ring k.val).hostTxn = none → (s.ring k.val).txn = none → (s.ring k.val).ownTxns = [] → node.val < 25 → len.val ≠ 0 →
          (len.val ≤ 32 → Completes (.svcRead t k tag node len) s fun u => u.get (Reg.SVC_RESULT.STATUS k.val) = 0 ∧
            ∃ x, (u.ring k.val).txn = some x ∧ x.owner = .host ∧ x.op = 1 ∧ x.node = node.val ∧ x.len = len.val ∧ x.tag = tag.toNat ∧
              x.addr = s.word (Reg.SVC_ADDR k.val) ∧ x.since = some t.toNat) ∧
          (len.val ≤ 24 → Completes (.svcWrite t k tag node len) s fun u => u.get (Reg.SVC_RESULT.STATUS k.val) = 0 ∧
            ∃ x, (u.ring k.val).txn = some x ∧ x.owner = .host ∧ x.op = 2 ∧ x.node = node.val ∧ x.len = len.val ∧ x.tag = tag.toNat ∧
              x.data.length = len.val ∧ x.addr = s.word (Reg.SVC_ADDR k.val) ∧ x.since = some t.toNat)) ∧
        ((s.ring k.val).hostTxn = none → (s.ring k.val).txn.isSome = true → node.val < 25 → len.val ≠ 0 →
          ∀ c : Instr × Nat, c ∈ [(Instr.svcRead t k tag node len, 32), (.svcWrite t k tag node len, 24)] → len.val ≤ c.2 →
          Completes c.1 s fun u => u.get (Reg.SVC_RESULT.STATUS k.val) = 0 ∧ (u.ring k.val).txn = (s.ring k.val).txn ∧
            ∃ x, (u.ring k.val).hostTxn = some x ∧ x.since = none ∧ x.node = node.val ∧ x.len = len.val)) ∧
    ∀ (s : State) (t : Time) (k : Fin 16), s.Ready t →
      (s.svcOutcome k.val = none → Completes (.serviceTransactionEnd t k) s fun u => u = s.at t) ∧
      (∀ st nst x, s.svcOutcome k.val = some (st, nst) → (s.ring k.val).txn = some x → x.owner = .host → x.len ≤ 32 → (s.ring k.val).ownTxns = [] →
        Completes (.serviceTransactionEnd t k) s fun u => (u.ring k.val).txn = none ∧ (u.ring k.val).hostTxn = none ∧
          u.get (Reg.SVC_RESULT.TAG k.val) = x.tag % 65536 ∧ u.get (Reg.SVC_RESULT.STATUS k.val) = st ∧ (∀ j, j ≠ k.val → u.ring j = s.ring j) ∧
          ∀ d, x.resp = some (0, d) → x.op = 1 → ∀ w < (x.len + 3) / 4, u.word (Reg.SVC_DATA k.val w) = leAt (d.take x.len) (4 * w) 4 % 2 ^ 32) ∧
      (∀ (x : Txn) (o h : Nat) (d : List Nat) (m : NodeMap), (s.ring k.val).txn = some x → x.owner = .enum o h → x.resp = some (0, d) →
        (s.img.nodeMaps.find? fun m => m.ring == k.val && m.origin == o && m.hop == h) = some m → m.node < 25 →
        s.addressed k.val m.node = false → s.serialInUse (leAt d 0 8) k.val m.node = false → h < 0xFE →
        (s.ring k.val).hostTxn = none → (s.ring k.val).ownTxns = [] →
        Completes (.serviceTransactionEnd t k) s fun u => (u.ring k.val).ownTxns = [enumTxn o (h + 1)] ∧
          ∃ y g, (u.ring k.val).txn = some y ∧ y.op = 4 ∧ y.owner = .give g ∧ y.since = some t.toNat ∧ g.node = m.node ∧ g.serial = leAt d 0 8 ∧
            g.typ = leAt d 8 2 ∧ g.origin = o ∧ g.hop = h ∧ g.slots = m.slots) ∧
      (∀ (x : Txn) (o h : Nat), (s.ring k.val).txn = some x → x.owner = .enum o h → x.op = 3 → x.resp = none → 3 ≤ x.tries →
        Completes (.serviceTransactionEnd t k) s fun u => (u.ring k.val).enumsEnded = (s.ring k.val).enumsEnded ++ [o]) ∧
      (∀ g : Give, (s.ring k.val).gives = [g] → g.node < 25 → g.serial < 2 ^ 64 → g.hop < 256 → g.origin < 2 → g.typ < 65536 →
        (g.cycle ≤ s.dev.cycle.toNat → (s.takeGives k.val).addressed k.val g.node = true ∧ (s.takeGives k.val).nodeSerial k.val g.node = g.serial ∧
          (s.takeGives k.val).get (Reg.NODE_INFO.HOP k.val g.node) = g.hop ∧ (s.takeGives k.val).get (Reg.NODE_INFO.ORIGIN k.val g.node) = g.origin ∧
          (s.takeGives k.val).get (Reg.NODE_INFO.TYPE k.val g.node) = g.typ) ∧
        (s.dev.cycle.toNat < g.cycle → (s.takeGives k.val).word (Reg.NODE_INFO k.val g.node) = s.word (Reg.NODE_INFO k.val g.node))) ∧
      (s.on (Reg.RING_CFG.EN k.val) = false ∨ s.ringMode k.val = ringOff → Completes (.ringBringUp t k) s fun u => u = s.at t) ∧
      (s.on (Reg.RING_CFG.EN k.val) = true → s.ringMode k.val ≠ ringOff → Completes (.ringBringUp t k) s fun u =>
        (∀ o ∈ s.origins k.val, o ∈ (u.ring k.val).enums) ∧ (∀ j, j ≠ k.val → u.ring j = s.ring j) ∧ u = { s.at t with rings := u.rings } ∧
        ((s.ring k.val).enums = [] → (s.ring k.val).txn = none → (s.ring k.val).hostTxn = none → (s.ring k.val).ownTxns = [] →
          (u.ring k.val).txn = some { enumTxn 0 0 with since := some t.toNat })))

/-! ### Safety (chapter 13) -/

/-- Channel B's own causes of a stop (R10, R267, R269, R271, R278–R280, R428). A lost tap of an axis that is not OFF, the end of SS1_T, a self-supervision fault, a diode at 125 °C or more, a missing
report and a halt of channel A demand STO or an SS1; below 125 °C only the reading changes, and OVERTEMP ends below 110 °C; a sample of the governor touches none of it. With VDD_SAFE gone STO stands on every group and the
latches are lost. Commands that complete: tapLost, ss1Timeout, stoReadbackFault, clockDisagreement, stoTestPulse, temperatureTrip, temperatureTripClear, governorSample,
reportMissing, vddSafeLoss, lockstepMismatch. -/
def Obligations.ChannelBDemandsStops : Prop :=
  (∀ (s : State) (t : Time), s.tsc.toNat ≤ t.toNat →
    (∀ a : Fin 256, 64 ≤ (s.tap a.val).missed → s.reportedOn a.val = true →
      Completes (.tapLost t a) s (Demanded 14 true (2 ^ s.ringOf a.val) a.val (s.at t))) ∧
    (∀ a : Fin 256, (s.tap a.val).missed < 64 ∨ s.reportedOn a.val = false → Completes (.tapLost t a) s fun u => u = s.at t) ∧
    (∀ (k : Fin 16) (t0 cause : Nat), tget none s.chb.ss1 k.val = some (t0, cause) →
      (t0 + s.get (Reg.GRP_CFG.SS1_T k.val) * 1000000 ≤ t.toNat → Completes (.ss1Timeout t k) s (Demanded 11 true (2 ^ k.val) noOne (s.at t))) ∧
      (t.toNat < t0 + s.get (Reg.GRP_CFG.SS1_T k.val) * 1000000 → Completes (.ss1Timeout t k) s fun u => u = s.at t)) ∧
    (∀ k : Fin 16, tget none s.chb.ss1 k.val = none → Completes (.ss1Timeout t k) s fun u => u = s.at t) ∧
    (∀ (k : Fin 16) (lane : Bool), ∀ c ∈ [Instr.stoReadbackFault t k lane, .clockDisagreement t], Completes c s fun u =>
      u.chb.faulted = true ∧ u.get Reg.SAFE_STAT.B_STATE = 2 ∧ ∃ v : State, v.chb = { s.chb with faulted := true } ∧ Demanded 17 true allGroups noOne v u) ∧
    (∀ (k : Fin 16) (lane : Bool), s.stoOn k.val = false → Completes (.stoTestPulse t k lane false) s fun u =>
      u.chb.faulted = true ∧ u.get Reg.SAFE_STAT.B_STATE = 2 ∧ ∃ v : State, v.chb = { s.chb with faulted := true } ∧ Demanded 17 true allGroups noOne v u) ∧
    (∀ (k : Fin 16) (lane ok : Bool), s.stoOn k.val = true ∨ ok = true → Completes (.stoTestPulse t k lane ok) s fun u => u = s.at t) ∧
    (∀ tj : BitVec 16, 8000 ≤ sx 16 tj.toNat → Completes (.temperatureTrip t tj) s fun u =>
      u.on Reg.SAFE_STAT.OVERTEMP = true ∧ u.get Reg.CHB_STAT.TJ = tj.toNat ∧ ∃ v : State, v.chb = s.chb ∧ Demanded 18 true allGroups noOne v u) ∧
    (∀ tj : BitVec 16, sx 16 tj.toNat < 8000 → Completes (.temperatureTrip t tj) s (Sets Reg.CHB_STAT.TJ tj.toNat (s.at t))) ∧
    (∀ tj : BitVec 16, sx 16 tj.toNat < 7040 → Completes (.temperatureTripClear t tj) s fun u =>
      u.on Reg.SAFE_STAT.OVERTEMP = false ∧ u.get Reg.CHB_STAT.TJ = tj.toNat ∧ u = { s.at t with regs := u.regs }) ∧
    (∀ tj : BitVec 16, 7040 ≤ sx 16 tj.toNat → Completes (.temperatureTripClear t tj) s (Sets Reg.CHB_STAT.TJ tj.toNat (s.at t))) ∧
    (∀ temps power, Completes (.governorSample t temps power) s fun u => u.chb = s.chb ∧
      ∀ a ∈ [Reg.STO_STAT, Reg.SAFE_STAT, Reg.CHB_STAT], u.word a = s.word a) ∧
    (∀ t0, s.chb.arrivedAt = some t0 → t0 + 1100000 ≤ t.toNat → Completes (.reportMissing t) s fun u =>
      u.chb.valid = false ∧ u.chb.failures = s.chb.failures + 1 ∧
      u.chb.lastCount = none ∧ ∃ v : State,
        v.chb = { s.chb with valid := false, failures := s.chb.failures + 1, arrivedAt := some t.toNat, lastCount := none } ∧
        Demanded 15 false allGroups noOne v u) ∧
    (s.chb.arrivedAt = none ∨ (∃ t0, s.chb.arrivedAt = some t0 ∧ t.toNat < t0 + 1100000) → Completes (.reportMissing t) s fun u => u = s.at t) ∧
    Completes (.vddSafeLoss t) s fun u => u.get Reg.STO_STAT.STO = 0xFFFF ∧ u.get Reg.SAFE_STAT.B_STATE = 0 ∧
      u.chb = { ChB.init with confirmed := s.chb.confirmed, lastSig := s.chb.lastSig }) ∧
  ∀ (s : State) (t : Time), s.Ready t →
    (s.get Reg.SAFE_STAT.A_STATE ≠ 3 → Completes (.lockstepMismatch t true) s fun u => u.cha.report = none ∧ u.get Reg.SAFE_STAT.A_STATE = 3 ∧
      ∃ v : State, v.chb = s.chb ∧ Demanded 16 false allGroups noOne v u) ∧
    (s.get Reg.SAFE_STAT.A_STATE ≠ 3 → Completes (.lockstepMismatch t false) s fun u => u.cha.report = none ∧ u.get Reg.SAFE_STAT.A_STATE = 3 ∧
      u.chb = s.chb) ∧
    (s.get Reg.SAFE_STAT.A_STATE = 3 → ∀ w, Completes (.lockstepMismatch t w) s fun u => u = s.at t)

/-- The safety inputs (R271, R273, R275, R276, R288). An accepted level shows in its lane; an input with a function is closed where both lanes are high and no fault stands. With one lane of a closed emergency-stop input low the input is open and every group stops. A reset input
that opens after 0.1 s to 5 s clears the latches whose cause is gone; a confirmation input that opens after 2 s to 10 s in REDUCED confirms the signature. A discrepancy that lasts longer than DISC_T is a fault of
cause 1; a second failed test pulse in a row is one of cause 2, 3 or 4. Commands that complete: safetyInputChange, inputDiscrepancy, testPulse. -/
def Obligations.SafetyInputsStop : Prop :=
  ∀ (s : State) (t : Time) (i : Fin 8), s.tsc.toNat ≤ t.toNat →
    (∀ laneB level : Bool, s.get (Reg.IN_CFG.FUNC i.val) = 0 → Completes (.safetyInputChange t i laneB level) s
      (Sets (if laneB then Reg.IN_STAT.LANE_B i.val else Reg.IN_STAT.LANE_A i.val) (b2n level) (s.at t))) ∧
    (∀ laneB level : Bool, s.get (Reg.IN_CFG.FUNC i.val) ≠ 0 → Completes (.safetyInputChange t i laneB level) s fun u =>
      u.on (if laneB then Reg.IN_STAT.LANE_B i.val else Reg.IN_STAT.LANE_A i.val) = level ∧
      u.get (if laneB then Reg.IN_STAT.LANE_A i.val else Reg.IN_STAT.LANE_B i.val) = s.get (if laneB then Reg.IN_STAT.LANE_A i.val else Reg.IN_STAT.LANE_B i.val) ∧
      u.on (Reg.IN_STAT.CLOSED i.val) = (u.on (Reg.IN_STAT.LANE_A i.val) && u.on (Reg.IN_STAT.LANE_B i.val) && !u.on (Reg.IN_STAT.FAULT i.val))) ∧
    (∀ laneB : Bool, s.get (Reg.IN_CFG.FUNC i.val) = 1 → s.on (Reg.IN_STAT.FAULT i.val) = false → s.on (Reg.IN_STAT.CLOSED i.val) = true →
      s.on (Reg.IN_STAT.LANE_A i.val) = true → s.on (Reg.IN_STAT.LANE_B i.val) = true →
      Completes (.safetyInputChange t i laneB false) s fun u => u.on (Reg.IN_STAT.CLOSED i.val) = false ∧
        u.on (if laneB then Reg.IN_STAT.LANE_B i.val else Reg.IN_STAT.LANE_A i.val) = false ∧
        u.get (Reg.IN_STAT.OPENINGS i.val) = (s.get (Reg.IN_STAT.OPENINGS i.val) + 1) % 65536 ∧
        ∀ k < 16, (∀ d ∈ s.chb.demands, d.cause = 1 → d.who = i.val → bitAt d.groups k = false) →
          (∃ d ∈ u.chb.demands, d.cause = 1 ∧ d.who = i.val ∧ d.sto = !s.on (Reg.IN_CFG.STOP i.val) ∧ bitAt d.groups k = true) ∧
          (s.on (Reg.IN_CFG.STOP i.val) = false → u.stoOn k = true)) ∧
    (∀ laneB : Bool, s.get (Reg.IN_CFG.FUNC i.val) ≠ 0 → s.on (Reg.IN_STAT.FAULT i.val) = false → s.on (Reg.IN_STAT.CLOSED i.val) = false →
      s.on (if laneB then Reg.IN_STAT.LANE_A i.val else Reg.IN_STAT.LANE_B i.val) = true →
      Completes (.safetyInputChange t i laneB true) s fun u => u.on (Reg.IN_STAT.CLOSED i.val) = true ∧ (u.input i.val).closedAt = some t.toNat ∧
        u.chb.demands = s.chb.demands) ∧
    (∀ (laneB : Bool) (t0 : Nat), s.on (Reg.IN_STAT.FAULT i.val) = false → s.on (Reg.IN_STAT.CLOSED i.val) = true → (s.input i.val).closedAt = some t0 →
      (s.get (Reg.IN_CFG.FUNC i.val) = 3 → t0 + 100000000 ≤ t.toNat → t.toNat ≤ t0 + 5000000000 → (∀ d ∈ s.chb.demands, s.presentFor d = 0) →
        Completes (.safetyInputChange t i laneB false) s fun u => u.chb.demands = [] ∧ u.word Reg.STO_LATCH = 0) ∧
      (s.get (Reg.IN_CFG.FUNC i.val) = 4 → t0 + 2000000000 ≤ t.toNat → t.toNat ≤ t0 + 10000000000 → s.devState = devReduced →
        s.on Reg.SAFE_STAT.SIG_AGREED = true → s.on Reg.DEV_STATE.COMMISSION_CONFIRMED = false →
        Completes (.safetyInputChange t i laneB false) s fun u => u.chb.confirmed = s.word64 Reg.SAFE_SIG_LO ∧
          u.on Reg.DEV_STATE.COMMISSION_CONFIRMED = true ∧ u.word64 Reg.SAFE_CONF_LO = s.word64 Reg.SAFE_SIG_LO ∧ u.chb.demands = s.chb.demands)) ∧
    ((s.input i.val).splitAt = none ∨ s.get (Reg.IN_CFG.FUNC i.val) = 0 ∨ s.on (Reg.IN_STAT.FAULT i.val) = true ∨
        (∃ t0, (s.input i.val).splitAt = some t0 ∧ t.toNat ≤ t0 + s.get (Reg.IN_TIME.DISC_T i.val) * 1000000) →
      Completes (.inputDiscrepancy t i) s fun u => u = s.at t) ∧
    (∀ t0, (s.input i.val).splitAt = some t0 → s.get (Reg.IN_CFG.FUNC i.val) ≠ 0 → t0 + s.get (Reg.IN_TIME.DISC_T i.val) * 1000000 < t.toNat →
      s.on (Reg.IN_STAT.FAULT i.val) = false → Completes (.inputDiscrepancy t i) s fun u =>
        u.on (Reg.IN_STAT.FAULT i.val) = true ∧ u.get (Reg.IN_STAT.FCAUSE i.val) = 1 ∧ u.on (Reg.IN_STAT.CLOSED i.val) = false) ∧
    (∀ laneB o p : Bool, s.get (Reg.IN_CFG.FUNC i.val) = 0 ∨ s.on (Reg.IN_CFG.TP_EN i.val) = false → Completes (.testPulse t i laneB o p) s fun u => u = s.at t) ∧
    (s.get (Reg.IN_CFG.FUNC i.val) ≠ 0 → s.on (Reg.IN_CFG.TP_EN i.val) = true → ∀ laneB : Bool,
      Completes (.testPulse t i laneB true false) s (fun u =>
        u.input i.val = (if laneB then { s.input i.val with failB := 0 } else { s.input i.val with failA := 0 }) ∧ u.regs = s.regs) ∧
      (∀ n, n = (if laneB then (s.input i.val).failB else (s.input i.val).failA) → n = 0 ∨ s.on (Reg.IN_STAT.FAULT i.val) = true →
        ∀ o p : Bool, o = false ∨ p = true → Completes (.testPulse t i laneB o p) s fun u =>
          u.input i.val = (if laneB then { s.input i.val with failB := n + 1 } else { s.input i.val with failA := n + 1 }) ∧ u.regs = s.regs) ∧
      (1 ≤ (if laneB then (s.input i.val).failB else (s.input i.val).failA) → s.on (Reg.IN_STAT.FAULT i.val) = false →
        ∀ o p : Bool, o = false ∨ p = true → Completes (.testPulse t i laneB o p) s fun u => u.on (Reg.IN_STAT.FAULT i.val) = true ∧
          u.on (Reg.IN_STAT.CLOSED i.val) = false ∧ u.get (Reg.IN_STAT.FCAUSE i.val) = if p then 4 else if laneB then 3 else 2))

/-- The channels and the safety connections (R269, R272, R279, R281, R289–R295, R339). A report that agrees makes channel B valid, and with no demand left STO is released of the groups of enabled rings; one with a bad CRC, out of the count or late counts as missing; one that disagrees is counted, and the second in a row stops every group. The end of an evaluation
shows its time. A message of a connection counts as a CRC error, a format error or a sequence error, is dropped where it repeats, starts a connection over, or is accepted; three sequence errors in a row and a connection that waits too long time out, at a servo boundary; a produced one sends its message, of a
PERSON connection one for each slot, on the ports it names. Commands that complete: channelAReport, chaEvaluationDone, safetyMessageReceive, safeConnTimeout, safetyMessageSend. -/
def Obligations.ReportsAndSafetyMessages : Prop :=
  (∀ (s : State) (t : Time), s.Ready t →
    (s.cha.report = none → ∀ a b c d, Completes (.channelAReport t a b c d) s fun u => u = s.at t) ∧
    (s.chb.ready = false → ∀ a b c d, Completes (.channelAReport t a b c d) s fun u => u = { s.at t with cha := { s.cha with report := none } }) ∧
    (∀ (r : Report) (onTime moved : Bool), s.cha.report = some r → s.chb.ready = true →
      (onTime = true ↔ (∀ t0, s.chb.arrivedAt = some t0 → t.toNat ≤ t0 + 1100000) ∧ ∀ n, s.chb.lastCount = some n → r.count = (n + 1) % 65536) →
      (moved = true ↔ ∃ a ∈ s.img.axisIds, s.movedOff a = true ∧ s.stoOn (s.ringOf a) = false ∧ s.groupOff r (s.ringOf a) = true) →
      (∀ a b c d, a = false ∨ onTime = false → Completes (.channelAReport t a b c d) s fun u =>
        u.chb.valid = false ∧ u.chb.failures = s.chb.failures + 1 ∧ u.chb.lastCount = none ∧ u.cha.report = none ∧
        u.get Reg.CHB_STAT.REPORT_MISS = min (s.get Reg.CHB_STAT.REPORT_MISS + 1) 255) ∧
      (∀ b c d, onTime = true → b = false ∨ c = false ∨ d = false ∨ moved = true → Completes (.channelAReport t true b c d) s fun u =>
        u.chb.valid = false ∧ u.chb.failures = s.chb.failures + 1 ∧ u.chb.mismatches = s.chb.mismatches + 1 ∧ u.chb.lastCount = some r.count ∧
        u.cha.report = none ∧ u.get Reg.CHB_STAT.XCHK_MISMATCH = min (s.get Reg.CHB_STAT.XCHK_MISMATCH + 1) 255 ∧
        (s.chb.mismatches = 0 → u.chb.demands = s.chb.demands) ∧
        (1 ≤ s.chb.mismatches → ∀ k < 16, ∃ x ∈ u.chb.demands, x.cause = 15 ∧ bitAt x.groups k = true)) ∧
      (onTime = true → moved = false → Completes (.channelAReport t true true true true) s fun u =>
        u.chb.valid = true ∧ u.chb.report = some r ∧ u.chb.mismatches = 0 ∧ u.chb.failures = 0 ∧ u.chb.arrivedAt = some t.toNat ∧
        u.chb.lastCount = some r.count ∧ u.cha.report = none ∧
        (s.chb.demands = [] → s.chb.faulted = false → s.on Reg.SAFE_STAT.SIG_AGREED = true → r.state = devReduced ∨ r.state = devAutomatic →
          (∀ j, tget none s.chb.ss1 j = none) → ∀ k < 16, s.on (Reg.RING_CFG.EN k) = true → u.stoOn k = false))) ∧
    (s.cha.capturedAt = none ∨ s.cha.done = true ∨ s.chaRuns = false → Completes (.chaEvaluationDone t) s fun u => u = s.at t) ∧
    (∀ t0, s.cha.capturedAt = some t0 → s.cha.done = false → s.chaRuns = true → Completes (.chaEvaluationDone t) s fun u =>
      u.cha = { s.cha with done := true } ∧ u.get Reg.CHA_STAT.EVAL_LAST = min ((t.toNat - t0) / 1000) 65535 ∧
      u.get Reg.CHA_STAT.EVAL_PEAK = max (min ((t.toNat - t0) / 1000) 65535) (s.get Reg.CHA_STAT.EVAL_PEAK) ∧ u = { s.at t with regs := u.regs, cha := u.cha })) ∧
  ∀ (s : State) (t : Time) (c : Fin 64), s.Ready t →
    (∀ (port : Fin 3) (msg : List Byte),
      (s.chaRuns = false ∨ s.takesInputs = false ∨ s.on (Reg.CONN_CFG.VALID c.val) = false ∨ s.on (Reg.CONN_CFG.DIR c.val) = true ∨
        s.connPort c.val port.val = false → Completes (.safetyMessageReceive t c port msg) s fun u => u = s.at t) ∧
      (s.chaRuns = true → s.takesInputs = true → s.on (Reg.CONN_CFG.VALID c.val) = true → s.on (Reg.CONN_CFG.DIR c.val) = false →
        s.connPort c.val port.val = true →
        (msgOk (s.word (Reg.CONN_ID c.val)) (natBytes msg) = false → Completes (.safetyMessageReceive t c port msg) s fun u =>
          u.get (Reg.CONN_ERR.CRC c.val) = min (s.get (Reg.CONN_ERR.CRC c.val) + 1) 255 ∧ u.word (Reg.CONN_STAT c.val) = s.word (Reg.CONN_STAT c.val)) ∧
        (msgOk (s.word (Reg.CONN_ID c.val)) (natBytes msg) = true →
          (leAt (natBytes msg) 6 1 ≠ connLen (s.get (Reg.CONN_CFG.KIND c.val)) ∨ leAt (natBytes msg) 7 1 ≠ 0 →
            Completes (.safetyMessageReceive t c port msg) s fun u =>
              u.get (Reg.CONN_ERR.FORMAT c.val) = min (s.get (Reg.CONN_ERR.FORMAT c.val) + 1) 255 ∧ u.word (Reg.CONN_STAT c.val) = s.word (Reg.CONN_STAT c.val)) ∧
          (∀ q g, q = leAt (natBytes msg) 4 2 → g = (q + 65536 - s.get (Reg.CONN_STAT.SEQ c.val)) % 65536 →
            leAt (natBytes msg) 6 1 = connLen (s.get (Reg.CONN_CFG.KIND c.val)) → leAt (natBytes msg) 7 1 = 0 →
            (s.get (Reg.CONN_STAT.STATE c.val) = conValid → g = 0 → Completes (.safetyMessageReceive t c port msg) s fun u => u = s.at t) ∧
            (s.get (Reg.CONN_STAT.STATE c.val) = conValid → s.get (Reg.CONN_CFG.SEQ_WIN c.val) < g → (s.conn c.val).seqErrs < 2 →
              Completes (.safetyMessageReceive t c port msg) s fun u => u.get (Reg.CONN_ERR.SEQ c.val) = min (s.get (Reg.CONN_ERR.SEQ c.val) + 1) 255 ∧
                u.get (Reg.CONN_STAT.STATE c.val) = conValid ∧ (u.conn c.val).seqErrs = (s.conn c.val).seqErrs + 1 ∧ u.chb = s.chb) ∧
            (s.get (Reg.CONN_STAT.STATE c.val) = conValid → g ≠ 0 → s.get (Reg.CONN_CFG.SEQ_WIN c.val) < g → 2 ≤ (s.conn c.val).seqErrs →
              Completes (.safetyMessageReceive t c port msg) s fun u => u.get (Reg.CONN_ERR.SEQ c.val) = min (s.get (Reg.CONN_ERR.SEQ c.val) + 1) 255 ∧
                u.get (Reg.CONN_STAT.STATE c.val) = conTimedOut) ∧
            (s.get (Reg.CONN_STAT.STATE c.val) ≠ conValid → (∀ n t0, (s.conn c.val).cand = some (n, t0) →
                q ≠ (n + 1) % 65536 ∨ t0 + s.get (Reg.CONN_TIME.EXPECT c.val) * 1000000 < t.toNat) →
              Completes (.safetyMessageReceive t c port msg) s fun u =>
                u.get (Reg.CONN_STAT.STATE c.val) = conStarting ∧ (u.conn c.val).cand = some (q, t.toNat)) ∧
            ((s.get (Reg.CONN_STAT.STATE c.val) = conValid ∧ g ≠ 0 ∧ g ≤ s.get (Reg.CONN_CFG.SEQ_WIN c.val)) ∨
                (s.get (Reg.CONN_STAT.STATE c.val) ≠ conValid ∧ ∃ n t0, (s.conn c.val).cand = some (n, t0) ∧ q = (n + 1) % 65536 ∧
                  t.toNat ≤ t0 + s.get (Reg.CONN_TIME.EXPECT c.val) * 1000000) →
              Completes (.safetyMessageReceive t c port msg) s fun u => u.get (Reg.CONN_STAT.STATE c.val) = conValid ∧
                u.get (Reg.CONN_STAT.SEQ c.val) = q ∧ (u.conn c.val).at' = t.toNat ∧ (u.conn c.val).seqErrs = 0 ∧
                (s.get (Reg.CONN_CFG.KIND c.val) = 0 →
                  ∃ m : PersonMsg, u.sep.persons = s.sep.persons ++ [m] ∧ m.conn = c.val ∧ m.data = ((natBytes msg).drop 8).take 64) ∧
                (s.get (Reg.CONN_CFG.KIND c.val) ≠ 0 → ∀ d, d = ((natBytes msg).drop 8).take (leAt (natBytes msg) 6 1) →
                  (u.conn c.val).permits = some (leAt d 0 2, leAt d 2 2) ∧ (u.conn c.val).reset = bitAt (leAt d 4 1) 0)))))) ∧
    ((s.at t).atServo = false ∨ s.chaRuns = false ∨ s.get (Reg.CONN_STAT.STATE c.val) ≠ conValid ∨
        t.toNat < (s.conn c.val).at' + s.get (Reg.CONN_TIME.EXPECT c.val) * 1000000 →
      Completes (.safeConnTimeout t c) s fun u => u = s.at t) ∧
    ((s.at t).atServo = true → s.chaRuns = true → s.get (Reg.CONN_STAT.STATE c.val) = conValid →
      (s.conn c.val).at' + s.get (Reg.CONN_TIME.EXPECT c.val) * 1000000 ≤ t.toNat →
      (s.get (Reg.CONN_CFG.KIND c.val) ≠ 0 → Completes (.safeConnTimeout t c) s fun u => ∃ v : State,
        v.get (Reg.CONN_STAT.STATE c.val) = conTimedOut ∧ v.get (Reg.CONN_ERR.TIMEOUTS c.val) = min (s.get (Reg.CONN_ERR.TIMEOUTS c.val) + 1) 255 ∧
        v.chb = s.chb ∧ Demanded 5 (s.on (Reg.CONN_CFG.TO_STOP c.val)) (s.get (Reg.CONN_CFG.GROUPS c.val)) c.val v u) ∧
      (s.get (Reg.CONN_CFG.KIND c.val) = 0 → Completes (.safeConnTimeout t c) s fun u => u.get (Reg.CONN_STAT.STATE c.val) = conTimedOut ∧
        u.get (Reg.CONN_ERR.TIMEOUTS c.val) = min (s.get (Reg.CONN_ERR.TIMEOUTS c.val) + 1) 255 ∧ u.chb = s.chb)) ∧
    (s.chaRuns = false ∨ s.on (Reg.CONN_CFG.VALID c.val) = false ∨ s.on (Reg.CONN_CFG.DIR c.val) = false ∨
        t.toNat < (s.conn c.val).at' + s.get (Reg.CONN_TIME.SEND_T c.val) * 1000000 →
      Completes (.safetyMessageSend t c) s fun u => u = s.at t) ∧
    (s.chaRuns = true → s.on (Reg.CONN_CFG.VALID c.val) = true → s.on (Reg.CONN_CFG.DIR c.val) = true →
      (s.conn c.val).at' + s.get (Reg.CONN_TIME.SEND_T c.val) * 1000000 ≤ t.toNat →
      ∀ (q : Nat) (l : List (List Nat)), q = (match (s.conn c.val).cand with
          | some x => x.1
          | none => 0) → q < 65536 →
        l = (if s.get (Reg.CONN_CFG.KIND c.val) = 0
          then (List.range (s.connSlots c.val).length).map fun i => safetyMsg (s.word (Reg.CONN_ID c.val)) (q + i) (s.personData ((s.connSlots c.val).getD i 0) i)
          else [safetyMsg (s.word (Reg.CONN_ID c.val)) q s.statusData]) →
      Completes (.safetyMessageSend t c) s fun u => (u.conn c.val).at' = t.toNat ∧ u.get (Reg.CONN_STAT.STATE c.val) = conSending ∧
        (u.conn c.val).cand = some ((q + l.length) % 65536, 0) ∧ u.get (Reg.CONN_STAT.SEQ c.val) = (q + l.length + 65535) % 65536 ∧
        (s.takesInputs = true → (u.conn c.val).sent = l.flatten ∧ u.fed.safety = (if s.on (Reg.CONN_CFG.DORLU c.val) then s.fed.safety ++ l else s.fed.safety) ∧
          u.ethOut = (if s.on (Reg.CONN_CFG.E0 c.val) then l.map fun m => ⟨0, 10, beBytes 2 (s.get (Reg.CONN_UDP.PORT c.val)) ++ m⟩ else []) ++
            (if s.on (Reg.CONN_CFG.E1 c.val) then l.map fun m => ⟨1, 10, beBytes 2 (s.get (Reg.CONN_UDP.PORT c.val)) ++ m⟩ else [])) ∧
        (s.takesInputs = false → (u.conn c.val).sent = (s.conn c.val).sent ∧ u.ethOut = s.ethOut ∧ u.fed = s.fed))
/-! ### Cartridges, separation, narrows (chapters 10–12) -/

/-- Cartridges keep their records (R219–R221, R224). Once the records of a node have been read, a rejected identity record leaves the axes of its node without a cartridge and is logged; an accepted one is the node's, and its axes carry
its serial. A due life record, by ten minutes of ON_TIME or by a disable of an axis, is written with its sequence number and its count of writes one higher, into the slot the number gives, in SERVICE transactions, where the credit of six writes in 60 minutes allows it,
and waits otherwise; a returned credit lets it go. Once its transactions have ended, a read-back that agrees ends the write, a first one that does not repeats it into the next slot, a second is given up. Commands that complete: identityAccept, lifeWriteDue,
lifeCreditReturn, lifeRecordWrite. -/
def Obligations.CartridgesKeepTheirRecords : Prop :=
  ∀ (s : State) (t : Time) (k : Fin 16) (n : Fin 24), s.Ready t →
    (s.addressed k.val n.val = false ∨ (s.node k.val n.val).readDone = false → Completes (.identityAccept t k n) s fun u => u = s.at t) ∧
    (∀ rec : List Nat, s.addressed k.val n.val = true → (s.node k.val n.val).readDone = true → rec = (s.node k.val n.val).readBuf.take 256 →
      (s.identityReason k.val n.val rec ≠ 0 →
        Completes (.identityAccept t k n) s fun u =>
          (∀ a ∈ s.nodeAxes k.val n.val, u.on (Reg.LIFE_STAT.ACCEPTED a) = false ∧ u.on (Reg.DRV_STAT.PWM_SET a) = false) ∧
          u.node k.val n.val = { s.node k.val n.val with readDone := false, readBuf := [] } ∧
          (∀ j m, nodeKey j m ≠ nodeKey k.val n.val → u.node j m = s.node j m) ∧
          u = ((forEach (s.nodeAxes k.val n.val) State.dropAxis (s.at t)).modNode k.val n.val fun x => { x with readDone := false, readBuf := [] }).log
            (s.nodeSrc k.val n.val) Ev.IDENTITY_REJECTED (s.identityReason k.val n.val rec) (leAt rec 8 8 % 2 ^ 32)) ∧
      (s.identityReason k.val n.val rec = 0 →
        Completes (.identityAccept t k n) s fun u => (u.node k.val n.val).ident = rec ∧ (u.node k.val n.val).readDone = false ∧
          (∀ a ∈ s.nodeAxes k.val n.val, u.on (Reg.LIFE_STAT.ACCEPTED a) = true ∧ u.word (Reg.LIFE_SERIAL a) = leAt rec 8 8 % 2 ^ 32) ∧
          (s.nodeAxes k.val n.val ≠ [] → (u.node k.val n.val).pwmQ = 1 ∧ (u.node k.val n.val).pwmS = 1) ∧
          ∀ j m, nodeKey j m ≠ nodeKey k.val n.val → (u.node j m).ident = (s.node j m).ident ∧ (u.node j m).life = (s.node j m).life)) ∧
    ((s.node k.val n.val).ident = [] ∨ ((s.node k.val n.val).life.onTime < (s.node k.val n.val).onLast + 600 ∧
        ∀ a ∈ s.lifeDue, a ∉ s.nodeAxes k.val n.val) →
      Completes (.lifeWriteDue t k n) s fun u => u = s.at t) ∧
    ((s.node k.val n.val).ident ≠ [] →
      (s.node k.val n.val).onLast + 600 ≤ (s.node k.val n.val).life.onTime ∨ (∃ a ∈ s.lifeDue, a ∈ s.nodeAxes k.val n.val) →
      ((s.node k.val n.val).writing = none → (s.at t).credit k.val n.val ≠ 0 → Completes (.lifeWriteDue t k n) s fun u =>
        (∃ w, (u.node k.val n.val).writing = some w ∧ w.record.seq = ((s.node k.val n.val).life.seq + 1) % 2 ^ 32 ∧ w.slot = w.record.seq % 32 ∧
          w.record.writes = ((s.node k.val n.val).life.writes + 1) % 2 ^ 32 ∧ w.again = false ∧ (u.node k.val n.val).due = false ∧
          ((s.ring k.val).txn = none → (s.ring k.val).hostTxn = none → (s.ring k.val).ownTxns = [] →
            (u.ring k.val).txn = some { lifeTxn n.val 0 w with since := some t.toNat })) ∧
        (∀ a ∈ u.lifeDue, a ∉ s.nodeAxes k.val n.val) ∧ ∀ j m, nodeKey j m ≠ nodeKey k.val n.val → u.node j m = s.node j m) ∧
      ((s.node k.val n.val).writing.isSome = true ∨ (s.at t).credit k.val n.val = 0 → Completes (.lifeWriteDue t k n) s fun u =>
        u.node k.val n.val = { s.node k.val n.val with due := true } ∧ (∀ a ∈ u.lifeDue, a ∉ s.nodeAxes k.val n.val) ∧
        ∀ j m, nodeKey j m ≠ nodeKey k.val n.val → u.node j m = s.node j m)) ∧
    ((s.node k.val n.val).history = [] → Completes (.lifeCreditReturn t k n) s fun u => u = s.at t) ∧
    (∀ w rest, (s.node k.val n.val).history = w :: rest →
      (t.toNat < w + 3600000000000 → Completes (.lifeCreditReturn t k n) s fun u => u = s.at t) ∧
      (w + 3600000000000 ≤ t.toNat → (s.node k.val n.val).due = false ∨ (s.node k.val n.val).writing.isSome = true →
        Completes (.lifeCreditReturn t k n) s fun u =>
          u.node k.val n.val = { s.node k.val n.val with history := rest } ∧ ∀ j m, nodeKey j m ≠ nodeKey k.val n.val → u.node j m = s.node j m) ∧
      (w + 3600000000000 ≤ t.toNat → (s.node k.val n.val).due = true → (s.node k.val n.val).writing = none → rest.length < 6 →
        Completes (.lifeCreditReturn t k n) s fun u =>
          (∃ x, (u.node k.val n.val).writing = some x ∧ x.record.seq = ((s.node k.val n.val).life.seq + 1) % 2 ^ 32 ∧ x.slot = x.record.seq % 32) ∧
          (u.node k.val n.val).due = false ∧ (u.node k.val n.val).history = rest ++ [t.toNat] ∧
          ∀ j m, nodeKey j m ≠ nodeKey k.val n.val → u.node j m = s.node j m)) ∧
    ((s.node k.val n.val).writing = none ∨ (∃ w, (s.node k.val n.val).writing = some w ∧ w.ended = false) →
      Completes (.lifeRecordWrite t k n) s fun u => u = s.at t) ∧
    ∀ w : LifeWrite, (s.node k.val n.val).writing = some w → w.ended = true →
      (w.back = w.record.bytes ∨ w.again = true →
        ((s.node k.val n.val).due = false → Completes (.lifeRecordWrite t k n) s fun u =>
          u.node k.val n.val = { s.node k.val n.val with writing := none, life := { (s.node k.val n.val).life with seq := w.record.seq, writes := w.record.writes } } ∧
          ∀ j m, nodeKey j m ≠ nodeKey k.val n.val → u.node j m = s.node j m) ∧
        ((s.node k.val n.val).due = true → (s.at t).credit k.val n.val ≠ 0 → Completes (.lifeRecordWrite t k n) s fun u =>
          ∃ x, (u.node k.val n.val).writing = some x ∧ x.record.seq = (w.record.seq + 1) % 2 ^ 32 ∧ x.again = false)) ∧
      (w.back ≠ w.record.bytes → w.again = false → Completes (.lifeRecordWrite t k n) s fun u =>
        (∃ x, (u.node k.val n.val).writing = some x ∧ x.record.seq = (w.record.seq + 1) % 2 ^ 32 ∧ x.slot = x.record.seq % 32 ∧ x.again = true) ∧
        (u.node k.val n.val).history = (s.node k.val n.val).history ∧ ∀ j m, nodeKey j m ≠ nodeKey k.val n.val → u.node j m = s.node j m)

/-- The separation engine and the narrows (R234, R239, R245, R254, R255, R258, R259). A failed pipe leaves the working ones, a spare enters for it, and with fewer than 64 left the engine is degraded. ACTIVE of a
declared shoal waits for the servo boundary. A narrows held for WD orphans with cause 2 and its local owner stops, at the servo boundary at which the time is noted or at the next one. A release waits for the servo boundary. Commands that complete: pipeFault,
zoneWatchdog, shoalActiveWrite, sepClrPeak, nrwRel. -/
def Obligations.PipesShoalsAndNarrows : Prop :=
  (∀ (s : State) (t : Time), s.Ready t →
    (∀ p : Fin 72, s.sep.pipes.contains p.val = false → Completes (.pipeFault t p) s fun u => u = s.at t) ∧
    (∀ p : Fin 72, s.sep.pipes.contains p.val = true → Completes (.pipeFault t p) s fun u =>
      u.sep.pipes = s.sep.pipes.filter (· != p.val) ∧ u.sep.spares = s.sep.spares.drop 1 ∧
      u.sep.entering = s.sep.entering ++ s.sep.spares.head?.toList ∧ bitAt (u.word (Reg.PIPE_OUT (p.val / 32))) (p.val % 32) = true ∧
      u.on Reg.SEP_STAT.DEGRADED = decide (s.sep.pipes.length < 65)) ∧
    ∀ n : Fin 128,
      (s.on (Reg.NRW_CFG.VALID n.val) = false ∨ s.isProxy n.val = true ∨ (s.nrwState n.val ≠ nrwGranted ∧ s.nrwState n.val ≠ nrwPassing) ∨ s.get (Reg.NRW_CFG.WD n.val) = 0 ∨
          t.toNat < (s.nrw n.val).grantAt + s.get (Reg.NRW_CFG.WD n.val) * 1000000 →
        Completes (.zoneWatchdog t n) s fun u => u = s.at t) ∧
      (s.on (Reg.NRW_CFG.VALID n.val) = true → s.isProxy n.val = false → s.nrwState n.val = nrwGranted ∨ s.nrwState n.val = nrwPassing → s.get (Reg.NRW_CFG.WD n.val) ≠ 0 →
          (s.nrw n.val).grantAt + s.get (Reg.NRW_CFG.WD n.val) * 1000000 ≤ t.toNat →
        ((s.at t).atServo = true → Completes (.zoneWatchdog t n) s fun u => u.nrwState n.val = nrwOrphaned ∧ u.get (Reg.NRW_STATE.CAUSE n.val) = 2 ∧
          u.get (Reg.NRW_STATE.EPOCH n.val) = (s.get (Reg.NRW_STATE.EPOCH n.val) + 1) % 65536 ∧ u.on (Reg.NRW_STATE.NEXT_VALID n.val) = false ∧
          u.word (Reg.NRW_OWNER n.val) = s.word (Reg.NRW_OWNER n.val) ∧
          ∀ i, localOf (s.word (Reg.NRW_OWNER n.val)) = some i → (s.img.island? i).isSome = true → (u.flow i).reqSs1 = true) ∧
        ((s.at t).atServo = false → Completes (.zoneWatchdog t n) s fun u => u.nrw n.val = { s.nrw n.val with bite := true } ∧
          (∀ j, j ≠ n.val → u.nrw j = s.nrw j) ∧ u = { s.at t with nrws := u.nrws }))) ∧
  ∀ (s : State) (t : Time), s.HostReady t →
    (∀ (k : Fin 256) (b : Bool), s.img.shoalUsed k.val = true → Completes (.shoalActiveWrite t k b) s fun u =>
      u.sep = { s.sep with shoalWrites := s.sep.shoalWrites ++ [(k.val, b)] } ∧ u = { s.written t with sep := u.sep }) ∧
    (∀ (k : Fin 256) (b : Bool), s.img.shoalUsed k.val = false → Completes (.shoalActiveWrite t k b) s fun u => u = s.written t) ∧
    Completes (.sepClrPeak t) s (Sets Reg.SEP_TIME.PEAK 0 (s.written t)) ∧
    ∀ (n : Fin 128) (epoch : BitVec 16) (tag : Byte), Completes (.nrwRel t n epoch tag) s fun u =>
      u.get Reg.NRW_REL_RESULT.TAG = tag.toNat ∧ u.get Reg.NRW_REL_RESULT.STATUS = 4 ∧ u.nrwRels = s.nrwRels ++ [(n.val, epoch.toNat, tag.toNat)] ∧
      u = { s.written t with regs := u.regs, nrwRels := u.nrwRels } ∧ ∀ x, x ≠ Reg.NRW_REL_RESULT → u.word x = (s.written t).word x
/-! ### Duplex operation (chapter 14) -/

/-- The partner link (R304–R307, R311, R317, R318). A frame that fails its CRC is discarded, and a SOLO unit takes none; a gap in the sequence numbers has a unit that follows ask for the frames between. A heartbeat of another length does nothing more; one of a partner that is not active shows its role; to a unit that
is not ACTIVE the active's shows its PROMO; a listening unit adopts the active's cycle number and synchronises, unless both are strapped alike; a syncing one with another image is FAULTED. Eight missed heartbeats, or a RELINQUISH, are the loss of the heartbeat. A unit that follows keeps the mirrored inputs for the next servo boundary once it computes, and asks for a frame that
failed; an active sends a kept one again. The link is lost with its second lane, and restored by a lane; a second after its loss the standby is stale. A syncing unit takes the checkpoint's regions, installs them at the checkpoint's end, tries again or faults where it does not come within 2 s, and is
the standby after 1 000 ring cycles without a mismatch; a unit that follows takes the state words of an axis. Commands that complete: heartbeatReceive, heartbeatLost, relinquishReceive, mirrorReceive, retransmitReceive, partnerLaneDown, partnerLaneUp, staleTimeout, checkpointReceive,
checkpointEndReceive, checkpointTimeout, duplexSynced, lawStateReceive. -/
def Obligations.PartnerLinkAndSynchronisation : Prop :=
  (∀ (s : State) (t : Time) (frame : List Byte), s.Ready t →
    ∀ c : Instr × Nat, c ∈ [(Instr.heartbeatReceive t frame, 1), (.checkpointReceive t frame, 3), (.checkpointEndReceive t frame, 4), (.lawStateReceive t frame, 5),
        (.relinquishReceive t frame, 6), (.retransmitReceive t frame, 7)] →
      partnerFrame? c.2 (natBytes frame) = none ∨ s.role = roleSolo → Completes c.1 s fun u => u = s.at t) ∧
  (∀ (s : State) (p q n : Nat), s.dpx.rxSeq = some p → p < 2 ^ 32 → q < 2 ^ 32 → n = (q + 2 ^ 32 - p) % 2 ^ 32 →
    (n = 0 ∨ 2 ^ 31 ≤ n → s.noteSeq q = s) ∧
    (0 < n → n < 2 ^ 31 → (s.noteSeq q).dpx.rxSeq = some q ∧ (s.noteSeq q).dpx.sent.length = s.dpx.sent.length + (if s.follows then n - 1 else 0))) ∧
  (∀ (s b : State) (t : Time) (frame : List Byte) (q : Nat) (p : List Nat), s.Ready t → s.role ≠ roleSolo → b = (s.at t).noteSeq q →
    (partnerFrame? 1 (natBytes frame) = some (q, p) →
      (p.length ≠ 32 → Completes (.heartbeatReceive t frame) s fun u => u = b) ∧
      (p.length = 32 → (s.on Reg.DPX_STAT.LINK_LOST = false ∨ s.lanesUp = 0) → s.role ≠ roleListening →
        s.role = roleSyncing ∧ leAt p 0 1 % 8 = roleActive → leAt p 20 8 = s.imageId →
        Completes (.heartbeatReceive t frame) s fun u => u.role = s.role ∧ u.get Reg.DPX_STAT.PROMO = leAt p 2 1) ∧
      (p.length = 32 → (s.on Reg.DPX_STAT.LINK_LOST = false ∨ s.lanesUp = 0) → leAt p 0 1 % 8 ≠ roleActive ∨ s.role = roleActive →
        Completes (.heartbeatReceive t frame) s fun u =>
          u.get Reg.DPX_HB.RX = (s.get Reg.DPX_HB.RX + 1) % 65536 ∧ u.get Reg.DPX_HB.MISS_RUN = 0 ∧ u.on Reg.DPX_STAT.PARTNER_SEEN = true ∧
          u.get Reg.DPX_STAT.PROMO = s.get Reg.DPX_STAT.PROMO ∧ u.role = s.role ∧ u.dpx.pRole = some (leAt p 0 1 % 8) ∧
          u.dpx.pStale = bitAt (leAt p 0 1) 3 ∧ u.dpx.hbLost = false ∧ (∀ m ∈ u.dpx.kept, leAt p 16 4 < m.seq) ∧ u = { b with regs := u.regs, dpx := u.dpx }) ∧
      (p.length = 32 → s.on Reg.DPX_STAT.LINK_LOST = false → leAt p 0 1 % 8 = roleActive → s.role = roleStandby →
        Completes (.heartbeatReceive t frame) s fun u =>
          u.get Reg.DPX_HB.RX = (s.get Reg.DPX_HB.RX + 1) % 65536 ∧ u.get Reg.DPX_HB.MISS_RUN = 0 ∧ u.on Reg.DPX_STAT.PARTNER_SEEN = true ∧
          u.get Reg.DPX_STAT.PROMO = leAt p 2 1 ∧ u.role = roleStandby ∧ u.dpx.pRole = some roleActive ∧ u.dpx.hbSeen = true ∧
          u.dpx.hbLost = false ∧ u.dpx.devNext = some (leAt p 1 1 % 16) ∧ u = { b with regs := u.regs, dpx := u.dpx }) ∧
      (p.length = 32 → s.on Reg.DPX_STAT.LINK_LOST = true → s.lanesUp ≠ 0 → leAt p 0 1 % 8 = roleActive → s.role = roleStandby → leAt p 20 8 = s.imageId →
        Completes (.heartbeatReceive t frame) s fun u => u.on Reg.DPX_STAT.LINK_LOST = false ∧ u.role = roleSyncing ∧ u.dpx.attempts = 1) ∧
      (p.length = 32 → s.on Reg.DPX_STAT.LINK_LOST = false → leAt p 0 1 % 8 = roleActive → s.role = roleSyncing → leAt p 20 8 ≠ s.imageId →
        Completes (.heartbeatReceive t frame) s fun u => u.role = roleFaulted) ∧
      (p.length = 32 → s.on Reg.DPX_STAT.LINK_LOST = false → leAt p 0 1 % 8 = roleActive → s.role = roleListening → s.samePos = true →
        Completes (.heartbeatReceive t frame) s fun u => u.role = roleFaulted ∧ u.dev = s.dev) ∧
      (p.length = 32 → s.on Reg.DPX_STAT.LINK_LOST = false → leAt p 0 1 % 8 = roleActive → s.role = roleListening → s.samePos = false →
        Completes (.heartbeatReceive t frame) s fun u =>
          u.role = roleSyncing ∧ u.dev.cycle.toNat = leAt p 4 8 ∧ u.dpx.attempts = 1 ∧ u.dpx.since = t.toNat)) ∧
    (partnerFrame? 6 (natBytes frame) = some (q, p) →
      (s.paired = false → Completes (.relinquishReceive t frame) s fun u => u = b) ∧
      (s.paired = true → Completes (.relinquishReceive t frame) s fun u => u.dpx.relinquished = true ∧ u.dpx.hbLost = true ∧
        u.dpx.pRole = some (leAt p 0 1 % 8) ∧ u.role = s.role)) ∧
    (partnerFrame? 2 (natBytes frame) = some (q, p) →
      (s.follows = false ∨ s.dpx.mirSeq = some q → Completes (.mirrorReceive t frame) s fun u => u = b) ∧
      (s.follows = true → s.dpx.mirSeq ≠ some q → Completes (.mirrorReceive t frame) s fun u => u.dpx.mirSeq = some q ∧ u.dpx.mirSeen = true ∧
        u.mirrorHeld = (if s.role = roleStandby ∨ s.dpx.installed = true then s.mirrorHeld ++ mirrorRecords (s.servoNo + 1) p.length p else s.mirrorHeld) ∧
        u = { b with dpx := u.dpx, mirrorHeld := u.mirrorHeld })) ∧
    (partnerFrame? 7 (natBytes frame) = some (q, p) →
      ((∀ m ∈ s.dpx.kept, m.seq ≠ leAt p 0 4) ∨ s.role ≠ roleActive → Completes (.retransmitReceive t frame) s fun u => u = b) ∧
      (∀ m, (s.dpx.kept.find? fun m => m.seq == leAt p 0 4) = some m → s.role = roleActive → Completes (.retransmitReceive t frame) s fun u =>
        u = { b with dpx := { b.dpx with sent := b.dpx.sent ++ [partnerFrame 2 m.seq (mirrorBytes m.records)] } })) ∧
    (partnerFrame? 3 (natBytes frame) = some (q, p) →
      (s.role ≠ roleSyncing ∨ s.dpx.observed = false ∨ s.dpx.installed = true → Completes (.checkpointReceive t frame) s fun u => u = b) ∧
      (s.role = roleSyncing → s.dpx.observed = true → s.dpx.installed = false → Completes (.checkpointReceive t frame) s fun u =>
        u.dpx.regions = s.dpx.regions ++ [(leAt p 0 4, p.drop 4)] ∧ u.dpx.ckptFrom = some (s.dpx.ckptFrom.getD t.toNat) ∧ u = { b with dpx := u.dpx })) ∧
    (partnerFrame? 4 (natBytes frame) = some (q, p) →
      (s.role ≠ roleSyncing ∨ s.dpx.observed = false ∨ s.dpx.installed = true ∨ s.dev.cycle.toNat < leAt p 0 8 →
        Completes (.checkpointEndReceive t frame) s fun u => u = b) ∧
      (s.role = roleSyncing → s.dpx.observed = true → s.dpx.installed = false → leAt p 0 8 ≤ s.dev.cycle.toNat →
        Completes (.checkpointEndReceive t frame) s fun u =>
          u.dpx.installed = true ∧ u.dpx.regions = [] ∧ u.get Reg.DPX_SYNC.CMP_RUN = 0 ∧
          u.get Reg.DPX_SYNC.CKPT_MS = min ((t.toNat - s.dpx.ckptFrom.getD t.toNat) / 1000000) 65535 ∧
          u.mem = (forEach s.dpx.regions (fun s r => s.fabWrite r.1 r.2) b).mem ∧
          u = { b with regs := u.regs, dpx := u.dpx, mem := u.mem })) ∧
    (partnerFrame? 5 (natBytes frame) = some (q, p) →
      (s.follows = false ∨ s.on Reg.DPX_STAT.LINK_LOST = true ∨ 256 ≤ leAt p 0 4 ∨ s.lawSlot (leAt p 0 4) = none →
        Completes (.lawStateReceive t frame) s fun u => u = b) ∧
      (∀ e sl, s.follows = true → s.on Reg.DPX_STAT.LINK_LOST = false → leAt p 0 4 < 256 → s.lawSlot (leAt p 0 4) = some (e, sl) →
        Completes (.lawStateReceive t frame) s fun u =>
          u.dpx = { b.dpx with realign := (s.dpx.realign.filter fun r => r.1 != leAt p 0 4) ++ [(leAt p 0 4, leAt p 4 8 + 8)] } ∧
          u = { b with dpx := u.dpx, lemem := u.lemem } ∧
          u.lemem = (forEach ((s.lawWords e sl).zip ((List.range ((p.length - 12) / 4)).map fun i => leAt p (12 + 4 * i) 4))
            (fun s w => s.putLe e w.1 w.2) b).lemem))) ∧
  ∀ (s : State) (t : Time), s.Ready t →
    (∀ frame : List Byte, partnerFrame? 2 (natBytes frame) = none →
      (s.dpx.rxSeq = none ∨ s.follows = false → Completes (.mirrorReceive t frame) s fun u => u = s.at t) ∧
      (∀ p, s.dpx.rxSeq = some p → s.follows = true → Completes (.mirrorReceive t frame) s fun u =>
        u.dpx = { s.dpx with rxSeq := some ((p + 1) % 2 ^ 32), seq := (s.dpx.seq + 1) % 2 ^ 32
                             sent := s.dpx.sent ++ [partnerFrame 7 s.dpx.seq (leBytes 4 ((p + 1) % 2 ^ 32))] } ∧ u = { s.at t with dpx := u.dpx })) ∧
    (∀ frame : List Byte, s.role = roleSolo → (partnerFrame? 2 (natBytes frame)).isSome = true → Completes (.mirrorReceive t frame) s fun u => u = s.at t) ∧
    (s.paired = false ∨ s.get Reg.DPX_HB.MISS_RUN < 8 ∨ s.dpx.hbLost = true → Completes (.heartbeatLost t) s fun u => u = s.at t) ∧
    (s.role = roleActive → 8 ≤ s.get Reg.DPX_HB.MISS_RUN → s.dpx.hbLost = false → Completes (.heartbeatLost t) s fun u =>
      u.dpx = { s.dpx with hbLost := true } ∧ u.on Reg.DPX_STAT.PARTNER_SEEN = false ∧ u.role = roleActive) ∧
    (s.role = roleStandby ∨ s.role = roleListening → 8 ≤ s.get Reg.DPX_HB.MISS_RUN → s.dpx.hbLost = false → s.on Reg.DPX_STAT.LINK_LOST = false →
      Completes (.heartbeatLost t) s fun u => u.dpx.hbLost = true ∧ u.on Reg.DPX_STAT.PARTNER_SEEN = false ∧ u.role = s.role ∧
        u.on Reg.DPX_STAT.LINK_LOST = (decide (s.role = roleStandby) && !s.dpx.relinquished && decide ((s.at t).ringsMissing = 0))) ∧
    (∀ lane : Fin 2, s.on (if lane.val = 0 then Reg.DPX_STAT.LANE1_UP else Reg.DPX_STAT.LANE0_UP) = true → Completes (.partnerLaneDown t lane) s
      (Sets (if lane.val = 0 then Reg.DPX_STAT.LANE0_UP else Reg.DPX_STAT.LANE1_UP) 0 (s.at t))) ∧
    (∀ lane : Fin 2, s.on (if lane.val = 0 then Reg.DPX_STAT.LANE1_UP else Reg.DPX_STAT.LANE0_UP) = false →
      (s.role = roleSolo ∨ s.on Reg.DPX_STAT.LINK_LOST = true → Completes (.partnerLaneDown t lane) s
        (Sets (if lane.val = 0 then Reg.DPX_STAT.LANE0_UP else Reg.DPX_STAT.LANE1_UP) 0 { s.at t with dpx := { s.dpx with pPos := none } })) ∧
      (s.on Reg.DPX_STAT.LINK_LOST = false → s.role ≠ roleSolo → s.role ≠ roleSyncing →
        Completes (.partnerLaneDown t lane) s fun u => u.on Reg.DPX_STAT.LINK_LOST = true ∧
          u.dpx = { s.dpx with lostAt := some t.toNat, pPos := none } ∧ u.role = s.role ∧ u.on Reg.DPX_STAT.LANE0_UP = false ∧ u.on Reg.DPX_STAT.LANE1_UP = false) ∧
      (s.on Reg.DPX_STAT.LINK_LOST = false → s.role = roleSyncing → s.dpx.attempts < 3 →
        Completes (.partnerLaneDown t lane) s fun u => u.on Reg.DPX_STAT.LINK_LOST = true ∧ u.role = roleSyncing ∧ u.dpx.attempts = s.dpx.attempts + 1)) ∧
    (∀ (lane : Fin 2) (pos : Bool), s.on Reg.DPX_STAT.LINK_LOST = false → Completes (.partnerLaneUp t lane pos) s
      (Sets (if lane.val = 0 then Reg.DPX_STAT.LANE0_UP else Reg.DPX_STAT.LANE1_UP) 1 { s.at t with dpx := { s.dpx with pPos := some pos } })) ∧
    (∀ (lane : Fin 2) (pos : Bool), s.on Reg.DPX_STAT.LINK_LOST = true → Completes (.partnerLaneUp t lane pos) s fun u => u.on Reg.DPX_STAT.LINK_LOST = false ∧
      u.dpx.lostAt = none ∧ u.dpx.pPos = some pos ∧ u.role = if s.role = roleStandby then roleSyncing else s.role) ∧
    (s.dpx.lostAt = none ∨ s.role ≠ roleStandby ∨ (∃ t0, s.dpx.lostAt = some t0 ∧ t.toNat < t0 + 1000000000) →
      Completes (.staleTimeout t) s fun u => u = s.at t) ∧
    (∀ t0, s.dpx.lostAt = some t0 → s.role = roleStandby → t0 + 1000000000 ≤ t.toNat →
      Completes (.staleTimeout t) s (Sets Reg.DPX_STAT.STALE 1 (s.at t))) ∧
    (s.role ≠ roleSyncing ∨ s.dpx.installed = true ∨ t.toNat < s.dpx.since + 2000000000 → Completes (.checkpointTimeout t) s fun u => u = s.at t) ∧
    (s.role = roleSyncing → s.dpx.installed = false → s.dpx.since + 2000000000 ≤ t.toNat →
      (s.dpx.attempts < 3 → Completes (.checkpointTimeout t) s fun u => u.role = roleSyncing ∧ u.dpx.attempts = s.dpx.attempts + 1 ∧ u.dpx.since = t.toNat) ∧
      (3 ≤ s.dpx.attempts → Completes (.checkpointTimeout t) s fun u => u.role = roleFaulted)) ∧
    (s.role = roleSyncing → s.dpx.installed = true → 1000 ≤ s.get Reg.DPX_SYNC.CMP_RUN → Completes (.duplexSynced t) s fun u =>
      u.role = roleStandby ∧ u.on Reg.DPX_STAT.SYNCED = true ∧ u.on Reg.DPX_STAT.STALE = false) ∧
    (s.role ≠ roleSyncing ∨ s.dpx.installed = false ∨ s.get Reg.DPX_SYNC.CMP_RUN < 1000 → Completes (.duplexSynced t) s fun u => u = s.at t)

/-- Roles (R309, R311–R316). After its listen time a unit that heard no active is ACTIVE and its rings start; where its partner reports the same position it is FAULTED and its rings stay as they are. The standby takes over with the heartbeat lost and every ring silent for two ring cycles: PROMO counts one and its rings are FOLDED. A handover
asked of the active waits for the ring cycle where the partner is fit, and is refused otherwise. A FAULTED unit that runs listens again. An active that meets a foreign active with precedence falls silent at its next cycle-start. A node acts on the tap poll of its acting port and answers it, with POLL_BAD where it is bad. Verdicts are given once, within 16 ring cycles, by the words of the
re-run task; the active decides the outcome by the verdicts it has. Commands that complete: duplexListenTimeout, promotion, dpxHandover, dpxRejoin, tapPollReceive, tapResponseReceive, verdictReady, outcomeDecide. -/
def Obligations.RolesChangeAndDivergencesEnd : Prop :=
  ∀ (s : State) (t : Time), s.Ready t →
    (s.role ≠ roleListening ∨ t.toNat < s.dpx.since + 2000000 + 2000000 * s.dpxPos → Completes (.duplexListenTimeout t) s fun u => u = s.at t) ∧
    (s.role = roleListening → s.dpx.since + 2000000 + 2000000 * s.dpxPos ≤ t.toNat → s.samePos = true → Completes (.duplexListenTimeout t) s fun u =>
      u.role = roleFaulted ∧ u.rings = s.rings) ∧
    (s.role = roleListening → s.dpx.since + 2000000 + 2000000 * s.dpxPos ≤ t.toNat → s.samePos = false → Completes (.duplexListenTimeout t) s fun u =>
      u.role = roleActive ∧ ∀ k < 16, s.on (Reg.RING_CFG.EN k) = true → s.ringMode k = ringOff → u.ringMode k = ringStarting) ∧
    (s.role ≠ roleStandby ∨ s.dpx.hbLost = false ∨ (s.at t).ringsMissing < 2 → Completes (.promotion t) s fun u => u = s.at t) ∧
    (s.role = roleStandby → s.dpx.hbLost = true → 2 ≤ (s.at t).ringsMissing → Completes (.promotion t) s fun u =>
      u.role = roleActive ∧ u.get Reg.DPX_STAT.PROMO = (s.get Reg.DPX_STAT.PROMO + 1) % 256 ∧ u.on Reg.DPX_STAT.SYNCED = false ∧
      ∀ k < 16, s.on (Reg.RING_CFG.EN k) = true → u.ringMode k = ringFolded) ∧
    (s.role = roleActive → s.partnerFit = true → Completes (.dpxHandover t) s fun u =>
      u = { s.written t with dpx := { s.dpx with hoReq := true, hoRole := roleStandby } }) ∧
    (s.role = roleActive → s.partnerFit = false → Completes (.dpxHandover t) s (Raises Reg.DPX_STAT.HO_REFUSED (s.written t))) ∧
    (s.role ≠ roleActive → Completes (.dpxHandover t) s fun u => u = s.written t) ∧
    (s.role = roleFaulted → s.devState = devBringUp ∨ s.devState = devReduced ∨ s.devState = devAutomatic ∨ s.devState = devStopping →
      Completes (.dpxRejoin t) s fun u => u.role = roleListening ∧ u.dpx.since = t.toNat ∧ u.dpx.heard = []) ∧
    (s.role ≠ roleFaulted ∨ (s.devState ≠ devBringUp ∧ s.devState ≠ devReduced ∧ s.devState ≠ devAutomatic ∧ s.devState ≠ devStopping) →
      Completes (.dpxRejoin t) s fun u => u = s.written t) ∧
    (∀ (k : Fin 16) (b clean ok : Bool) (frame : List Byte),
      ok = (frameOk 38 (natBytes frame) clean && leAt (natBytes frame) 0 1 / 32 == 4 && leAt (natBytes frame) 1 1 % 32 == 24 &&
        leAt (natBytes frame) 4 1 % 8 == roleActive) →
      (s.role = roleActive → s.dpx.fall = false → ok = true →
        promoAhead (leAt (natBytes frame) 5 1) (s.get Reg.DPX_STAT.PROMO) = true ∨ (leAt (natBytes frame) 5 1 = s.get Reg.DPX_STAT.PROMO ∧ s.dpxPos = 1) →
        Completes (.tapPollReceive t k b frame clean) s fun u => u = ({ s.at t with dpx := { s.dpx with fall := true } }.log Src.duplex Ev.ROLE_CONFLICT
          (s.get Reg.DPX_STAT.PROMO) (leAt (natBytes frame) 5 1))) ∧
      (s.role = roleActive → ok = false ∨ s.dpx.fall = true ∨
          (promoAhead (leAt (natBytes frame) 5 1) (s.get Reg.DPX_STAT.PROMO) = false ∧ ¬ (leAt (natBytes frame) 5 1 = s.get Reg.DPX_STAT.PROMO ∧ s.dpxPos = 1)) →
        Completes (.tapPollReceive t k b frame clean) s fun u => u = s.at t) ∧
      (s.role = roleSolo ∨ (s.role ≠ roleActive ∧ (s.acted k.val = none ∨ ∃ cyc r p, s.acted k.val = some (cyc, r, p) ∧ (p ≠ b ∨ r + 15625 ≤ t.toNat))) →
        Completes (.tapPollReceive t k b frame clean) s fun u => u = s.at t) ∧
      (∀ cyc r, s.isNode = true → s.acted k.val = some (cyc, r, b) → t.toNat < r + 15625 →
        (ok = true → leAt (natBytes frame) 2 2 = cyc % 65536 → s.follows = true → Completes (.tapPollReceive t k b frame clean) s fun u =>
          tget 0 u.dpx.delays k.val = leAt (natBytes frame) 6 2 ∧ u = ((s.at t).takeTapPoll k.val (natBytes frame)).sendTap k.val false) ∧
        (ok = true → leAt (natBytes frame) 2 2 = cyc % 65536 → s.follows = false → Completes (.tapPollReceive t k b frame clean) s fun u =>
          u = (s.at t).sendTap k.val false) ∧
        (∀ i, ok = false ∨ leAt (natBytes frame) 2 2 ≠ cyc % 65536 → s.tapSlot k.val = some i → s.nodeMuted k.val 24 = false → s.dpx.silenced = false →
          (s.ring k.val).tapSent = none → Completes (.tapPollReceive t k b frame clean) s fun u =>
            (∃ p, (u.ring k.val).tapSent = some (cyc, p, s.tapFrame k.val i cyc true)) ∧ (∀ j, j ≠ k.val → u.ring j = s.ring j) ∧
            u = { s.at t with rings := u.rings }))) ∧
    (∀ (k : Fin 16) (b clean : Bool) (frame : List Byte) (v : State), v = (s.at t).receiveResponse k.val b (natBytes frame) clean →
      (s.role ≠ roleActive ∨ leAt (natBytes frame) 0 1 / 32 ≠ 4 ∨ v = s.at t → Completes (.tapResponseReceive t k b frame clean) s fun u => u = v) ∧
      (∀ c d : RingCyc, s.role = roleActive → leAt (natBytes frame) 0 1 / 32 = 4 → (s.ring k.val).cur = some c →
        c.accepted.contains (leAt (natBytes frame) 0 1 % 32) = false → (v.ring k.val).cur = some d →
        d.accepted.contains (leAt (natBytes frame) 0 1 % 32) = true →
        Completes (.tapResponseReceive t k b frame clean) s fun u => u.on Reg.DPX_STAT.PARTNER_SEEN = true ∧ u.dpx.tapRun = 0 ∧
          u.dpx.pRole = some (leAt (natBytes frame) 4 1 % 8) ∧ u.dpx.pStale = bitAt (leAt (natBytes frame) 4 1) 4 ∧
          u.dpx.pSynced = bitAt (leAt (natBytes frame) 4 1) 5 ∧ (leAt (natBytes frame) 21 1 % 2 = 1 → u.dpx.diverged.isSome = true) ∧
          (leAt (natBytes frame) 20 1 ≠ 0 → u.dpx.diverged.isSome = true → u.dpx.partner = some (leAt (natBytes frame) 20 1)))) ∧
    (s.dpx.diverged = none → (∀ x y z, Completes (.verdictReady t x y z) s fun u => u = s.at t) ∧ Completes (.outcomeDecide t) s fun u => u = s.at t) ∧
    ∀ a c, s.dpx.diverged = some (a, c) →
      (∀ x y z d, s.dpx.own = none → s.dev.cycle.toNat < c + 16 → s.verdictEngine = true → s.dpx.block = some d →
        Completes (.verdictReady t x y z) s fun u =>
          u = { s.at t with dpx := { s.dpx with own := some (if d.w0 = x.toNat ∧ d.w1 = y.toNat ∧ d.w2 = z.toNat then 1 else 2) } }) ∧
      (∀ x y z, s.dpx.own.isSome = true ∨ c + 16 ≤ s.dev.cycle.toNat ∨ s.verdictEngine = false ∨ s.dpx.block = none →
        Completes (.verdictReady t x y z) s fun u => u = s.at t) ∧
      (s.role = roleActive → s.dpx.outcome = none → (s.dpx.own.isSome = true ∧ s.dpx.partner.isSome = true) ∨ c + 16 ≤ s.dev.cycle.toNat →
        ∀ o, o = outcomeOf (s.dpx.own.getD 0) (s.dpx.partner.getD 0) → Completes (.outcomeDecide t) s fun u =>
          u.get Reg.DPX_LAST.OUTCOME = o ∧ u.get Reg.DPX_LAST.AXIS = a % 256 ∧ u.dpx = { s.dpx with outcome := some o }) ∧
      (s.role ≠ roleActive ∨ s.dpx.outcome.isSome = true ∨ ((s.dpx.own = none ∨ s.dpx.partner = none) ∧ s.dev.cycle.toNat < c + 16) →
        Completes (.outcomeDecide t) s fun u => u = s.at t)
/-! ### The archipelago (chapter 15) -/

/-- References and slot frames (R324–R337). A unit that only forwards sends every reference and slot frame on, and takes none; one that takes part counts a frame that is spoilt or of another type, and sends it on unless it is the master. The master times its own reference, which returns: the loop delay, the delay of the port,
and OVER_BUDGET above 200 µs; the reference of a master with precedence makes it give way once, and any other leaves it alone. A listening unit adopts the reference, its timer starts, and it joins; one that joins is a member with the second reference in a row of one master; a member takes the number, the offset and the master of
the next reference, and sends on alone a reference with RETURN, or one that is not the next. A missing reference is counted, sends a joining unit back to listening, and makes a backup at its limit the master of a folded chain. A listen time without a reference makes a ranked unit the master and starts the rings of another.
A slot frame is sent once, at its offset, on the port on which references go on, by a folded master on both. A frame of its own is not taken; one out of its window is counted, by a master logged; one within is heard once, and a master keeps it to relay. A relay is sent, or dropped and counted where it comes too late. Commands that
complete: referenceReceive, referenceMissing, fedListenTimeout, slotFrameSend, slotFrameReceive, relaySend. -/
def Obligations.ReferencesAndSlotFrames : Prop :=
  ∀ (s : State) (t : Time), s.Ready t →
    (∀ (p : Fin 2) (frame : List Byte) (clean : Bool) (f : List Nat), f = natBytes frame →
      (s.fedActs = false → Completes (.referenceReceive t p frame clean) s fun u => Forwards p.val f clean (s.at t) u) ∧
      (s.fedActs = true → frameOk 104 f clean = false ∨ leAt f 0 1 ≠ 1 → Completes (.referenceReceive t p frame clean) s fun u =>
        ∃ m, Sets Reg.FED_CNT.CRC (min (s.get Reg.FED_CNT.CRC + 1) 255) (s.at t) m ∧ Forwards p.val f clean m u) ∧
      (∀ own, own = (leAt f 2 2 % 512 == s.fedNode && bitAt (leAt f 1 1) 0 && s.fed.ref.any fun r => r.2.1 == p.val) →
        (s.fedActs = false → own = true → Completes (.slotFrameReceive t p frame clean) s fun u => u = s.at t) ∧
        (s.fedActs = false → own = false → Completes (.slotFrameReceive t p frame clean) s fun u => Forwards p.val f clean (s.at t) u) ∧
        (s.fedActs = true → leAt f 0 1 ≠ 2 ∨ 472 < leAt f 6 2 ∨ frameOk (16 + leAt f 6 2) f clean = false → Completes (.slotFrameReceive t p frame clean) s fun u =>
          ∃ m, (if s.fedState = fedMaster ∨ own = true then m = s.at t else Forwards p.val f clean (s.at t) m) ∧
            Sets Reg.FED_CNT.CRC (min (s.get Reg.FED_CNT.CRC + 1) 255) m u))) ∧
    (∀ (p : Fin 2) (frame : List Byte) (f : List Nat), f = natBytes frame → s.fedActs = true → frameOk 104 f true = true → leAt f 0 1 = 1 →
      (s.fedState = fedMaster →
        (leAt f 2 2 % 512 = s.fedNode → (s.fed.ref = none ∨ ∃ t0 q c, s.fed.ref = some (t0, q, c) ∧ leAt f 8 8 ≠ c) →
          Completes (.referenceReceive t p frame true) s fun u => u = s.at t) ∧
        (∀ t0 q, leAt f 2 2 % 512 = s.fedNode → s.fed.ref = some (t0, q, leAt f 8 8) →
          Completes (.referenceReceive t p frame true) s fun u =>
            u.word Reg.FED_LOOP = (t.toNat - t0) % 2 ^ 32 ∧ u.word Reg.FED_LOOP_MAX = max (s.word Reg.FED_LOOP_MAX) (t.toNat - t0) % 2 ^ 32 ∧
            u.on Reg.FED_STAT.OVER_BUDGET = decide (200000 < t.toNat - t0) ∧ (if p.val = 0 then u.fed.c0 else u.fed.c1) = some (t.toNat - t0) ∧
            u.fed = { s.fed with c0 := u.fed.c0, c1 := u.fed.c1, back := s.fed.back || (p.val == 0 && !bitAt (leAt f 1 1) 2), recloseAt := u.fed.recloseAt } ∧
            (s.fed.recloseAt = none → t.toNat - t0 ≤ 200000 → u = { s.at t with regs := u.regs, fed := u.fed })) ∧
        (leAt f 2 2 % 512 ≠ s.fedNode →
          ∀ prec, prec = (decide (leAt f 4 1 < s.get Reg.FED_CFG.RANK) || (leAt f 4 1 == s.get Reg.FED_CFG.RANK && decide (leAt f 2 2 % 512 < s.fedNode))) →
          (bitAt (leAt f 1 1) 2 = true ∨ s.fed.yield = true ∨ prec = false → Completes (.referenceReceive t p frame true) s fun u => u = s.at t) ∧
          (bitAt (leAt f 1 1) 2 = false → s.fed.yield = false → prec = true → Completes (.referenceReceive t p frame true) s fun u =>
            u = ({ s.at t with fed := { s.fed with yield := true } }).log Src.archipelago Ev.FED_MASTER (leAt f 2 2 % 512 + 512) (s.get Reg.FED_STAT.MISS_RUN)))) ∧
      (s.fedState = fedListen → bitAt (leAt f 1 1) 2 = false → Completes (.referenceReceive t p frame true) s fun u =>
        u.fedState = fedJoining ∧ u.fcyc = leAt f 8 8 ∧ u.dev.timer = true ∧ u.get Reg.FED_STAT.MISS_RUN = 0 ∧
        u = ((s.at t).fedPassOn p.val f).actReference p.val f) ∧
      (s.fedState ≠ fedMaster → s.fedState ≠ fedListen → ∀ next, next = (decide (s.fcyc + 1 ≤ leAt f 8 8) && decide (leAt f 8 8 ≤ s.fcyc + 1 + s.get Reg.FED_STAT.MISS_RUN)) →
        (next = true → bitAt (leAt f 1 1) 2 = false → Completes (.referenceReceive t p frame true) s fun u =>
          u.fcyc = leAt f 8 8 ∧ u.fed.ref = some (t.toNat, p.val, leAt f 8 8) ∧ u.get Reg.FED_MASTER.NODE = leAt f 2 2 % 512 ∧ u.get Reg.FED_MASTER.MRANK = leAt f 4 1 % 8 ∧
          (∀ d, d = leAt f 24 4 + (if p.val = 0 then s.fed.linkDelay0 else s.fed.linkDelay1) → u.word64 Reg.FED_OFS_LO = ux 64 ((leAt f 16 8 : Int) - ((t.toNat : Int) * 16 - d) / 16)) ∧
          (u.fedState = if s.fedState = fedJoining ∧ s.fed.run.1 = leAt f 2 2 % 512 ∧ 1 ≤ s.fed.run.2 then fedMember else s.fedState) ∧
          u = ((s.at t).fedPassOn p.val f).actReference p.val f) ∧
        (next = false → Completes (.referenceReceive t p frame true) s fun u => Forwards p.val f true (s.at t) u)) ∧
      (s.fedState ≠ fedMaster → bitAt (leAt f 1 1) 2 = true → Completes (.referenceReceive t p frame true) s fun u => Forwards p.val f true (s.at t) u)) ∧
    (∀ (b : State) (p : Fin 2) (f : List Nat), ∃ r, r ≤ 2400 ∧ ∃ m, Forwards p.val (fedFrame (f.take 24 ++
        leBytes 4 (leAt f 24 4 + r + (if p.val = 0 then b.fed.linkDelay0 else b.fed.linkDelay1)) ++ (f.take 104).drop 28)) true { b with freeCount := m } (b.fedPassOn p.val f)) ∧
    (s.fedActs = false ∨ (s.fedState ≠ fedJoining ∧ s.fedState ≠ fedMember) ∨ t.toNat ≤ s.fed.lastRef + 250000 * (s.get Reg.FED_STAT.MISS_RUN + 1) + 1000 →
      Completes (.referenceMissing t) s fun u => u = s.at t) ∧
    (s.fedActs = true → s.fed.lastRef + 250000 * (s.get Reg.FED_STAT.MISS_RUN + 1) + 1000 < t.toNat →
      (s.fedState = fedJoining → Completes (.referenceMissing t) s fun u => u.fedState = fedListen ∧ u.fed.since = t.toNat ∧ u.on Reg.FED_STAT.ALIGNED = false) ∧
      (s.fedState = fedMember → (s.get Reg.FED_CFG.RANK < 2 ∨ 4 < s.get Reg.FED_CFG.RANK ∨ s.get Reg.FED_STAT.MISS_RUN < s.get Reg.FED_CFG.RANK) →
        Completes (.referenceMissing t) s fun u => u.fedState = fedMember ∧
          u.get Reg.FED_STAT.MISS_RUN = min (s.get Reg.FED_STAT.MISS_RUN + 1) 255 ∧ u.fed.ref = none) ∧
      (s.fedState = fedMember → 2 ≤ s.get Reg.FED_CFG.RANK → s.get Reg.FED_CFG.RANK ≤ 4 → s.get Reg.FED_CFG.RANK ≤ s.get Reg.FED_STAT.MISS_RUN →
        Completes (.referenceMissing t) s fun u => u.fedState = fedMaster ∧ u.get Reg.FED_STAT.MODE = 3 ∧ u.get Reg.FED_STAT.MISS_RUN = 0 ∧
          u.fcyc = (s.fcyc + s.get Reg.FED_STAT.MISS_RUN + 1) % 2 ^ 64 ∧ u.get Reg.FED_MASTER.NODE = s.fedNode ∧ u.get Reg.FED_MASTER.MRANK = s.get Reg.FED_CFG.RANK ∧
          u.fed.sent.map (·.1) = [1, 0])) ∧
    (s.fedActs = false ∨ s.fedState ≠ fedListen ∨ t.toNat < s.fed.since + 500000 + 2000 * s.fedNode → Completes (.fedListenTimeout t) s fun u => u = s.at t) ∧
    (s.fedActs = true → s.fedState = fedListen → s.fed.since + 500000 + 2000 * s.fedNode ≤ t.toNat →
      (s.get Reg.FED_CFG.RANK = 0 → Completes (.fedListenTimeout t) s fun u =>
        (s.dev.timer = true → u = s.at t) ∧ (s.dev.timer = false → u = ({ s.at t with dev := { s.dev with timer := true, nextCycle := t.toNat } }).ringsStart)) ∧
      (s.get Reg.FED_CFG.RANK ≠ 0 → Completes (.fedListenTimeout t) s fun u => u.fedState = fedMaster ∧ u.get Reg.FED_STAT.MODE = 2 ∧
        u.fcyc = 2 ^ 64 - 1 ∧ u.word64 Reg.FED_OFS_LO = 0 ∧ u.dev.timer = true ∧ (s.dev.timer = false → u.dev.nextCycle = t.toNat))) ∧
    (s.fed.ref = none ∨ s.fed.slotSent = true ∨ s.maskBit Reg.FED_MUTE s.fedNode = true ∨ s.fedActs = false ∨ (s.fedState ≠ fedMember ∧ s.fedState ≠ fedMaster) ∨
        (∃ t0 p c, s.fed.ref = some (t0, p, c) ∧ t.toNat + 8 < t0 + 144 + 488 * s.fedNode) → Completes (.slotFrameSend t) s fun u => u = s.at t) ∧
    (∀ t0 p c recs v, s.fed.ref = some (t0, p, c) → s.fed.slotSent = false → s.maskBit Reg.FED_MUTE s.fedNode = false → s.fedActs = true →
      s.fedState = fedMember ∨ s.fedState = fedMaster → t0 + 144 + 488 * s.fedNode ≤ t.toNat + 8 → (s.at t).slotRecords = (recs, v) →
      Completes (.slotFrameSend t) s fun u => u.fed.slotSent = true ∧ u.get Reg.FED_TX.LEN = recs.flatten.length % 512 ∧
        (∀ o ∈ u.fed.sent, o.2 = fedFrame ([2, 2 * s.get Reg.FED_STAT.LOOPED + 4 * s.get Reg.FED_STAT.LOOP_LINK] ++ leBytes 2 s.fedNode ++
          [s.get Reg.FED_CFG.RANK, 0] ++ leBytes 2 recs.flatten.length ++ leBytes 8 c ++ recs.flatten)) ∧
        (u.fed.sent.map (·.1) = if s.fedState = fedMaster then (if s.fed.both then [1, 0] else [1]) else [if s.fed.loopPort = some (1 - p) then p else 1 - p]) ∧
        u = { v with regs := u.regs, fed := u.fed }) ∧
    (∀ (p : Fin 2) (frame : List Byte) (f : List Nat) (n : Nat) (b : State), f = natBytes frame → n = leAt f 2 2 % 512 → s.fedActs = true → leAt f 0 1 = 2 → leAt f 6 2 ≤ 472 →
      frameOk (16 + leAt f 6 2) f true = true → b = (s.at t).slotForward p.val f true →
      (if s.fedState = fedMaster ∨ (n = s.fedNode ∧ bitAt (leAt f 1 1) 0 = true ∧ (s.fed.ref.any fun r => r.2.1 == p.val) = true) then b = s.at t else Forwards p.val f true (s.at t) b) ∧
      (n = s.fedNode → Completes (.slotFrameReceive t p frame true) s fun u => u = b) ∧
      (n ≠ s.fedNode → s.fedExpected p.val n (leAt f 8 8) (bitAt (leAt f 1 1) 0) = none →
        Completes (.slotFrameReceive t p frame true) s fun u => if s.fedState = fedMaster ∧ bitAt (leAt f 1 1) 0 = true then u = b
          else Sets Reg.FED_CNT.EDGE (min (s.get Reg.FED_CNT.EDGE + 1) 255) b u) ∧
      (∀ e, n ≠ s.fedNode → s.fedExpected p.val n (leAt f 8 8) (bitAt (leAt f 1 1) 0) = some e →
        (e ≤ t.toNat + 32 → t.toNat ≤ e + 48 → Completes (.slotFrameReceive t p frame true) s fun u =>
          u.fed.taken.contains (n, leAt f 8 8) = true ∧ u.fed.looped.contains n = bitAt (leAt f 1 1) 1 ∧
          (u.fed.relays = if s.fedState = fedMaster ∧ bitAt (leAt f 1 1) 0 = false then s.fed.relays ++ [(n, leAt f 8 8, 1 - p.val, f.take (16 + leAt f 6 2))] else s.fed.relays) ∧
          (s.fed.taken.contains (n, leAt f 8 8) = true → u = { b with fed := u.fed } ∧ u.fed.heard = s.fed.heard) ∧
          (s.fed.taken.contains (n, leAt f 8 8) = false → leAt f 8 8 = s.fcyc → u.fed.heard = s.fed.heard ++ [(n, p.val)]) ∧ u = b.acceptSlotFrame p.val f) ∧
        (t.toNat + 32 < e ∨ e + 48 < t.toNat → Completes (.slotFrameReceive t p frame true) s fun u =>
          u.get Reg.FED_CNT.EDGE = min (s.get Reg.FED_CNT.EDGE + 1) 255 ∧ u.fed = { b.fed with edges := s.fed.edges ++ [n] } ∧
          (s.fedState ≠ fedMaster → u = { b with regs := u.regs, fed := u.fed }) ∧
          (s.fedState = fedMaster → ∃ m : State, u = m.log Src.archipelago Ev.SLOT_EDGE (n + 65536 * p.val) (ux 32 ((t.toNat : Int) - e)))))) ∧
    (∀ n : Fin 512, s.fed.ref = none ∨ (∀ r ∈ s.fed.relays, r.1 ≠ n.val ∨ r.2.1 + 1 ≠ s.fcyc) ∨ s.fedActs = false ∨ s.fedState ≠ fedMaster → Completes (.relaySend t n) s fun u => u = s.at t) ∧
    ∀ (n : Fin 512) (t0 q c cy port : Nat) (body : List Nat), s.fed.ref = some (t0, q, c) → (s.fed.relays.find? fun r => r.1 == n.val && r.2.1 + 1 == s.fcyc) = some (n.val, cy, port, body) →
      s.fedActs = true → s.fedState = fedMaster →
      (t.toNat ≤ t0 + 152 + 488 * n.val → Completes (.relaySend t n) s fun u => u.fed = { s.fed with relays := u.fed.relays, sent :=
          [(port, fedFrame (body.take 1 ++ [withBit (leAt body 1 1) 0 true] ++ body.drop 2))] } ∧ (∀ x, x ∈ u.fed.relays ↔ x ∈ s.fed.relays ∧ x ≠ (n.val, cy, port, body)) ∧
        u = { s.at t with fed := u.fed }) ∧
      (t0 + 152 + 488 * n.val < t.toNat → Completes (.relaySend t n) s fun u => u.fed = { s.fed with relays := u.fed.relays } ∧
        (∀ x, x ∈ u.fed.relays ↔ x ∈ s.fed.relays ∧ x ≠ (n.val, cy, port, body)) ∧
        u.get Reg.FED_CNT.RELAY_DROP = min (s.get Reg.FED_CNT.RELAY_DROP + 1) 255 ∧ u = { s.at t with regs := u.regs, fed := u.fed })

/-- Links, mutes and the host's commands of the archipelago (R321, R324, R331, R332, R337, R342). A spoilt frame of a link counts; a unit that takes no part leaves it alone. A device measures the delay of its upstream link, in its cycle of sixteen and the guard after the reference, by a request and its response, less the
residence. The master that got no reference back folds, and sends the reference on both ports at once; it mutes a node that is out of its window three cycles in a row. A re-close, a mute and an unmute are the master's; a node that is muted already is left alone. A link that goes down loops the device back and has the remote fault
sent; a link that comes up ends the remote fault, and the loop-back stays. Commands that complete: linkReqSend, linkReqReceive, linkRespReceive, fedFold, fedNodeMute, dorluLinkDown, dorluLinkUp, fedReclose, fedMute, fedUnmute, fedClr. -/
def Obligations.DorluLinksAndMutes : Prop :=
  (∀ (s : State) (t : Time), s.Ready t →
    (s.fed.ref = none ∨ s.fedState = fedMaster ∨ s.fedActs = false ∨ s.fcyc % 16 ≠ s.fedNode % 16 ∨
        (∃ t0 p c, s.fed.ref = some (t0, p, c) ∧ (t.toNat < t0 + 96 ∨ t0 + 144 < t.toNat)) → Completes (.linkReqSend t) s fun u => u = s.at t) ∧
    (∀ t0 p c, s.fed.ref = some (t0, p, c) → s.fedState ≠ fedMaster → s.fedActs = true → s.fcyc % 16 = s.fedNode % 16 → t0 + 96 ≤ t.toNat → t.toNat ≤ t0 + 144 →
      Completes (.linkReqSend t) s fun u =>
        u = { s.at t with fed := { s.fed with req := some (t.toNat, p), sent := [(p, fedFrame ([3, 0] ++ leBytes 2 s.fedNode ++ List.replicate 12 0))] } }) ∧
    (∀ (p : Fin 2) (frame : List Byte) (clean : Bool) (w : Word),
      (s.fedActs = false → ∀ c ∈ [Instr.linkReqReceive t p frame clean w, .linkRespReceive t p frame clean], Completes c s fun u => u = s.at t) ∧
      (s.fedActs = true → ∀ c : Instr × Nat, c ∈ [(Instr.linkReqReceive t p frame clean w, 3), (.linkRespReceive t p frame clean, 4)] →
        frameOk 16 (natBytes frame) clean = false ∨ leAt (natBytes frame) 0 1 ≠ c.2 →
        Completes c.1 s (Sets Reg.FED_CNT.CRC (min (s.get Reg.FED_CNT.CRC + 1) 255) (s.at t)))) ∧
    (∀ (p : Fin 2) (frame : List Byte), s.fedActs = true → frameOk 16 (natBytes frame) true = true →
      (∀ w : Word, leAt (natBytes frame) 0 1 = 3 → Completes (.linkReqReceive t p frame true w) s fun u =>
        u = { s.at t with fed := { s.fed with sent := [(p.val, fedFrame ([4, 0] ++ leBytes 2 s.fedNode ++ leBytes 4 w.toNat ++ List.replicate 8 0))] } }) ∧
      (leAt (natBytes frame) 0 1 = 4 →
        ((∀ t1, s.fed.req ≠ some (t1, p.val)) → Completes (.linkRespReceive t p frame true) s fun u => u = s.at t) ∧
        (∀ t1, s.fed.req = some (t1, p.val) → Completes (.linkRespReceive t p frame true) s fun u => u.fed.req = none ∧
          (if p.val = 0 then u.fed.linkDelay0 else u.fed.linkDelay1) = (t.toNat - t1 - leAt (natBytes frame) 4 4) * 8 ∧
          (if p.val = 0 then u.fed.linkDelay1 = s.fed.linkDelay1 else u.fed.linkDelay0 = s.fed.linkDelay0) ∧
          u = { s.at t with fed := { s.fed with req := none, linkDelay0 := u.fed.linkDelay0, linkDelay1 := u.fed.linkDelay1 } }))) ∧
    (s.fedActs = false ∨ s.fedState ≠ fedMaster ∨ s.get Reg.FED_STAT.MODE ≠ 2 ∨ s.fed.unreturned = false → Completes (.fedFold t) s fun u => u = s.at t) ∧
    (s.fedActs = true → s.fedState = fedMaster → s.get Reg.FED_STAT.MODE = 2 → s.fed.unreturned = true → Completes (.fedFold t) s fun u =>
      u.get Reg.FED_STAT.MODE = 3 ∧ u.fed.sent.map (·.1) = [1, 0] ∧ u.fed = { s.fed with both := true, unreturned := false, recloseAt := none, healed := false, holes := 0, sent := u.fed.sent } ∧
      u = { s.at t with regs := u.regs, fed := u.fed } ∧ ∀ x, x ≠ Reg.FED_STAT → u.word x = s.word x) ∧
    (∀ n : Fin 512, s.fedActs = false ∨ s.fedState ≠ fedMaster ∨ tget 0 s.fed.edgeRuns n.val < 3 ∨ s.maskBit Reg.FED_MUTE n.val = true ∨ s.fed.mutes.contains n.val = true →
      Completes (.fedNodeMute t n) s fun u => u = s.at t) ∧
    (∀ n : Fin 512, s.fedActs = true → s.fedState = fedMaster → 3 ≤ tget 0 s.fed.edgeRuns n.val → s.maskBit Reg.FED_MUTE n.val = false →
      s.fed.mutes.contains n.val = false → Completes (.fedNodeMute t n) s fun u => u.fed.mutes = s.fed.mutes ++ [n.val] ∧
        u = ({ s.at t with fed := { s.fed with mutes := s.fed.mutes ++ [n.val] } }).log Src.archipelago Ev.NODE_MUTED n.val 1) ∧
    ∀ p : Fin 2,
      Completes (.dorluLinkDown t p) s (fun u => u.on (if p.val = 0 then Reg.FED_STAT.LINK0 else Reg.FED_STAT.LINK1) = false ∧ u.on Reg.FED_STAT.LOOPED = true ∧
        u.on Reg.FED_STAT.LOOP_LINK = false ∧ u.fed = { s.fed with loopRun := 0, loopPort := some p.val, remoteFault := u.fed.remoteFault } ∧
        (∀ x, x ∈ u.fed.remoteFault ↔ x = p.val ∨ x ∈ s.fed.remoteFault) ∧ u = { s.at t with regs := u.regs, fed := u.fed } ∧
        ∀ x, x ≠ Reg.FED_STAT → u.word x = s.word x) ∧
      Completes (.dorluLinkUp t p) s fun u => ∃ m, Sets (if p.val = 0 then Reg.FED_STAT.LINK0 else Reg.FED_STAT.LINK1) 1 (s.at t) m ∧
        u = { m with fed := { s.fed with remoteFault := u.fed.remoteFault } } ∧ ∀ x, x ∈ u.fed.remoteFault ↔ x ≠ p.val ∧ x ∈ s.fed.remoteFault) ∧
  ∀ (s : State) (t : Time), s.HostReady t →
    (s.fedState = fedMaster → Completes (.fedReclose t) s fun u => u = { s.written t with fed := { s.fed with reqReclose := true } }) ∧
    (∀ n : Fin 512, s.fedState ≠ fedMaster → ∀ c ∈ [Instr.fedReclose t, .fedMute t n, .fedUnmute t n], Completes c s fun u => u = s.written t) ∧
    (∀ n : Fin 512, s.maskBit Reg.FED_MUTE n.val = true ∨ s.fed.mutes.contains n.val = true → Completes (.fedMute t n) s fun u => u = s.written t) ∧
    (∀ n : Fin 512, s.fedState = fedMaster → s.maskBit Reg.FED_MUTE n.val = false → s.fed.mutes.contains n.val = false → Completes (.fedMute t n) s fun u =>
      u.fed.mutes = s.fed.mutes ++ [n.val] ∧ u.fed.unmutes = s.fed.unmutes.filter (· != n.val) ∧
      u = ({ s.written t with fed := { s.fed with mutes := s.fed.mutes ++ [n.val], unmutes := s.fed.unmutes.filter (· != n.val) } }).log
        Src.archipelago Ev.NODE_MUTED n.val 3) ∧
    (∀ n : Fin 512, s.fedState = fedMaster → Completes (.fedUnmute t n) s fun u => u.fed.unmutes = s.fed.unmutes ++ [n.val] ∧
      u.fed.mutes = s.fed.mutes.filter (· != n.val) ∧ tget 0 u.fed.edgeRuns n.val = 0 ∧ (∀ j, j ≠ n.val → tget 0 u.fed.edgeRuns j = tget 0 s.fed.edgeRuns j) ∧
      u = { s.written t with fed := { s.fed with unmutes := u.fed.unmutes, mutes := u.fed.mutes, edgeRuns := u.fed.edgeRuns } }) ∧
    Completes (.fedClr t) s fun u => u.word Reg.FED_LOOP_MAX = 0 ∧ u.word Reg.FED_CNT = 0 ∧ u = { s.written t with regs := u.regs } ∧
      ∀ x, x ≠ Reg.FED_LOOP_MAX → x ≠ Reg.FED_CNT → u.word x = (s.written t).word x
/-! ### Ethernet and network time (chapter 16) -/

/-- The Ethernet ports and the time domains (R343–R352). A link change is logged once. ARP and echo requests for an address of the port are answered, others are not; an unsupported frame is counted. A message for which no domain runs on its port, domain number and transport is discarded and counted; on a unit that takes no inputs it does
nothing. A slave stamps Sync, takes the origin from Sync or from the Follow_Up of the same number, sends delay requests, and measures with their responses, with peer delay with the Sync; a response that does not match does nothing. A master answers and sends; the bytes go out highest first. BMCA makes a slave a master and a master
acquire. A lost master is HOLDOVER, which a measurement, the delay's 60 stable seconds or a matching command end; a command that does not match is ignored, with a flag. The first measurement in ACQUIRING steps the time, the sixteenth in a row within LOCK_NS locks; in LOCKED the servo sets RATE, and an offset over STEP_MAX, or a path
delay step, leads to HOLDOVER without a correction. Commands that complete: ethLink, arpRequest, icmpEcho, ethFrameDiscard, ptpSyncReceive, ptpFollowUpReceive, ptpDelayReqSend, ptpDelayRespReceive, ptpPdelayRespReceive, ptpDelayReqReceive, ptpPdelayReqReceive, ptpAnnounceReceive, ptpSyncSend, ptpAnnounceSend, timeHoldover,
asymmetryUnverified, tdAcceptStep, tdConfirmAsym. -/
def Obligations.PortsAndTimeDomains : Prop :=
  (∀ (s : State) (t : Time), s.Ready t →
    (∀ (p : Fin 2) (up : Bool),
      (s.on (Reg.ETH_STAT.LINK p.val) = up → Completes (.ethLink t p up) s fun u => u = s.at t) ∧
      (s.on (Reg.ETH_STAT.LINK p.val) ≠ up → Completes (.ethLink t p up) s fun u => u.on (Reg.ETH_STAT.LINK p.val) = up ∧
        u = ((s.at t).setB (Reg.ETH_STAT.LINK p.val) up).log (Src.eth p.val) Ev.ETH_LINK (b2n up) 0)) ∧
    (∀ (p : Fin 2) (ip : Word) (data : List Byte),
      (∀ a, s.portAddr p.val ip.toNat = some a → Completes (.arpRequest t p ip) s (fun u => u = { s.at t with ethOut := [⟨p.val, 0, beBytes 6 a.mac ++ beBytes 4 a.ip⟩] }) ∧
        Completes (.icmpEcho t p ip data) s fun u => u = { s.at t with ethOut := [⟨p.val, 1, natBytes data⟩] }) ∧
      (s.portAddr p.val ip.toNat = none → Completes (.arpRequest t p ip) s (fun u => u = s.at t) ∧ Completes (.icmpEcho t p ip data) s fun u => u = s.at t)) ∧
    (∀ p : Fin 2,
      Completes (.ethFrameDiscard t p true) s (Sets (Reg.ETH_CNT.CRC p.val) (min (s.get (Reg.ETH_CNT.CRC p.val) + 1) 65535) (s.at t)) ∧
      Completes (.ethFrameDiscard t p false) s (Sets (Reg.ETH_CNT.DISCARD p.val) (min (s.get (Reg.ETH_CNT.DISCARD p.val) + 1) 65535) (s.at t))) ∧
    (∀ (p : Fin 2) (dom : Byte) (udp two : Bool) (seq : BitVec 16) (sec : BitVec 48) (ns : Word) (corr turn gm : BitVec 64) (fo : Bool),
      ∀ c ∈ [Instr.ptpSyncReceive t p dom udp seq two sec ns corr, .ptpFollowUpReceive t p dom udp seq sec ns corr, .ptpDelayReqReceive t p dom udp seq,
          .ptpDelayRespReceive t p dom udp seq sec ns corr, .ptpPdelayReqReceive t p dom udp seq, .ptpPdelayRespReceive t p dom udp seq turn corr,
          .ptpAnnounceReceive t p dom udp fo gm],
        (s.takesInputs = false → Completes c s fun u => u = s.at t) ∧
        (s.takesInputs = true → s.tdOf p.val dom.toNat udp = none → Completes c s
          (Sets (Reg.ETH_CNT.DISCARD p.val) (min (s.get (Reg.ETH_CNT.DISCARD p.val) + 1) 65535) (s.at t)))) ∧
    (∀ (p : Fin 2) (dom : Byte) (udp : Bool) (seq : BitVec 16) (sec : BitVec 48) (ns : Word) (corr : BitVec 64) (d : Nat),
      s.takesInputs = true → s.tdOf p.val dom.toNat udp = some d →
      (∀ two, s.tdSlave d = false → Completes (.ptpSyncReceive t p dom udp seq two sec ns corr) s fun u => u = s.at t) ∧
      (s.tdSlave d = true → Completes (.ptpSyncReceive t p dom udp seq true sec ns corr) s fun u => u.td d =
          { s.td d with sync := some (seq.toNat, (s.at t).rxTime d p.val, none, corrTime corr), syncAt := t.toNat } ∧
        (∀ j, j ≠ d → u.td j = s.td j) ∧ u = { s.at t with tds := u.tds }) ∧
      (s.tdSlave d = true → s.on (Reg.TD_CFG.P2P d) = true → Completes (.ptpSyncReceive t p dom udp seq false sec ns corr) s fun u =>
        u = ((s.at t).modTd d fun x => { x with sync := none, syncAt := t.toNat }).tdMeasure d
          ((s.at t).tdOffset d ((s.at t).rxTime d p.val) ((s.at t).originTime d sec.toNat ns.toNat) (corrTime corr) (sx 32 (s.word (Reg.TD_MPD d)))) (sx 32 (s.word (Reg.TD_MPD d)))) ∧
      (s.tdSlave d = true → s.on (Reg.TD_CFG.P2P d) = false → Completes (.ptpSyncReceive t p dom udp seq false sec ns corr) s fun u => u.td d =
          { s.td d with sync := some (seq.toNat, (s.at t).rxTime d p.val, some ((s.at t).originTime d sec.toNat ns.toNat), corrTime corr), syncAt := t.toNat } ∧
        (∀ j, j ≠ d → u.td j = s.td j) ∧ u = { s.at t with tds := u.tds }) ∧
      (s.tdSlave d = false ∨ (∀ a c, (s.td d).sync ≠ some (seq.toNat, a, none, c)) → Completes (.ptpFollowUpReceive t p dom udp seq sec ns corr) s fun u => u = s.at t) ∧
      (∀ a c, (s.td d).sync = some (seq.toNat, a, none, c) → s.tdSlave d = true → s.on (Reg.TD_CFG.P2P d) = true →
        Completes (.ptpFollowUpReceive t p dom udp seq sec ns corr) s fun u => u = ((s.at t).modTd d fun x => { x with sync := none }).tdMeasure d
          ((s.at t).tdOffset d a ((s.at t).originTime d sec.toNat ns.toNat) (c + corrTime corr) (sx 32 (s.word (Reg.TD_MPD d)))) (sx 32 (s.word (Reg.TD_MPD d)))) ∧
      (∀ a c, (s.td d).sync = some (seq.toNat, a, none, c) → s.tdSlave d = true → s.on (Reg.TD_CFG.P2P d) = false →
        Completes (.ptpFollowUpReceive t p dom udp seq sec ns corr) s fun u => u.td d =
            { s.td d with sync := some (seq.toNat, a, some ((s.at t).originTime d sec.toNat ns.toNat), c + corrTime corr) } ∧
          (∀ j, j ≠ d → u.td j = s.td j) ∧ u = { s.at t with tds := u.tds }) ∧
      (s.tdSlave d = false ∨ (∀ a, (s.td d).req ≠ some (seq.toNat, a)) ∨ s.on (Reg.TD_CFG.P2P d) = true ∨ (∀ q a b c, (s.td d).sync ≠ some (q, a, some b, c)) →
        Completes (.ptpDelayRespReceive t p dom udp seq sec ns corr) s fun u => u = s.at t) ∧
      (s.tdSlave d = false ∨ (∀ a, (s.td d).req ≠ some (seq.toNat, a)) ∨ s.on (Reg.TD_CFG.P2P d) = false →
        ∀ turn, Completes (.ptpPdelayRespReceive t p dom udp seq turn corr) s fun u => u = s.at t) ∧
      (∀ q t3 q2 t2 t1 c m, (s.td d).req = some (q, t3) → (s.td d).sync = some (q2, t2, some t1, c) → q = seq.toNat → s.tdSlave d = true →
        s.on (Reg.TD_CFG.P2P d) = false → HalfNs ((t2 - t1 - c) + ((s.at t).originTime d sec.toNat ns.toNat - t3 - corrTime corr)) m →
        Completes (.ptpDelayRespReceive t p dom udp seq sec ns corr) s fun u =>
          u = ((s.at t).modTd d fun x => { x with req := none }).tdMeasure d ((s.at t).tdOffset d t2 t1 c m) m) ∧
      (∀ q t1 m turn, (s.td d).req = some (q, t1) → q = seq.toNat → s.tdSlave d = true → s.on (Reg.TD_CFG.P2P d) = true →
        HalfNs ((s.at t).rxTime d p.val - t1 - corrTime turn - corrTime corr) m →
        Completes (.ptpPdelayRespReceive t p dom udp seq turn corr) s fun u => u.word (Reg.TD_MPD d) = ux 32 (satS 32 m) ∧
          u.td d = { s.td d with req := none, delays := (m :: (s.td d).delays).take 16 } ∧ (∀ j, j ≠ d → u.td j = s.td j) ∧
          (∀ x, x ≠ Reg.TD_MPD d → u.word x = s.word x) ∧ u = { s.at t with tds := u.tds, regs := u.regs }) ∧
      (s.tdState d = tdMaster → Completes (.ptpDelayReqReceive t p dom udp seq) s fun u =>
        u = { s.at t with ethOut := [⟨p.val, 6, [dom.toNat] ++ beBytes 2 seq.toNat ++ msgTime ((s.at t).rxTime d p.val)⟩] }) ∧
      (s.tdState d ≠ tdMaster → Completes (.ptpDelayReqReceive t p dom udp seq) s fun u => u = s.at t) ∧
      Completes (.ptpPdelayReqReceive t p dom udp seq) s (fun u =>
        u = { s.at t with ethOut := [⟨p.val, 7, [dom.toNat] ++ beBytes 2 seq.toNat ++ msgTime ((s.at t).rxTime d p.val)⟩] }) ∧
      ∀ gm : BitVec 64,
        (∀ f, s.get (Reg.TD_CFG.ROLE d) = 2 ∨ (f = false ∧ (s.get (Reg.TD_CFG.ROLE d) ≠ 0 ∨ s.tdSlave d = false)) →
          Completes (.ptpAnnounceReceive t p dom udp f gm) s fun u => u = s.at t) ∧
        (s.get (Reg.TD_CFG.ROLE d) ≠ 2 → s.tdState d ≠ tdMaster → Completes (.ptpAnnounceReceive t p dom udp true gm) s fun u =>
          u.td d = { s.td d with gm := gm.toNat } ∧ (∀ j, j ≠ d → u.td j = s.td j) ∧ u = { s.at t with tds := u.tds }) ∧
        (s.get (Reg.TD_CFG.ROLE d) ≠ 2 → s.tdState d = tdMaster → Completes (.ptpAnnounceReceive t p dom udp true gm) s fun u =>
          u.tdState d = tdAcquiring ∧ (u.td d).gm = gm.toNat ∧ (u.td d).back = true ∧ (u.td d).seen = false ∧ u = { s.at t with tds := u.tds, regs := u.regs }) ∧
        (s.get (Reg.TD_CFG.ROLE d) = 0 → s.tdSlave d = true → Completes (.ptpAnnounceReceive t p dom udp false gm) s fun u =>
          u.tdState d = tdMaster ∧ u.word (Reg.TD_RATE d) = 0 ∧ u.tdAt d t.toNat = (s.at t).tdAt d t.toNat ∧
          u = { s.at t with tds := u.tds, regs := u.regs })) ∧
    (∀ d : Fin 4,
      (s.takesInputs = true → s.tdSlave d.val = true → Completes (.ptpDelayReqSend t d) s fun u =>
        u.td d.val = { s.td d.val with req := some ((s.td d.val).seq, (s.at t).txTime d.val (s.get (Reg.TD_CFG.PORT d.val))), seq := ((s.td d.val).seq + 1) % 65536 } ∧
        u.ethOut = [⟨s.get (Reg.TD_CFG.PORT d.val), if s.on (Reg.TD_CFG.P2P d.val) then 5 else 4, [s.get (Reg.TD_CFG.DOMAIN d.val)] ++ beBytes 2 (s.td d.val).seq⟩] ∧
        u = { s.at t with tds := u.tds, ethOut := u.ethOut }) ∧
      (s.takesInputs = false ∨ s.tdSlave d.val = false → Completes (.ptpDelayReqSend t d) s fun u => u = s.at t) ∧
      (s.takesInputs = false ∨ s.tdState d.val ≠ tdMaster → Completes (.ptpSyncSend t d) s (fun u => u = s.at t) ∧ Completes (.ptpAnnounceSend t d) s fun u => u = s.at t) ∧
      (s.takesInputs = true → s.tdState d.val = tdMaster →
        Completes (.ptpAnnounceSend t d) s (fun u => u = { s.at t with ethOut := [⟨s.get (Reg.TD_CFG.PORT d.val), 8, [s.get (Reg.TD_CFG.DOMAIN d.val)]⟩] }) ∧
        ((s.td d.val).sentAt = none → Completes (.ptpSyncSend t d) s fun u => u.td d.val = { s.td d.val with sentAt := some t.toNat, seq := ((s.td d.val).seq + 1) % 65536 } ∧
          (s.on (Reg.TD_CFG.ONE_STEP d.val) = true → u.ethOut = [⟨s.get (Reg.TD_CFG.PORT d.val), 2, [s.get (Reg.TD_CFG.DOMAIN d.val)] ++ beBytes 2 (s.td d.val).seq ++
            msgTime ((s.at t).txTime d.val (s.get (Reg.TD_CFG.PORT d.val)))⟩]) ∧
          (s.on (Reg.TD_CFG.ONE_STEP d.val) = false → u.ethOut = [⟨s.get (Reg.TD_CFG.PORT d.val), 2, [s.get (Reg.TD_CFG.DOMAIN d.val)] ++ beBytes 2 (s.td d.val).seq⟩,
            ⟨s.get (Reg.TD_CFG.PORT d.val), 3, [s.get (Reg.TD_CFG.DOMAIN d.val)] ++ beBytes 2 (s.td d.val).seq ++ msgTime ((s.at t).txTime d.val (s.get (Reg.TD_CFG.PORT d.val)))⟩])) ∧
        (∀ t0, (s.td d.val).sentAt = some t0 → t.toNat < t0 + s.syncNs d.val → Completes (.ptpSyncSend t d) s fun u => u = s.at t)) ∧
      (∀ (c : Fin 4) (present : Bool), present = (c.val == 1 || (c.val == 2 && decide ((s.td d.val).syncAt + 3 * s.syncNs d.val ≤ t.toNat)) ||
          (c.val == 3 && !s.on (Reg.ETH_STAT.LINK (s.get (Reg.TD_CFG.PORT d.val))))) →
        (s.takesInputs = true → s.tdState d.val = tdLocked → present = true → Completes (.timeHoldover t d c) s fun u =>
          u.tdState d.val = tdHoldover ∧ u.get (Reg.TD_STAT.CAUSE d.val) = tcMaster ∧ u.tds = s.tds ∧ ∃ m : State, u = m.log (Src.domain d.val) Ev.TIME_HOLDOVER c.val 0) ∧
        (s.takesInputs = true → s.tdState d.val = tdAcquiring → c.val = 1 → s.get (Reg.TD_CFG.ROLE d.val) = 0 → Completes (.timeHoldover t d c) s fun u =>
          u.tdState d.val = tdMaster ∧ u.word (Reg.TD_RATE d.val) = 0 ∧ u = { s.at t with tds := u.tds, regs := u.regs }) ∧
        (s.takesInputs = false ∨ (s.tdState d.val ≠ tdLocked ∧ s.tdState d.val ≠ tdAcquiring) ∨ (s.tdState d.val = tdLocked ∧ present = false) ∨
            (s.tdState d.val = tdAcquiring ∧ (c.val ≠ 1 ∨ s.get (Reg.TD_CFG.ROLE d.val) ≠ 0)) → Completes (.timeHoldover t d c) s fun u => u = s.at t)) ∧
      (s.takesInputs = false ∨ s.tdState d.val ≠ tdHoldover ∨ s.get (Reg.TD_STAT.CAUSE d.val) ≠ tcDelay ∨ (s.td d.val).stable = none ∨
          (∃ t0 x, (s.td d.val).stable = some (t0, x) ∧ t.toNat < t0 + 60000000000) → Completes (.asymmetryUnverified t d) s fun u => u = s.at t) ∧
      (∀ (t0 n : Nat) (sum r lo hi : Int), (s.td d.val).stable = some (t0, n, sum, lo, hi) → sum = r * (n : Int) ∨
          (sum % (n : Int) ≠ 0 ∧ r = Config.wholeNs ((sum : Rat) / (n : Rat))) → n ≠ 0 → s.takesInputs = true → s.tdState d.val = tdHoldover → s.get (Reg.TD_STAT.CAUSE d.val) = tcDelay →
        t0 + 60000000000 ≤ t.toNat → Completes (.asymmetryUnverified t d) s fun u => u.tdState d.val = tdLocked ∧ u.get (Reg.TD_STAT.CAUSE d.val) = 0 ∧
          u.word (Reg.TD_MPD_REF d.val) = ux 32 r))) ∧
  (∀ (s : State) (t : Time) (d : Fin 4), s.HostReady t →
    (∀ c n k, (c = Instr.tdAcceptStep t d ∧ n = 1 ∧ k = tcJump) ∨ (c = .tdConfirmAsym t d ∧ n = 2 ∧ k = tcDelay) →
      (s.tdState d.val = tdHoldover → s.get (Reg.TD_STAT.CAUSE d.val) = k → Completes c s fun u => u.td d.val = { s.td d.val with cmd := some n } ∧
        (∀ j, j ≠ d.val → u.td j = s.td j) ∧ u = { s.written t with tds := u.tds }) ∧
      (s.tdState d.val ≠ tdHoldover ∨ s.get (Reg.TD_STAT.CAUSE d.val) ≠ k → Completes c s (Raises (Reg.TD_STAT.CMD_IGNORED d.val) (s.written t))))) ∧
  ∀ (s : State) (d : Fin 4) (th mpd : Int), -(2 ^ 31) ≤ th → th < 2 ^ 31 →
    (s.tdMeasure d.val th mpd).word (Reg.TD_OFFSET d.val) = ux 32 th ∧
    (s.tdState d.val = tdAcquiring → (s.td d.val).seen = false → (s.td d.val).back = false →
      (s.tdMeasure d.val th mpd).tdState d.val = tdAcquiring ∧ ((s.tdMeasure d.val th mpd).td d.val).seen = true ∧
      (s.tdMeasure d.val th mpd).tdAt d.val s.now = s.tdAt d.val s.now - th * nsUnit) ∧
    (s.tdState d.val = tdAcquiring → (s.td d.val).back = true → s.stepMax d.val < th.natAbs →
      (s.tdMeasure d.val th mpd).tdState d.val = tdHoldover ∧ (s.tdMeasure d.val th mpd).get (Reg.TD_STAT.CAUSE d.val) = tcJump) ∧
    (s.tdState d.val = tdAcquiring → (s.td d.val).seen = true ∨ (s.td d.val).back = true → th.natAbs < s.lockNs d.val → ((s.td d.val).back = true → th.natAbs ≤ s.stepMax d.val) →
      (s.tdMeasure d.val th mpd).tdState d.val = (if 15 ≤ (s.td d.val).good then tdLocked else tdAcquiring) ∧ ((s.tdMeasure d.val th mpd).td d.val).good = (s.td d.val).good + 1) ∧
    (s.tdState d.val = tdLocked ∨ (s.tdState d.val = tdHoldover ∧ s.get (Reg.TD_STAT.CAUSE d.val) = tcMaster) →
      (mpd - sx 32 (s.word (Reg.TD_MPD_REF d.val))).natAbs ≤ s.delayStep d.val →
      (th.natAbs ≤ s.stepMax d.val → (s.tdMeasure d.val th mpd).tdState d.val = tdLocked ∧ (s.tdMeasure d.val th mpd).tdAt d.val s.now = s.tdAt d.val s.now ∧
        ∀ i : Int, i = max (-(2 ^ 31 - 1)) (min (2 ^ 31 - 1) ((s.td d.val).int + (s.get (Reg.TD_SERVO.KI d.val) : Int) * th)) →
          ((s.tdMeasure d.val th mpd).td d.val).int = i ∧
          (s.tdMeasure d.val th mpd).tdRate d.val = max (-(2 ^ 31 - 1)) (min (2 ^ 31 - 1) ((s.get (Reg.TD_SERVO.KP d.val) : Int) * th + i))) ∧
      (s.stepMax d.val < th.natAbs → (s.tdMeasure d.val th mpd).tdState d.val = tdHoldover ∧
        (s.tdMeasure d.val th mpd).get (Reg.TD_STAT.CAUSE d.val) = tcJump ∧ ∀ T, (s.tdMeasure d.val th mpd).tdAt d.val T = s.tdAt d.val T)) ∧
    (s.tdState d.val = tdHoldover → s.get (Reg.TD_STAT.CAUSE d.val) = tcJump →
      ((s.td d.val).cmd = some 1 → (s.tdMeasure d.val th mpd).tdState d.val = tdAcquiring ∧ (s.tdMeasure d.val th mpd).tdAt d.val s.now = s.tdAt d.val s.now - th * nsUnit) ∧
      ((s.td d.val).cmd ≠ some 1 → (s.tdMeasure d.val th mpd).tdState d.val = tdHoldover ∧ ∀ T, (s.tdMeasure d.val th mpd).tdAt d.val T = s.tdAt d.val T)) ∧
    (s.tdState d.val = tdHoldover → s.get (Reg.TD_STAT.CAUSE d.val) = tcDelay →
      ((s.td d.val).cmd = some 2 → (s.tdMeasure d.val th mpd).tdState d.val = tdLocked ∧ (s.tdMeasure d.val th mpd).word (Reg.TD_MPD_REF d.val) = ux 32 mpd) ∧
      ((s.td d.val).cmd ≠ some 2 → (s.tdMeasure d.val th mpd).tdState d.val = tdHoldover ∧ ((s.tdMeasure d.val th mpd).td d.val).stable.isSome = true)) ∧
    (s.tdState d.val = tdLocked ∨ (s.tdState d.val = tdHoldover ∧ s.get (Reg.TD_STAT.CAUSE d.val) = tcMaster) → s.delayStep d.val < (mpd - sx 32 (s.word (Reg.TD_MPD_REF d.val))).natAbs →
      (s.tdMeasure d.val th mpd).tdState d.val = tdHoldover ∧ (s.tdMeasure d.val th mpd).get (Reg.TD_STAT.CAUSE d.val) = tcDelay)
/-! ### Point-stream port and queues (chapter 17) -/

/-- The port and the queues (R356–R366). A byte written while the port takes no writes is ignored; one for another queue than the one sampled before counts in SEL_ERR, once a second logged, one that PS_RDY holds counts in STALLS, and neither moves a byte. A byte enters the packer; the 32nd, or one with PS_EOR, closes the word, which is staged with
its zeros and its count. In a queue cycle in which a flush empties the queue its bytes are discarded. A staged word enters a queue that has room and was not full at the cycle's start, is mirrored in a pair, and the closed word takes its place; a record against its mode is dropped with what stood of it and counted, and its words are discarded up to
its last. A host push is refused for a request that is not allowed, counts in STALLS where there is no room, is discarded by a flush, and else enters the queue with what it says of a record dropped. A flush empties the queue for this queue cycle and the next. Watermarks are taken where 1 ≤ LWM < HWM, and refused otherwise. Commands that
complete: psWrite, stagedWordPush, hqPush, qFlush, qWatermarkWrite. -/
def Obligations.QueuesTakeWords : Prop :=
  (∀ (s : State) (t : Time) (q prev : Fin 16) (d : Byte) (eor : Bool), s.Ready t →
    (s.takesInputs = false ∨ (s.psOpen = false ∧ prev = q) → Completes (.psWrite t q prev d eor) s fun u => u = s.at t) ∧
    (s.takesInputs = true → prev ≠ q → Completes (.psWrite t q prev d eor) s fun u =>
      u.get Reg.PS_STAT.SEL_ERR = min (s.get Reg.PS_STAT.SEL_ERR + 1) 65535 ∧ u.queues = s.queues ∧ u.mem = s.mem ∧ u.items = s.items ∧
      (∀ b, Sets Reg.PS_STAT.SEL_ERR (min (s.get Reg.PS_STAT.SEL_ERR + 1) 65535) (s.at t) b →
        ((s.psErrAt = none ∨ ∃ a, s.psErrAt = some a ∧ a + 1000000000 ≤ t.toNat) → u.psErrAt = some t.toNat ∧
          u.toLog = (b.log (Src.queue 0) Ev.PS_SELECT_ERROR (min (s.get Reg.PS_STAT.SEL_ERR + 1) 65535) q.val).toLog) ∧
        ((∃ a, s.psErrAt = some a ∧ t.toNat < a + 1000000000) → Sets Reg.PS_STAT.SEL_ERR (min (s.get Reg.PS_STAT.SEL_ERR + 1) 65535) (s.at t) u))) ∧
    (s.psOpen = true → prev = q → s.psReady q.val = false → Completes (.psWrite t q prev d eor) s
      (Sets (Reg.Q_ERR.STALLS q.val) (min (s.get (Reg.Q_ERR.STALLS q.val) + 1) 65535) (s.at t))) ∧
    (∀ a, s.psOpen = true → prev = q → s.psReady q.val = true → (s.queue q.val).flushAt = some a → t.toNat ≤ a → Completes (.psWrite t q prev d eor) s fun u => u = s.at t) ∧
    (s.psOpen = true → prev = q → s.psReady q.val = true → (∀ a, (s.queue q.val).flushAt = some a → a < t.toNat) →
      ((s.queue q.val).asm.length ≠ 31 → eor = false → Completes (.psWrite t q prev d eor) s fun u =>
        u.queue q.val = { s.queue q.val with asm := (s.queue q.val).asm ++ [d.toNat] } ∧ (∀ j, j ≠ q.val → u.queue j = s.queue j) ∧
        u = { s.at t with queues := u.queues, regs := u.regs }) ∧
      ((s.queue q.val).asm.length = 31 ∨ eor = true → (s.queue q.val).staged = none → Completes (.psWrite t q prev d eor) s fun u =>
        u.queue q.val = { s.queue q.val with
          asm := [], staged := some ⟨padWord ((s.queue q.val).asm ++ [d.toNat]), (s.queue q.val).asm.length + 1, eor, 0, 0⟩ } ∧
        u.on (Reg.Q_STAT.STAGED q.val) = true ∧ (∀ j, j ≠ q.val → u.queue j = s.queue j) ∧
        u = { s.at t with queues := u.queues, regs := u.regs }) ∧
      ((s.queue q.val).asm.length = 31 ∨ eor = true → (s.queue q.val).staged.isSome = true → Completes (.psWrite t q prev d eor) s fun u =>
        u.queue q.val = { s.queue q.val with
          asm := [], closed := some ⟨padWord ((s.queue q.val).asm ++ [d.toNat]), (s.queue q.val).asm.length + 1, eor, 0, 0⟩ } ∧
        u.on (Reg.Q_STAT.CLOSED q.val) = true ∧ (∀ j, j ≠ q.val → u.queue j = s.queue j) ∧
        u = { s.at t with queues := u.queues, regs := u.regs }))) ∧
  (∀ (s : State) (t : Time) (q : Fin 16), s.Ready t →
    ((s.queue q.val).staged = none ∨ 512 ≤ (s.queue q.val).words.length ∨ (s.queue q.val).fullAt = some t.toNat → Completes (.stagedWordPush t q) s fun u => u = s.at t) ∧
    (∀ w, (s.queue q.val).staged = some w → (s.queue q.val).words.length < 512 → (s.queue q.val).fullAt ≠ some t.toNat →
      Completes (.stagedWordPush t q) s fun u =>
        (∃ lost, EntersQueue q.val { s.queue q.val with staged := (s.queue q.val).closed, closed := none } { w with start := s.wordStart } lost (s.at t) u) ∧
        (u.mirrorOut = if s.inPair then s.mirrorOut ++ [⟨1, s.servoNo + 2, q.val :: (w.valid + 64 * b2n w.last) :: w.bytes⟩] else s.mirrorOut) ∧
        u.items = s.items ∧ u.mem = s.mem)) ∧
  ∀ (s : State) (t : Time) (q : Fin 32), s.HostReady t →
    (∀ (valid : Fin 64) (last : Bool) (tag : BitVec 16),
      (q.val < 16 ∨ valid.val = 0 ∨ 32 < valid.val ∨ (valid.val < 32 ∧ last = false) → Completes (.hqPush t q valid last tag) s fun u =>
        u.get Reg.HQ_RESULT.TAG = tag.toNat ∧ u.get Reg.HQ_RESULT.STATUS = 2 ∧ u = { s.written t with regs := u.regs } ∧
        ∀ a, a ≠ Reg.HQ_RESULT → u.word a = (s.written t).word a) ∧
      (16 ≤ q.val → 0 < valid.val → valid.val ≤ 32 → (valid.val = 32 ∨ last = true) →
        (512 ≤ (s.queue q.val).words.length ∨ (s.queue q.val).fullAt = some t.toNat → Completes (.hqPush t q valid last tag) s fun u =>
          u.get Reg.HQ_RESULT.TAG = tag.toNat ∧ u.get Reg.HQ_RESULT.STATUS = 1 ∧
          u.get (Reg.Q_ERR.STALLS q.val) = min (s.get (Reg.Q_ERR.STALLS q.val) + 1) 65535 ∧ u = { s.written t with regs := u.regs } ∧
          ∀ a, a ≠ Reg.HQ_RESULT → a ≠ Reg.Q_ERR q.val → u.word a = (s.written t).word a) ∧
        (∀ a, (s.queue q.val).words.length < 512 → (s.queue q.val).fullAt ≠ some t.toNat → (s.queue q.val).flushAt = some a → t.toNat ≤ a →
          Completes (.hqPush t q valid last tag) s fun u => u.get Reg.HQ_RESULT.TAG = tag.toNat ∧ u.get Reg.HQ_RESULT.STATUS = 0 ∧ u = { s.written t with regs := u.regs } ∧
            ∀ a, a ≠ Reg.HQ_RESULT → u.word a = (s.written t).word a) ∧
        ((s.queue q.val).words.length < 512 → (s.queue q.val).fullAt ≠ some t.toNat → (∀ a, (s.queue q.val).flushAt = some a → a < t.toNat) →
          Completes (.hqPush t q valid last tag) s fun u =>
            (∃ lost, EntersQueue q.val (s.queue q.val) ⟨padWord (s.hqData.take valid.val), valid.val, last, s.wordStart, 0⟩ lost (s.written t) u ∧
              u.get Reg.HQ_RESULT.STATUS = if lost then 3 else 0) ∧
            u.get Reg.HQ_RESULT.TAG = tag.toNat ∧ u.mirrorOut = s.mirrorOut ∧ u.items = s.items ∧ u.mem = s.mem))) ∧
    Completes (.qFlush t q) s (fun u => u.queue q.val = { (default : QueueSt) with flushAt := some (t.toNat + 1) } ∧ u.get (Reg.Q_STAT.DEPTH q.val) = 0 ∧
      u.on (Reg.Q_STAT.STAGED q.val) = false ∧ u.on (Reg.Q_STAT.CLOSED q.val) = false ∧ u.get (Reg.Q_STAT.FILL q.val) = 0 ∧ (∀ j, j ≠ q.val → u.queue j = s.queue j) ∧
      u = { s.written t with queues := u.queues, regs := u.regs }) ∧
    ∀ hwm lwm : Fin 512,
      (1 ≤ lwm.val ∧ lwm.val < hwm.val → Completes (.qWatermarkWrite t q hwm lwm) s fun u =>
        u.get (Reg.Q_CFG.HWM q.val) = hwm.val ∧ u.get (Reg.Q_CFG.LWM q.val) = lwm.val ∧
        u.on (Reg.Q_STAT.ABOVE q.val) = decide (hwm.val < (s.queue q.val).words.length) ∧
        u.on (Reg.Q_STAT.BELOW q.val) = decide ((s.queue q.val).words.length < lwm.val) ∧ u = { s.written t with regs := u.regs }) ∧
      (¬ (1 ≤ lwm.val ∧ lwm.val < hwm.val) → Completes (.qWatermarkWrite t q hwm lwm) s (Raises (Reg.Q_STAT.CFG_REFUSED q.val) (s.written t)))

/-! ### The image (chapter 18) -/

/-- The session that writes an image (R379, R380), flash access (R381) and the mirror's writes (R224). Each host command is taken as any counted write is. BEGIN opens a session on the copy not in use and aborts one under way; its erase done it is OPEN. IMG_OFS takes a multiple of
4 below 32 MiB; IMG_DATA goes to the header buffer or to the flash, each word once, and IMG_OFS advances; what is out of order sets SEQ_ERR and does nothing else. COMMIT puts SEQ into the
header and starts the check, which ends ACCEPTED with the header written or REJECTED with its reason. ABORT ends a session; with none it does nothing. Programming waits while the mirror or the archive has writes
pending, and goes on with the last of them. A read of FL_DATA advances FL_ADDR. Commands that complete: imgBegin, imageEraseDone, imgOfsWrite, imgDataWrite, imgCommit, imageCheckDone, imgAbort, flDataRead, mirrorEntryWrite. -/
def Obligations.ImagesAreWritten : Prop :=
  (∀ (s : State) (t : Time), s.HostReady t →
    Completes (.imgBegin t) s (fun u => u.get Reg.IMG_STAT.PHASE = 1 ∧ u.get Reg.IMG_STAT.TARGET = s.imgTarget ∧
      (s.get Reg.IMG_STAT.PHASE ≠ 0 → u.get Reg.IMG_STAT.STATUS = 3) ∧ (s.get Reg.IMG_STAT.PHASE = 0 → u.get Reg.IMG_STAT.STATUS = s.get Reg.IMG_STAT.STATUS) ∧
      u.flash = s.flash.filter (fun c => decide (c.1 < copyBase s.imgTarget) || decide (copyBase s.imgTarget + 65536 ≤ c.1)) ∧
      u.imgSess.ofsBad = s.imgSess.ofsBad ∧ u = { s.written t with regs := u.regs, flash := u.flash, imgSess := u.imgSess }) ∧
    (∀ v : Word,
      (v.toNat < 0x2000000 → v.toNat % 4 = 0 → Completes (.imgOfsWrite t v) s fun u => u.word Reg.IMG_OFS = v.toNat ∧
        u.imgSess = { s.imgSess with ofsBad := false } ∧ u = { s.written t with regs := u.regs, imgSess := u.imgSess } ∧
        ∀ a, a ≠ Reg.IMG_OFS → u.word a = (s.written t).word a) ∧
      (0x2000000 ≤ v.toNat ∨ v.toNat % 4 ≠ 0 → Completes (.imgOfsWrite t v) s fun u => ∃ m, Raises Reg.IMG_STAT.SEQ_ERR (s.written t) m ∧
        u = { m with imgSess := { s.imgSess with ofsBad := true } }) ∧
      (s.get Reg.IMG_STAT.PHASE ≠ 2 ∨ s.imgSess.ofsBad = true ∨ 0x2000000 ≤ s.word Reg.IMG_OFS ∨
        (0x100 ≤ s.word Reg.IMG_OFS ∧ tget false s.imgSess.done (s.word Reg.IMG_OFS) = true) →
        Completes (.imgDataWrite t v) s (Raises Reg.IMG_STAT.SEQ_ERR (s.written t))) ∧
      (s.get Reg.IMG_STAT.PHASE = 2 → s.imgSess.ofsBad = false → s.word Reg.IMG_OFS < 0x100 → Completes (.imgDataWrite t v) s fun u =>
        u.word Reg.IMG_OFS = s.word Reg.IMG_OFS + 4 ∧ u = { s.written t with regs := u.regs, imgSess := u.imgSess } ∧
        (∀ i, tget 0xFF u.imgSess.hdr i = if s.word Reg.IMG_OFS ≤ i ∧ i < s.word Reg.IMG_OFS + 4 then v.toNat / 256 ^ (i - s.word Reg.IMG_OFS) % 256
          else tget 0xFF s.imgSess.hdr i)) ∧
      (s.get Reg.IMG_STAT.PHASE = 2 → s.imgSess.ofsBad = false → 0x100 ≤ s.word Reg.IMG_OFS → s.word Reg.IMG_OFS < 0x2000000 →
        tget false s.imgSess.done (s.word Reg.IMG_OFS) = false → (s.at t).flashPending = false → Completes (.imgDataWrite t v) s fun u =>
        u.word Reg.IMG_OFS = s.word Reg.IMG_OFS + 4 ∧ tget false u.imgSess.done (s.word Reg.IMG_OFS) = true ∧
        u.flash = mwrite 0xFF s.flash (copyBase (s.get Reg.IMG_STAT.TARGET) + s.word Reg.IMG_OFS) (leBytes 4 v.toNat) ∧
        u.imgSess.waiting = s.imgSess.waiting ∧ u = { s.written t with regs := u.regs, imgSess := u.imgSess, flash := u.flash }) ∧
      (s.get Reg.IMG_STAT.PHASE = 2 → s.imgSess.ofsBad = false → 0x100 ≤ s.word Reg.IMG_OFS → s.word Reg.IMG_OFS < 0x2000000 →
        tget false s.imgSess.done (s.word Reg.IMG_OFS) = false → (s.at t).flashPending = true → Completes (.imgDataWrite t v) s fun u =>
        u.word Reg.IMG_OFS = s.word Reg.IMG_OFS + 4 ∧ tget false u.imgSess.done (s.word Reg.IMG_OFS) = true ∧ u.on Reg.IMG_STAT.BUSY = true ∧
        u.imgSess.waiting = s.imgSess.waiting ++ [(s.word Reg.IMG_OFS, v.toNat)] ∧ u = { s.written t with regs := u.regs, imgSess := u.imgSess })) ∧
    (s.get Reg.IMG_STAT.PHASE ≠ 2 → Completes (.imgCommit t) s (Raises Reg.IMG_STAT.SEQ_ERR (s.written t))) ∧
    (s.get Reg.IMG_STAT.PHASE = 2 → Completes (.imgCommit t) s fun u => u.get Reg.IMG_STAT.PHASE = 3 ∧ u.flash = s.flash ∧
      (∀ i, i < 4 → tget 0xFF u.imgSess.hdr (8 + i) = (match s.img.seq with
        | some n => (n + 1) % 2 ^ 32
        | none => 1) / 256 ^ i % 256) ∧
      (∀ i, i < 8 ∨ (12 ≤ i ∧ i < 252) → tget 0xFF u.imgSess.hdr i = tget 0xFF s.imgSess.hdr i) ∧
      leAt u.imgSess.header 252 4 = crc32c (u.imgSess.header.take 252) ∧ u = { s.written t with regs := u.regs, imgSess := u.imgSess }) ∧
    (s.get Reg.IMG_STAT.PHASE = 0 → Completes (.imgAbort t) s fun u => u = s.written t) ∧
    (s.get Reg.IMG_STAT.PHASE ≠ 0 → Completes (.imgAbort t) s fun u => u.get Reg.IMG_STAT.PHASE = 0 ∧ u.get Reg.IMG_STAT.STATUS = 3 ∧
      u.get Reg.IMG_STAT.BUSY = 0 ∧ u.imgSess = { (default : ImgSess) with ofsBad := s.imgSess.ofsBad } ∧ u.flash = s.flash ∧
      u = { s.written t with regs := u.regs, imgSess := u.imgSess } ∧ ∀ a, a ≠ Reg.IMG_STAT → u.word a = (s.written t).word a)) ∧
  ∀ (s : State) (t : Time), s.Ready t →
    (s.get Reg.IMG_STAT.PHASE ≠ 1 → Completes (.imageEraseDone t) s fun u => u = s.at t) ∧
    (s.get Reg.IMG_STAT.PHASE = 1 → Completes (.imageEraseDone t) s fun u => u.get Reg.IMG_STAT.PHASE = 2 ∧
      u.flash = s.flash.filter (fun c => decide (c.1 < copyBase (s.get Reg.IMG_STAT.TARGET)) || decide (copyBase (s.get Reg.IMG_STAT.TARGET) + 0x2000000 ≤ c.1)) ∧
      u = { s.at t with regs := u.regs, flash := u.flash } ∧ ∀ a, a ≠ Reg.IMG_STAT → u.word a = s.word a) ∧
    (s.get Reg.IMG_STAT.PHASE ≠ 3 ∨ s.on Reg.IMG_STAT.BUSY = true → Completes (.imageCheckDone t) s fun u => u = s.at t) ∧
    (s.get Reg.IMG_STAT.PHASE = 3 → s.on Reg.IMG_STAT.BUSY = false →
      (∀ raw, raw = s.imgSess.header ++ (if imgLength s.imgSess.header ≤ 0x2000000 then
          s.flashRead (copyBase (s.get Reg.IMG_STAT.TARGET) + 256) (imgLength s.imgSess.header - 256) else []) →
        (s.flashOk = true → checkImage raw = none → Completes (.imageCheckDone t) s fun u => u.get Reg.IMG_STAT.PHASE = 0 ∧ u.get Reg.IMG_STAT.STATUS = 1 ∧
          u.flash = mwrite 0xFF s.flash (copyBase (s.get Reg.IMG_STAT.TARGET)) s.imgSess.header ∧
          ∃ b : State, b.toLog = s.toLog ∧ u = b.log Src.configuration Ev.IMAGE_WRITTEN (s.get Reg.IMG_STAT.TARGET) (leAt s.imgSess.header 8 4)) ∧
        (∀ x, s.flashOk = true → checkImage raw = some x → Completes (.imageCheckDone t) s fun u => u.get Reg.IMG_STAT.PHASE = 0 ∧ u.get Reg.IMG_STAT.STATUS = 2 ∧
          u.get Reg.IMG_STAT.REASON = x.reason % 16 ∧ u.flash = s.flash ∧
          ∃ b : State, b.toLog = s.toLog ∧ u = b.log Src.configuration Ev.IMAGE_REJECTED (s.get Reg.IMG_STAT.TARGET + 256 * x.reason) x.ofs)) ∧
      (s.flashOk = false → Completes (.imageCheckDone t) s fun u => u.get Reg.IMG_STAT.PHASE = 0 ∧ u.get Reg.IMG_STAT.STATUS = 2 ∧
        u.get Reg.IMG_STAT.REASON = 1 ∧ u.flash = s.flash)) ∧
    Completes (.flDataRead t) s (fun u => u.word Reg.FL_ADDR = (s.word Reg.FL_ADDR + 4) % 2 ^ 32 ∧ u.flash = s.flash ∧
      u.out = [(s.at t).flashWord (s.word Reg.FL_ADDR)] ∧ u = { s.at t with regs := u.regs, out := u.out, freeCount := s.freeCount + 1 } ∧
      ∀ a, a ≠ Reg.FL_ADDR → u.word a = s.word a) ∧
    ∀ i : Fin 4096, (s.mirrorBusy.contains i.val = false → Completes (.mirrorEntryWrite t i) s fun u => u = s.at t) ∧
      (s.mirrorBusy.contains i.val = true → Completes (.mirrorEntryWrite t i) s fun u => u.mirrorBusy = s.mirrorBusy.filter (· != i.val) ∧ u.cartMirror = s.cartMirror ∧
        (u.imgSess.waiting = if ({ s.at t with mirrorBusy := u.mirrorBusy }).flashPending then s.imgSess.waiting else []))
/-! ### Life cycle, self-test, repair (chapter 19) -/

/-- Self-tests, repair and the life cycle (R386, R388–R398). Within 50 ms of its beginning no step ends. A step without a failure counts one step; the last step of a group marks its elements tested and begins the next group. A failing
core, engine or pipeline in service is mapped onto the lowest free spare and marked covered, or marked uncovered where none is free. The shutdown test ends with a record of ORIGIN 1 and OFF_READY; other records are written as they fall due.
LC_CTRL takes only the changes of R386. A rotation chooses the lowest free engine, waits for its copy and ends by the test's outcome. A direct test is taken where R398 allows it, and RESTORE after three passes. A direct test that fails
changes no record; a run that is to end early ends with its step. A failing memory row is mapped onto its own spare row, or the memory marked uncovered. Commands that complete: selftestStepEnd, testSequenceComplete, repairRecordWrite, rotationStart, rotationCopyDone, rotationTestDone, lcCtrlWrite, bistRun, bistRestore. -/
def Obligations.TestsAndRepair : Prop :=
  (∀ (s : State) (t : Time), s.Ready t →
    (∀ fails : List (Byte × List Word),
      (s.rep.run = none → Completes (.selftestStepEnd t fails) s fun u => u = s.at t) ∧
      (∀ x, s.rep.run = some x → x.groups = [] ∨ t.toNat < x.since + 50000000 → Completes (.selftestStepEnd t fails) s fun u => u = s.at t)) ∧
    (∀ x no es steps rest, s.rep.run = some x → x.groups = (no, es, steps) :: rest → x.since + 50000000 ≤ t.toNat → x.abandon = false →
      (x.step + 1 < steps → Completes (.selftestStepEnd t []) s fun u =>
        u.rep = { s.rep with run := some { x with since := x.since + 50000000, step := x.step + 1 } } ∧ u.get Reg.ST_STAT.PHASE = 1 ∧
        u.get Reg.ST_STAT.GROUP = no % 16 ∧ u = { s.at t with regs := u.regs, rep := u.rep } ∧ ∀ a, a ≠ Reg.ST_STAT → u.word a = s.word a) ∧
      (steps ≤ x.step + 1 → rest ≠ [] → x.path ≠ 3 → Completes (.selftestStepEnd t []) s fun u =>
        u.rep.run = some { x with since := x.since + 50000000, step := 0, groups := rest } ∧ (∀ e ∈ es, u.rep.rcd.untested e = 0) ∧
        (∀ e, e ∉ es → u.rep.rcd.untested e = s.rep.rcd.untested e) ∧ (∀ e, u.rep.rcd.state e = s.rep.rcd.state e) ∧
        u = { s.at t with regs := u.regs, rep := u.rep }) ∧
      (steps ≤ x.step + 1 → rest = [] → x.path = 0 → Completes (.selftestStepEnd t []) s fun u =>
        u.get Reg.ST_STAT.PHASE = 2 ∧ u.rep.run = some { x with since := x.since + 50000000, step := 0, groups := [] }) ∧
      (∀ e, steps ≤ x.step + 1 → rest = [] → x.path = 3 → es = [e] → s.get Reg.ST_STAT.FAILS = 0 → Completes (.selftestStepEnd t []) s fun u =>
        u.get Reg.BIST_STAT.STATUS = 2 ∧ u.rep.run = none ∧ tget 0 u.rep.passes e = tget 0 s.rep.passes e + 1 ∧ u.rep.rcd = s.rep.rcd ∧
        u.get Reg.ST_STAT.PHASE = 0) ∧
      (∀ (e : Byte) (rows : List Word), x.path = 3 → es = [e.toNat] → rest = [] → Completes (.selftestStepEnd t [(e, rows)]) s fun u =>
        u.get Reg.BIST_STAT.STATUS = 3 ∧ u.rep = { s.rep with run := none, passes := u.rep.passes } ∧ tget 0 u.rep.passes e.toNat = 0 ∧
        u.toLog = (s.at t |>.log Src.repair Ev.BIST_FAIL (e.toNat + 768) (x.step + 1)).toLog ∧ u.flash = s.flash) ∧
      (∀ (e : Byte) (rows : List Word), x.path ≠ 3 → e.toNat ∈ es → x.step + 1 < steps → Completes (.selftestStepEnd t [(e, rows)]) s fun u =>
        u.rep = { ((s.at t).elementFails x.path e.toNat (x.step + 1) (rows.map BitVec.toNat)).rep with
          run := some { x with since := x.since + 50000000, step := x.step + 1 } } ∧
        u.toLog = ((s.at t).elementFails x.path e.toNat (x.step + 1) (rows.map BitVec.toNat)).toLog)) ∧
    (∀ x no es steps rest, s.rep.run = some x → x.groups = (no, es, steps) :: rest → x.since + 50000000 ≤ t.toNat → x.abandon = true → x.path ≠ 3 →
      Completes (.selftestStepEnd t []) s fun u => u.rep.run = none ∧ u.devState ≠ devShutdownTest) ∧
    (s.rep.run = none → Completes (.testSequenceComplete t) s fun u => u = s.at t) ∧
    (∀ x, s.rep.run = some x → s.devState ≠ devShutdownTest ∨ x.groups ≠ [] ∨ (s.at t).flashPending = true → Completes (.testSequenceComplete t) s fun u => u = s.at t) ∧
    (∀ x, s.rep.run = some x → s.devState = devShutdownTest → x.groups = [] → (s.at t).flashPending = false → Completes (.testSequenceComplete t) s fun u =>
      u.get Reg.ST_STAT.PHASE = 3 ∧ u.on Reg.DEV_STATE.OFF_READY = true ∧ u.rep = { s.rep with run := none, rcd := { s.rep.rcd with
        seq := (s.rep.rcd.seq + 1) % 2 ^ 32, origin := 1 } } ∧ (s.on Reg.FL_INFO.PRESENT = true → u.get Reg.REP_STAT.COPY = s.recordTarget)) ∧
    (s.rep.due = [] ∨ (s.at t).flashPending = true → Completes (.repairRecordWrite t) s fun u => u = s.at t) ∧
    (∀ o rest, s.rep.due = o :: rest → (s.at t).flashPending = false → Completes (.repairRecordWrite t) s fun u =>
      u.rep = { s.rep with due := rest, rcd := { s.rep.rcd with seq := (s.rep.rcd.seq + 1) % 2 ^ 32, origin := o } } ∧
      (s.on Reg.FL_INFO.PRESENT = true → u.on Reg.REP_STAT.VALID = true ∧ u.get Reg.REP_STAT.COPY = s.recordTarget ∧
        u.flash = mwrite 0xFF ((s.flashErase (repairBase s.recordTarget) 65536).flash) (repairBase s.recordTarget) u.rep.rcd.bytes) ∧
      (s.on Reg.FL_INFO.PRESENT = false → u.flash = s.flash)) ∧
    (s.on Reg.ROT_CFG.EN = false ∨ (s.lifecycle ≠ lcCommission ∧ s.lifecycle ≠ lcProduction) ∨ (s.devState ≠ devReduced ∧ s.devState ≠ devAutomatic) ∨
      s.get Reg.ROT_STAT.PHASE ≠ rotIdle ∨ t.toNat < s.rep.rotAt + s.get Reg.ROT_CFG.PERIOD * 1000000000 →
      Completes (.rotationStart t) s fun u => u = s.at t) ∧
    (s.on Reg.ROT_CFG.EN = true → s.lifecycle = lcCommission ∨ s.lifecycle = lcProduction → s.devState = devReduced ∨ s.devState = devAutomatic →
      s.get Reg.ROT_STAT.PHASE = rotIdle → s.rep.rotAt + s.get Reg.ROT_CFG.PERIOD * 1000000000 ≤ t.toNat →
      (s.freeEngines = [] → Completes (.rotationStart t) s fun u => u.on Reg.ROT_STAT.SUSPENDED = true ∧ u.get Reg.ROT_STAT.PHASE = rotIdle ∧
        u.rep = { s.rep with rotAt := t.toNat } ∧ (s.on Reg.ROT_STAT.SUSPENDED = true → u.toLog = s.toLog)) ∧
      (∀ p l, s.freeEngines = p :: l → Completes (.rotationStart t) s fun u => u.get Reg.ROT_STAT.PHASE = rotCopying ∧ u.get Reg.ROT_STAT.SPARE = p ∧
        u.get Reg.ROT_STAT.ENGINE = s.rep.rotNext % 16 ∧ u.on Reg.ROT_STAT.SUSPENDED = false ∧
        u.rep = { s.rep with rotAt := t.toNat, rotFrom := s.get (Reg.LE_STAT.PHYS s.rep.rotNext), rotMove := false } ∧
        u = { s.at t with regs := u.regs, rep := u.rep } ∧ ∀ a, a ≠ Reg.ROT_STAT → u.word a = s.word a)) ∧
    (s.get Reg.ROT_STAT.PHASE ≠ rotCopying → s.get Reg.ROT_STAT.PHASE ≠ rotReturning → Completes (.rotationCopyDone t) s fun u => u = s.at t) ∧
    (s.get Reg.ROT_STAT.PHASE = rotCopying ∨ s.get Reg.ROT_STAT.PHASE = rotReturning →
      ((s.at t).rotPathOk = true → Completes (.rotationCopyDone t) s fun u => u = { s.at t with rep := { s.rep with rotMove := true } }) ∧
      ((s.at t).rotPathOk = false → Completes (.rotationCopyDone t) s fun u => u.get Reg.ROT_STAT.PHASE = rotIdle ∧
        u.rep = { s.rep with rotMove := false, rotPaused := false, rotNext := (s.get Reg.ROT_STAT.ENGINE + 1) % 16 } ∧
        ∀ a, a ≠ Reg.ROT_STAT → u.word a = s.word a)) ∧
    ∀ step : Byte,
      (s.get Reg.ROT_STAT.PHASE ≠ rotTesting ∨ s.rep.rotPaused = true → ∀ pass, Completes (.rotationTestDone t pass step) s fun u => u = s.at t) ∧
      (s.get Reg.ROT_STAT.PHASE = rotTesting → s.rep.rotPaused = false →
        (t.toNat < s.rep.rotTest + 40000000 → Completes (.rotationTestDone t true step) s fun u => u = s.at t) ∧
        (s.rep.rotTest + 40000000 ≤ t.toNat → Completes (.rotationTestDone t true step) s fun u => u.get Reg.ROT_STAT.PHASE = rotReturning ∧
          u.rep.rcd.untested (32 + s.rep.rotFrom) = 0 ∧ u.rep.rcd.map = s.rep.rcd.map ∧ u = { s.at t with regs := u.regs, rep := u.rep } ∧
          ∀ a, a ≠ Reg.ROT_STAT → u.word a = s.word a) ∧
        Completes (.rotationTestDone t false step) s fun u => u.get Reg.ROT_STAT.PHASE = rotIdle ∧ u.rep.rcd.state (32 + s.rep.rotFrom) = 1 ∧
          u.rep.rcd.map = { s.rep.rcd.map with engs := s.rep.rcd.map.engs.set (s.get Reg.ROT_STAT.ENGINE) (s.get Reg.ROT_STAT.SPARE) } ∧
          u.rep.due = s.rep.due ++ [3] ∧ u.get Reg.ROT_COUNT.COUNT = (s.get Reg.ROT_COUNT.COUNT + 1) % 2 ^ 32)) ∧
  (∀ (s : State) (path e step : Nat) (rows : List Nat), elemKind e ≤ 2 → s.rep.rcd.state e = 0 → e ∉ s.rep.factoryFailed →
    e - kindBase (elemKind e) ∈ s.rep.rcd.map.of (elemKind e) →
    (∀ q l, s.rep.free (elemKind e) (s.rep.rcd.map.of (elemKind e)) = q :: l → (s.elementFails path e step rows).rep.rcd.state e = 1 ∧
      (s.elementFails path e step rows).rep.rcd.map.of (elemKind e) =
        (s.rep.rcd.map.of (elemKind e)).map fun y => if y = e - kindBase (elemKind e) then q else y) ∧
    (s.rep.free (elemKind e) (s.rep.rcd.map.of (elemKind e)) = [] → (s.elementFails path e step rows).rep.rcd.state e = 2 ∧
      (s.elementFails path e step rows).rep.rcd.map = s.rep.rcd.map)) ∧
  (∀ (s : State) (path e step : Nat) (rows : List Nat),
    (elemKind e ≤ 2 → s.rep.rcd.state e ≠ 0 ∨ e ∈ s.rep.factoryFailed → (s.elementFails path e step rows).rep = s.rep) ∧
    (elemKind e ≤ 2 → s.rep.rcd.state e = 0 → e ∉ s.rep.factoryFailed → e - kindBase (elemKind e) ∉ s.rep.rcd.map.of (elemKind e) →
      (s.elementFails path e step rows).rep = { s.rep with rcd := s.rep.rcd.mark e 1 }) ∧
    (elemKind e = 3 ∨ elemKind e = 4 → s.rep.rcd.rowsUsed e + rows.length ≤ spareRows e →
      (s.elementFails path e step rows).rep.rcd.map = s.rep.rcd.map ∧ (∀ x, (s.elementFails path e step rows).rep.rcd.state x = s.rep.rcd.state x) ∧
      ∀ row ∈ rows, ∃ n, n < s.rep.rcd.rowsUsed e + rows.length ∧ (e, n, row) ∈ (s.elementFails path e step rows).rep.rcd.rows) ∧
    (elemKind e = 3 ∨ elemKind e = 4 → spareRows e < s.rep.rcd.rowsUsed e + rows.length → (s.elementFails path e step rows).rep.rcd.state e = 2) ∧
    (elemKind e = 5 → (s.elementFails path e step rows).rep.rcd.state e = 2)) ∧
  ∀ (s : State) (t : Time) (tag : BitVec 16), s.HostReady t →
    (∀ (target : Fin 8) (svc : Bool),
      (∀ k : Nat, (k = 1 ∧ (s.lifecycle, target.val) ∉ [(0, 1), (1, 2), (2, 3), (3, 4), (4, 3), (2, 5), (3, 5), (4, 5)]) ∨
          (k = 2 ∧ (s.lifecycle, target.val) ∈ [(0, 1), (1, 2), (3, 4), (4, 3), (2, 5), (3, 5), (4, 5)] ∧ svc = false) ∨
          (k = 3 ∧ ((s.lifecycle, target.val) = (2, 3) ∨ ((s.lifecycle, target.val) ∈ [(3, 4), (4, 3), (2, 5), (3, 5), (4, 5)] ∧ svc = true)) ∧
            (s.written t).allOff = false) →
        Completes (.lcCtrlWrite t tag target svc) s fun u => u.get Reg.LC_RESULT.TAG = tag.toNat ∧ u.get Reg.LC_RESULT.STATUS = k ∧
          u.get Reg.LC_STATE.STATE = s.get Reg.LC_STATE.STATE ∧ u = { s.written t with regs := u.regs } ∧
          ∀ a, a ≠ Reg.LC_RESULT → a ≠ Reg.LC_STATE → u.word a = (s.written t).word a) ∧
      (((s.lifecycle, target.val) ∈ [(0, 1), (1, 2)] ∧ svc = true) ∨ ((s.lifecycle, target.val) = (2, 3) ∧ (s.written t).allOff = true) ∨
          ((s.lifecycle, target.val) ∈ [(3, 4), (4, 3), (2, 5), (3, 5), (4, 5)] ∧ svc = true ∧ (s.written t).allOff = true) →
        Completes (.lcCtrlWrite t tag target svc) s fun u => u.get Reg.LC_RESULT.TAG = tag.toNat ∧ u.get Reg.LC_RESULT.STATUS = 0 ∧
          u.nvm = { s.nvm with lifecycle := target.val } ∧ u.get Reg.LC_STATE.STATE = target.val ∧ u.get Reg.ROT_STAT.PHASE = rotIdle ∧
          (s.lifecycle = lcManufacture → u.rep.locked = true) ∧ u.rep.rcd = s.rep.rcd ∧ u.flash = s.flash)) ∧
    ∀ e : Byte,
      ((s.lifecycle ≠ lcManufacture ∧ s.lifecycle ≠ lcService) ∨ e.toNat ∉ allElements ∨ s.rep.run.isSome = true ∨
          (s.devState ≠ devUnconfigured ∧ s.devState ≠ devSafeHold ∧ (s.written t).outOfService e.toNat = false) →
        Completes (.bistRun t tag e) s fun u => u.get Reg.BIST_STAT.TAG = tag.toNat ∧ u.get Reg.BIST_STAT.STATUS = 4 ∧
          u = { s.written t with regs := u.regs } ∧ ∀ a, a ≠ Reg.BIST_STAT → u.word a = (s.written t).word a) ∧
      (s.lifecycle = lcManufacture ∨ s.lifecycle = lcService → e.toNat ∈ allElements → s.rep.run = none →
        s.devState = devUnconfigured ∨ s.devState = devSafeHold ∨ (s.written t).outOfService e.toNat = true →
        Completes (.bistRun t tag e) s fun u => u.get Reg.BIST_STAT.TAG = tag.toNat ∧ u.get Reg.BIST_STAT.STATUS = 1 ∧ u.get Reg.ST_STAT.FAILS = 0 ∧
          (∃ x, u.rep = { s.rep with run := some x } ∧ x.path = 3 ∧ x.since = t.toNat ∧ x.step = 0 ∧ x.left = [e.toNat]) ∧
          u = { s.written t with regs := u.regs, rep := u.rep }) ∧
      ((s.lifecycle ≠ lcManufacture ∧ s.lifecycle ≠ lcService) ∨ e.toNat ∉ allElements ∨ s.rep.run.isSome = true ∨ s.rep.rcd.state e.toNat = 0 ∨
          tget 0 s.rep.passes e.toNat < 3 →
        Completes (.bistRestore t tag e) s fun u => u.get Reg.BIST_STAT.TAG = tag.toNat ∧ u.get Reg.BIST_STAT.STATUS = 4 ∧
          u = { s.written t with regs := u.regs } ∧ ∀ a, a ≠ Reg.BIST_STAT → u.word a = (s.written t).word a) ∧
      (s.lifecycle = lcManufacture ∨ s.lifecycle = lcService → e.toNat ∈ allElements → s.rep.run = none → s.rep.rcd.state e.toNat ≠ 0 →
        3 ≤ tget 0 s.rep.passes e.toNat → Completes (.bistRestore t tag e) s fun u =>
          u.get Reg.BIST_STAT.TAG = tag.toNat ∧ u.get Reg.BIST_STAT.STATUS = 5 ∧ u.rep.rcd.state e.toNat = 0 ∧ u.rep.due = s.rep.due ++ [4] ∧
          u.rep.rcd.map = s.rep.rcd.map ∧ u.flash = s.flash)
/-! ### Service interface (chapter 20) -/

/-- The transports (R4, R402–R410). A word written to an address that is not writable changes nothing; one to the DRAM window stores its four bytes. Over SPI the words of a WRITE are executed one after the other at rising addresses, 256 at most, and the status word
tells their number and the errors met; READ and STATUS answer, a bad command and an incomplete word show in the status word. A request over UDP is dropped where 16 wait, answered with the kept response where it repeats its client's
last TAG, else executed and answered, and the response is kept for the last 8 clients. A request of a wrong size executes nothing; a datagram that fails MAGIC, VERSION or CRC is counted only.
STATUS of a response is the lowest that a word met, DETAIL the first word that met it; a push tells how many entries were pushed before one that was not. Commands that complete: registerWrite, spiWrite, spiRead, spiStatus, spiBadCommand, spiDeselect, udpNop, udpRead, udpWrite, udpReadFixed, udpWriteFixed, udpQueuePush, udpLogRead, udpBadRequest. -/
def Obligations.ServiceRequestsAreAnswered : Prop :=
  (∀ (s : State) (t : Time), s.Ready t →
    (∀ a v : Word,
      (writeStatus a.toNat ≠ 0 ∨ s.ignoresWrite a.toNat = true → Completes (.registerWrite t a v) s fun u => u = s.at t) ∧
      (s.get Reg.DPX_STAT.ROLE = 0 → a.toNat % 4 = 0 → inDram a.toNat = true → fabWritable a.toNat = true → Completes (.registerWrite t a v) s fun u =>
        (∀ x, mget 0 u.mem x = if a.toNat ≤ x ∧ x < a.toNat + 4 then BitVec.ofNat 8 (v.toNat / 256 ^ (x - a.toNat)) else mget 0 s.mem x) ∧
        u = { s.written t with mem := u.mem }) ∧
      (∀ k : Fin 8, s.get Reg.DPX_STAT.ROLE = 0 → a.toNat = Reg.HQ_DATA k.val → Completes (.registerWrite t a v) s (Writes a.toNat v.toNat (s.written t)))) ∧
    (∀ a : Word, Completes (.spiWrite t a []) s fun u => u = { s.at t with svc := { s.svc with spi := 0, spiOpen := true } }) ∧
    (∀ a v : Word, ∃ u1 u, exec (.registerWrite t a v) s = .next u1 ∧ exec (.spiWrite t a [v]) s = .next u ∧ u = { u1 with svc := u.svc }) ∧
    (∀ (a : Word) (vs : List Word), Completes (.spiWrite t a vs) s fun u =>
      u = { (spiWords a.toNat ((vs.take 256).map (·.toNat)) 0 (s.at t)).1 with svc := u.svc } ∧
      bits u.svc.spi 16 16 = min 256 vs.length ∧ bitAt u.svc.spi 6 = decide (256 < vs.length) ∧ bitAt u.svc.spi 7 = false ∧ bitAt u.svc.spi 3 = false ∧
      u.svc.spiOpen = true ∧ bitAt u.svc.spi 4 = (List.range (min 256 vs.length)).any fun i => writeStatus ((a.toNat + 4 * i) % 2 ^ 32) == 1) ∧
    (∀ (a : Word) (n : BitVec 16), Completes (.spiRead t a n) s fun u =>
      u.out.length = n.toNat ∧ (∀ i, 256 ≤ i → i < n.toNat → u.out.getD i 1 = 0) ∧ bits u.svc.spi 16 16 = min 256 n.toNat ∧
      bitAt u.svc.spi 6 = decide (256 < n.toNat) ∧ u.svc.spiOpen = true ∧ u.svc.clients = s.svc.clients ∧
      u = { s.at t with regs := u.regs, latches := u.latches, freeCount := u.freeCount, out := u.out, svc := u.svc }) ∧
    (∀ a : Word, a.toNat ≠ Reg.FL_DATA → tget 0 s.latches a.toNat = 0 → latchCount a.toNat = 0 → Completes (.spiRead t a 1) s fun u =>
      u.out = [(s.at t).present a.toNat] ∧ u = { s.at t with out := u.out, svc := u.svc }) ∧
    Completes (.spiStatus t) s (fun u => u = { s.at t with out := [s.svc.spi], svc := { s.svc with spiOpen := false } }) ∧
    Completes (.spiBadCommand t) s (fun u => bitAt u.svc.spi 3 = true ∧ (∀ i, i ≠ 3 → bitAt u.svc.spi i = bitAt s.svc.spi i) ∧
      u = { s.at t with svc := { s.svc with spi := u.svc.spi, spiOpen := false } }) ∧
    (∀ inc : Bool, Completes (.spiDeselect t inc) s fun u => bitAt u.svc.spi 7 = (bitAt s.svc.spi 7 || (s.svc.spiOpen && inc)) ∧
      (∀ i, i ≠ 7 → bitAt u.svc.spi i = bitAt s.svc.spi i) ∧ u = { s.at t with svc := { s.svc with spi := u.svc.spi, spiOpen := false } }) ∧
    ∀ (c : UdpFrom) (addr : Word) (count : BitVec 16) (flags : Byte) (data : List Byte),
      (∀ op : Nat, ∀ k, (k, op) ∈ [(Instr.udpNop t c addr count flags data, 0), (.udpRead t c addr count flags data, 1), (.udpWrite t c addr count flags data, 2),
          (.udpReadFixed t c addr count flags data, 3), (.udpWriteFixed t c addr count flags data, 4), (.udpQueuePush t c addr count flags data, 5),
          (.udpLogRead t c addr count flags data, 6)] →
        (s.portUp c.port.val = false → Completes k s fun u => u = s.at t) ∧
        (s.portUp c.port.val = true → c.full = true → Completes k s (Sets Reg.SVC_STAT.UDP_DROP (min (s.get Reg.SVC_STAT.UDP_DROP + 1) 255) (s.at t))) ∧
        (s.portUp c.port.val = true → c.full = false →
          (∀ x, (s.svc.clients.find? fun x => x.ip == c.ip.toNat && x.port == c.sport.toNat && x.tag == c.tag.toNat) = some x → Completes k s fun u =>
            u.ethOut = [⟨c.port.val, 9, x.resp⟩] ∧ u.get Reg.SVC_STAT.REPLAYS = min (s.get Reg.SVC_STAT.REPLAYS + 1) 255 ∧
            u.svc.clients = x :: s.svc.clients.filter (fun y => !(y.ip == c.ip.toNat && y.port == c.sport.toNat)) ∧
            u = { s.at t with regs := u.regs, svc := u.svc, ethOut := u.ethOut } ∧ ∀ a, a ≠ Reg.SVC_STAT → u.word a = s.word a) ∧
          ((s.svc.clients.find? fun x => x.ip == c.ip.toNat && x.port == c.sport.toNat && x.tag == c.tag.toNat) = none → Completes k s fun u =>
            ∀ r, r = (s.at t).udpRun c.ip.toNat (65536 * c.sport.toNat + 2 * c.port.val + 1) (fromClient c op addr count flags data) →
              u = { r.2.2 with out := r.2.1, svc := u.svc, ethOut := [⟨c.port.val, 9, r.1⟩] } ∧
              u.svc.clients.head? = some ⟨c.ip.toNat, c.sport.toNat, c.tag.toNat, r.1⟩ ∧ u.svc.clients.length ≤ 8 ∧
              ∀ y ∈ u.svc.clients.tail, y ∈ s.svc.clients ∧ ¬ (y.ip = c.ip.toNat ∧ y.port = c.sport.toNat)))) ∧
      (s.portUp c.port.val = false → Completes (.udpBadRequest t c data) s fun u => u = s.at t) ∧
      (s.portUp c.port.val = true → data.length < 24 ∨ leAt (natBytes data) 0 2 ≠ 0x534B ∨ leAt (natBytes data) 2 1 ≠ 1 ∨
          crc32c ((natBytes data).take (data.length - 4)) ≠ leAt (natBytes data) (data.length - 4) 4 →
        Completes (.udpBadRequest t c data) s (Sets Reg.SVC_STAT.UDP_BAD (min (s.get Reg.SVC_STAT.UDP_BAD + 1) 255) (s.at t))) ∧
      (s.portUp c.port.val = true → 24 ≤ data.length → leAt (natBytes data) 0 2 = 0x534B → leAt (natBytes data) 2 1 = 1 →
        crc32c ((natBytes data).take (data.length - 4)) = leAt (natBytes data) (data.length - 4) 4 → 6 < leAt (natBytes data) 3 1 → c.full = false →
        (s.svc.clients.find? fun x => x.ip == c.ip.toNat && x.port == c.sport.toNat && x.tag == leAt (natBytes data) 4 4) = none →
        Completes (.udpBadRequest t c data) s fun u => u = { s.at t with out := [], svc := u.svc, ethOut := u.ethOut } ∧
          ∃ resp, u.ethOut = [⟨c.port.val, 9, resp⟩] ∧ resp.getD 14 0 = 3)) ∧
  ∀ (s : State) (ip src : Nat) (q : UdpReq),
    (q.fits = false → s.udpRun ip src q = (q.response 3 0 q.addr [], [], s)) ∧
    (q.op = 0 → q.fits = true → s.udpRun ip src q = (q.response 0 0 q.addr [], [], s)) ∧
    (q.op = 1 ∨ q.op = 3 → q.fits = true → q.addr < 2 ^ 32 → (∀ l, l = ((List.range q.count).map fun i =>
        let a := (q.addr + if q.op = 1 then 4 * i else 0) % 2 ^ 32
        if a % 4 = 0 ∧ (inDram a = true ∨ inTrace a = true ∨ Regs.assigned a = true) then 0 else 1) →
      (s.udpRun ip src q).1 = q.response (worst l).1 (worst l).2 q.addr ((s.udpRun ip src q).2.1.flatMap (leBytes 4))) ∧ (s.udpRun ip src q).2.1.length = q.count ∧
      (s.udpRun ip src q).2.2 = { s with regs := (s.udpRun ip src q).2.2.regs, latches := (s.udpRun ip src q).2.2.latches, freeCount := (s.udpRun ip src q).2.2.freeCount } ∧
      (s.udpRun ip src q).1.length = 24 + 4 * q.count) ∧
    (q.op = 2 ∨ q.op = 4 → q.fits = true → q.count = 1 → s.get Reg.DPX_STAT.ROLE = 0 →
      (s.udpRun ip src q).1 = q.response (writeStatus q.addr) 0 q.addr [] ∧ (s.udpRun ip src q).2.1 = [] ∧
      (writeStatus q.addr ≠ 0 → (s.udpRun ip src q).2.2 = s) ∧
      (writeStatus q.addr = 0 → (s.udpRun ip src q).2.2 = (s.countWrite ip src).writeReg q.addr (leAt q.data 0 4))) ∧
    (q.op = 2 ∨ q.op = 4 → q.fits = true → q.addr < 2 ^ 32 → s.get Reg.DPX_STAT.ROLE = 0 →
      ∀ l, l = ((List.range q.count).map fun i => writeStatus ((q.addr + if q.op = 2 then 4 * i else 0) % 2 ^ 32)) →
        (s.udpRun ip src q).1 = q.response (worst l).1 (worst l).2 q.addr []) ∧
    (q.op = 2 ∨ q.op = 4 → q.fits = true → s.get Reg.DPX_STAT.ROLE = 2 ∨ s.get Reg.DPX_STAT.ROLE = 3 → q.count = 1 → writeStatus q.addr = 0 → s.ignoresWrite q.addr = true →
      s.udpRun ip src q = (q.response 2 0 q.addr [], [], s)) ∧
    (q.op = 5 → q.fits = true → s.takesInputs = true → ∃ n st, n ≤ q.count ∧ (st = 0 → n = q.count) ∧ (st ≠ 0 → n < q.count) ∧ (s.udpRun ip src q).2.1 = [] ∧
      (s.udpRun ip src q).1 = if st = 0 then q.response 0 n q.addr [] else q.response 4 (n + 65536 * st) q.addr []) ∧
    (q.op = 5 → q.fits = true → s.takesInputs = false → s.udpRun ip src q = (q.response 2 0 q.addr [], [], s)) ∧
    (q.op = 5 → q.fits = true → s.get Reg.DPX_STAT.ROLE = 0 → q.count = 1 →
      ∀ u, u = (s.countWrite ip src).hqPush (bits q.addr 0 5) (bits (leAt q.data 32 4) 0 6) (bitAt (leAt q.data 32 4) 6) (q.data.take 32) (bits q.tag 0 16) →
        (s.udpRun ip src q).2.2 = u ∧ (u.get Reg.HQ_RESULT.STATUS = 0 → (s.udpRun ip src q).1 = q.response 0 1 q.addr []) ∧
        (u.get Reg.HQ_RESULT.STATUS ≠ 0 → (s.udpRun ip src q).1 = q.response 4 (65536 * u.get Reg.HQ_RESULT.STATUS) q.addr [])) ∧
    (q.op = 6 → q.fits = true → s.ignoresWrite Reg.LOG_RPTR = false → (∀ i, (tget [] s.logst.buf i).length ≤ 32) → ∀ start n, start = (if bitAt q.flags 1 then s.placed q.addr else s.rptr) →
      n = min q.count ((s.wptr + 2 ^ 32 - start) % 2 ^ 32) →
      (s.udpRun ip src q).1 = q.response 0 n start ((List.range n).flatMap fun i => s.recordAt ((start + i) % 2 ^ 32)) ∧
      (bitAt q.flags 0 = false → (s.udpRun ip src q).2.2 = s) ∧
      (bitAt q.flags 0 = true → (s.udpRun ip src q).2.2 = (s.countWrite ip src).writeRptr ((start + n) % 2 ^ 32))) ∧
    (q.op = 6 → q.fits = true → s.ignoresWrite Reg.LOG_RPTR = true → (s.udpRun ip src q).2.2 = s ∧
      (bitAt q.flags 0 = true → ∃ start d, (s.udpRun ip src q).1 = q.response 2 0 start d))
/-! ### Log ring, archive, power (chapters 20, 21) -/

/-- The log ring, EVT_N, the archive and the governor (R415–R418, R423–R430, R434). The record made longest ago is written into the ring, at its place in the DRAM, and into the page buffer where it is archived; LOG_RPTR is placed within the records held; EVT_N follows the level and the delay. A page
that is due is written, and a failure keeps its records. A sample replaces Tj, the power and the credit, with the thermal stop at 115 °C; a second at or above 105 °C raises the throttle level, one below 100 °C lowers it. The life sum is stored after 64 h. CLR_MAX clears the maxima. Before the DRAM is ready the on-die buffer is
the ring. Boost is in force where every condition of R425 holds, and shown at each core that is not isolated. Commands that complete: logRptrWrite, ptClrMax, logRecordWrite, evtDelayExpiry, archivePageWrite, governorSample, thermalThrottle, lifeSumStore. -/
def Obligations.LogAndPower : Prop :=
  (∀ (s : State) (t : Time), s.HostReady t →
    (∀ v : Word, Completes (.logRptrWrite t v) s fun u => u.rptr = s.placed v.toNat ∧
      u.get Reg.LOG_UNREAD.UNREAD = (s.wptr + 2 ^ 32 - s.placed v.toNat) % 2 ^ 32 % 2 ^ 17 ∧ u.wptr = s.wptr ∧ u = { s.written t with regs := u.regs } ∧
      ∀ a, a ≠ Reg.LOG_RPTR → a ≠ Reg.LOG_UNREAD → a ≠ Reg.LOG_STAT → u.word a = (s.written t).word a) ∧
    Completes (.ptClrMax t) s fun u => u.get Reg.PT_TJ.MAX = 0 ∧ u.get Reg.PT_POWER.PEAK = 0 ∧ u.get Reg.PT_TJ.TJ = s.get Reg.PT_TJ.TJ ∧
      u = { s.written t with regs := u.regs } ∧ ∀ a, a ≠ Reg.PT_TJ → a ≠ Reg.PT_POWER → u.word a = (s.written t).word a) ∧
  (∀ (s : State) (v : Nat), s.logst.held ≤ 65536 → v < 2 ^ 32 →
    ∀ b, b = (s.wptr + 2 ^ 32 - v) % 2 ^ 32 →
      (b ≤ s.logst.held → s.placed v = v) ∧
      (s.logst.held < b → b ≤ 2 ^ 31 → s.placed v = (s.wptr + 2 ^ 32 - s.logst.held) % 2 ^ 32) ∧ (2 ^ 31 < b → s.placed v = s.wptr)) ∧
  ∀ (s : State) (t : Time), s.Ready t →
    (s.toLog = [] ∨ s.devState = devPowerUp → Completes (.logRecordWrite t) s fun u => u = s.at t) ∧
    (∀ r l, s.toLog = r :: l → s.devState ≠ devPowerUp → s.logst.dram = true →
      Completes (.logRecordWrite t) s (fun u => u.toLog = l ∧ u.wptr = (s.wptr + 1) % 2 ^ 32 ∧ u.logst.held = min 65536 (s.logst.held + 1) ∧
        u.mem = mwrite 0 s.mem (0xBFE00000 + 32 * (s.wptr % 65536)) (r.bytes r.tsc.toNat) ∧
        (s.get Reg.LOG_UNREAD.UNREAD < 65536 → u.get Reg.LOG_UNREAD.UNREAD = s.get Reg.LOG_UNREAD.UNREAD + 1 ∧ u.rptr = s.rptr ∧
          u.get Reg.LOG_STAT.LOST = s.get Reg.LOG_STAT.LOST) ∧
        (65536 ≤ s.get Reg.LOG_UNREAD.UNREAD → u.get Reg.LOG_UNREAD.UNREAD = s.get Reg.LOG_UNREAD.UNREAD ∧ u.rptr = (s.rptr + 1) % 2 ^ 32 ∧
          u.on Reg.LOG_STAT.OVERFLOW = true ∧ u.get Reg.LOG_STAT.LOST = min (s.get Reg.LOG_STAT.LOST + 1) 65535) ∧
        (r.archived = true → r.remote = false → u.arc.buf = s.arc.buf ++ [r]) ∧ (r.archived = false ∨ r.remote = true → u.arc = s.arc) ∧
        (∀ x, x ≠ Reg.LOG_WPTR → x ≠ Reg.LOG_RPTR → x ≠ Reg.LOG_UNREAD → x ≠ Reg.LOG_STAT → x ≠ Reg.ARC_STAT → u.word x = s.word x) ∧
        u = { s.at t with regs := u.regs, raised := u.raised, toLog := l, logst := u.logst, mem := u.mem, arc := u.arc })) ∧
    (∀ r l, s.toLog = r :: l → s.devState ≠ devPowerUp → s.logst.dram = false →
      Completes (.logRecordWrite t) s (fun u => u.toLog = l ∧ u.wptr = (s.wptr + 1) % 2 ^ 32 ∧ u.logst.held = min 256 (s.logst.held + 1) ∧ u.mem = s.mem ∧
        tget [] u.logst.buf (s.wptr % 256) = { r with early := true }.bytes r.tsc.toNat ∧ (∀ i, i ≠ s.wptr % 256 → tget [] u.logst.buf i = tget [] s.logst.buf i) ∧
        (s.get Reg.LOG_UNREAD.UNREAD < 256 → u.get Reg.LOG_UNREAD.UNREAD = s.get Reg.LOG_UNREAD.UNREAD + 1 ∧ u.rptr = s.rptr) ∧
        (256 ≤ s.get Reg.LOG_UNREAD.UNREAD → u.rptr = (s.rptr + 1) % 2 ^ 32 ∧ u.on Reg.LOG_STAT.OVERFLOW = true))) ∧
    Completes (.evtDelayExpiry t) s (fun u =>
      (s.devState = devPowerUp → u.on Reg.LOG_STAT.EVT = false) ∧
      (s.devState ≠ devPowerUp → (u.on Reg.LOG_STAT.EVT = true ↔ max 1 (s.get Reg.LOG_CFG.EVT_LEVEL) ≤ s.get Reg.LOG_UNREAD.UNREAD ∨
        (s.get Reg.LOG_CFG.EVT_DELAY ≠ 0 ∧ s.get Reg.LOG_UNREAD.UNREAD ≠ 0 ∧
          tget 0 s.logst.written (s.rptr % 65536) + s.get Reg.LOG_CFG.EVT_DELAY * 1000000 ≤ t.toNat))) ∧
      u = { s.at t with regs := u.regs } ∧ ∀ a, a ≠ Reg.LOG_STAT → u.word a = s.word a) ∧
    (∀ ok ok' : Bool,
      ((s.at t).arcDue = false ∨ s.on Reg.FL_INFO.PRESENT = false → Completes (.archivePageWrite t ok ok') s fun u => u = s.at t) ∧
      ((s.at t).arcDue = true → s.on Reg.FL_INFO.PRESENT = true →
        (ok' = false ∨ (ok = false ∧ s.arc.pos % 65536 = 0) → Completes (.archivePageWrite t ok ok') s fun u =>
          u.on Reg.ARC_STAT.FAILED = true ∧ u.arc = { s.arc with pos := s.arcNext s.arc.pos, flush := false, since := t.toNat }) ∧
        (ok' = true → ok = true ∨ s.arc.pos % 65536 ≠ 0 → s.arc.pos < 2 ^ 32 → s.arc.pseq < 2 ^ 32 → Completes (.archivePageWrite t ok ok') s fun u =>
          u.word Reg.ARC_ADDR = s.arc.pos ∧ u.word Reg.ARC_PSEQ = s.arc.pseq ∧ u.on Reg.ARC_STAT.VALID = true ∧ u.arc.buf = s.arc.buf.drop 127 ∧
          u.arc.pseq = (s.arc.pseq + 1) % 2 ^ 32 ∧ u.arc.pos = s.arcNext s.arc.pos ∧ u.get Reg.ARC_STAT.PENDING = min 127 (s.arc.buf.length - 127) ∧
          (s.imgSess.waiting = [] → u.flash = mwrite 0xFF (if s.arc.pos % 65536 = 0 then (s.flashErase s.arc.pos 65536).flash else s.flash) s.arc.pos (arcPage s.arc.pseq (s.arc.buf.take 127)))))) ∧
    (∀ (temps : List (BitVec 16)) (power : BitVec 16) (tj : Int), tj = tjOf (goodSensors ((temps.take 16).map fun w => sx 16 w.toNat)) →
      Completes (.governorSample t temps power) s fun u => u.get Reg.PT_TJ.TJ = ux 16 tj ∧
        sx 16 (u.get Reg.PT_TJ.MAX) = max (sx 16 (s.get Reg.PT_TJ.MAX)) tj ∧ u.get Reg.PT_POWER.POWER = power.toNat ∧
        u.get Reg.PT_POWER.PEAK = max (s.get Reg.PT_POWER.PEAK) power.toNat ∧
        (950 < power.toNat → u.get Reg.PT_CREDIT.CREDIT = s.get Reg.PT_CREDIT.CREDIT - 1) ∧
        (power.toNat ≤ 950 →
          u.get Reg.PT_CREDIT.CREDIT = if s.gov.half then min 60000 (s.get Reg.PT_CREDIT.CREDIT + 1) else s.get Reg.PT_CREDIT.CREDIT) ∧
        (7360 ≤ tj → u.on Reg.PT_STAT.STOP = true) ∧ (tj < 6720 → u.on Reg.PT_STAT.STOP = false) ∧
        (6720 ≤ tj → tj < 7360 → u.on Reg.PT_STAT.STOP = s.on Reg.PT_STAT.STOP) ∧
        (u.get Reg.PT_STAT.LEVEL = if 6720 ≤ tj ∧ s.get Reg.PT_STAT.LEVEL = 0 then 1 else s.get Reg.PT_STAT.LEVEL) ∧
        (u.on Reg.PT_STAT.BOOST = (s.on Reg.PT_CFG.BOOST_EN && (s.devState == devReduced || s.devState == devAutomatic) && u.get Reg.PT_STAT.LEVEL == 0 && u.get Reg.PT_CREDIT.CREDIT != 0 &&
          !(s.on Reg.PT_STAT.CREDIT_LOCK && !(decide (power.toNat ≤ 950) && decide (30000 ≤ u.get Reg.PT_CREDIT.CREDIT))) && decide (tj < 6400))) ∧
        (u.on Reg.PT_STAT.BOOST ≠ s.on Reg.PT_STAT.BOOST → ∀ c < 16, u.on (Reg.CORE_STAT.BOOST c) = (u.on Reg.PT_STAT.BOOST && !s.on (Reg.CORE_STAT.ISOLATED c))) ∧ u.axes = s.axes ∧ u.flows = s.flows) ∧
    (∀ hot cool : Bool, hot = s.gov.hot.any (fun x => decide (x + 1000000000 ≤ t.toNat)) → cool = s.gov.cool.any (fun x => decide (x + 1000000000 ≤ t.toNat)) →
      (hot = true → 1 ≤ s.get Reg.PT_STAT.LEVEL → s.get Reg.PT_STAT.LEVEL < 3 → Completes (.thermalThrottle t) s fun u =>
        u.get Reg.PT_STAT.LEVEL = s.get Reg.PT_STAT.LEVEL + 1 ∧
        u.toLog = ((s.at t).log Src.power Ev.THERMAL_THROTTLE (s.get Reg.PT_STAT.LEVEL + 1) (ux 32 (sx 16 (s.get Reg.PT_TJ.TJ)))).toLog ∧ u.gov = { s.gov with hot := some t.toNat }) ∧
      (hot = false ∨ s.get Reg.PT_STAT.LEVEL = 3 → cool = true → 1 ≤ s.get Reg.PT_STAT.LEVEL → Completes (.thermalThrottle t) s fun u =>
        u.get Reg.PT_STAT.LEVEL = s.get Reg.PT_STAT.LEVEL - 1 ∧
        u.toLog = ((s.at t).log Src.power Ev.THERMAL_THROTTLE (s.get Reg.PT_STAT.LEVEL - 1) (ux 32 (sx 16 (s.get Reg.PT_TJ.TJ)))).toLog ∧ u.gov = { s.gov with cool := some t.toNat }) ∧
      ((cool = false ∧ (hot = false ∨ s.get Reg.PT_STAT.LEVEL = 3)) ∨ s.get Reg.PT_STAT.LEVEL = 0 → Completes (.thermalThrottle t) s fun u => u = s.at t)) ∧
    (s.gov.powered < s.gov.stored + 230400 → Completes (.lifeSumStore t) s fun u => u = s.at t) ∧
    (s.gov.stored + 230400 ≤ s.gov.powered → Completes (.lifeSumStore t) s fun u =>
      u.nvm = { s.nvm with sum := s.gov.sum, afs := s.gov.afs, powered := s.gov.powered } ∧ u = { s.at t with nvm := u.nvm, gov := { s.gov with stored := s.gov.powered } })
end

