-- ==== Sys2Proof/Laws/Bits.lean ====
section
/-! SUPPORT. Bit fields: what is read from a word after one of its fields is written. -/

namespace Sys2Proof.Machine

/-- The bits of a word after its field at `lo`, `n` wide, is written. -/
theorem testBit_setBits (w lo n v i : Nat) :
    (setBits w lo n v).testBit i = if lo ≤ i ∧ i < lo + n then v.testBit (i - lo) else w.testBit i := by
  have e1 : setBits w lo n v = 2 ^ (lo + n) * (w / 2 ^ (lo + n)) + (2 ^ lo * (v % 2 ^ n) + w % 2 ^ lo) := by
    simp only [setBits, Nat.mul_comm, Nat.add_assoc]
  have hlo : w % 2 ^ lo < 2 ^ lo := Nat.mod_lt _ (Nat.two_pow_pos lo)
  have hv : v % 2 ^ n + 1 ≤ 2 ^ n := Nat.mod_lt _ (Nat.two_pow_pos n)
  have h2 : 2 ^ lo * (v % 2 ^ n) + w % 2 ^ lo < 2 ^ (lo + n) := by
    have := Nat.mul_le_mul_left (2 ^ lo) hv
    rw [Nat.mul_add, Nat.mul_one, ← Nat.pow_add] at this
    omega
  rw [e1, Nat.testBit_two_pow_mul_add _ h2, Nat.testBit_two_pow_mul_add _ hlo]
  simp only [Nat.testBit_div_two_pow, Nat.testBit_mod_two_pow]
  by_cases h3 : i < lo + n
  · by_cases h4 : i < lo
    · have h5 : ¬ lo ≤ i := Nat.not_le_of_lt h4
      simp [h3, h4, h5]
    · have h5 : i - lo < n := by omega
      have h6 : lo ≤ i ∧ i < lo + n := by omega
      simp [h3, h4, h5, h6]
  · have h6 : i - (lo + n) + (lo + n) = i := Nat.sub_add_cancel (Nat.le_of_not_lt h3)
    simp [h3, h6]

/-- A field written is the field read. -/
theorem bits_setBits_same (w lo n v : Nat) : bits (setBits w lo n v) lo n = v % 2 ^ n := by
  apply Nat.eq_of_testBit_eq
  intro i
  simp only [bits, Nat.testBit_mod_two_pow, Nat.testBit_div_two_pow, testBit_setBits]
  by_cases h : i < n
  · have : lo ≤ i + lo ∧ i + lo < lo + n := by omega
    simp [h, this]
  · simp [h]

/-- A field beside the one written is untouched. -/
theorem bits_setBits_ne {lo n lo' n' : Nat} (h : lo' + n' ≤ lo ∨ lo + n ≤ lo') (w v : Nat) :
    bits (setBits w lo n v) lo' n' = bits w lo' n' := by
  apply Nat.eq_of_testBit_eq
  intro i
  simp only [bits, Nat.testBit_mod_two_pow, Nat.testBit_div_two_pow, testBit_setBits]
  by_cases hi : i < n'
  · have : ¬ (lo ≤ i + lo' ∧ i + lo' < lo + n) := by omega
    simp [hi, this]
  · simp [hi]

/-- Reducing a word to 32 bits leaves its fields within 32 bits as they are. -/
theorem bits_mod (w lo n : Nat) (h : lo + n ≤ 32) : bits (w % 2 ^ 32) lo n = bits w lo n := by
  apply Nat.eq_of_testBit_eq
  intro i
  simp only [bits, Nat.testBit_mod_two_pow, Nat.testBit_div_two_pow]
  by_cases hi : i < n
  · have : i + lo < 32 := by omega
    simp [hi, this]
  · simp [hi]

end Sys2Proof.Machine
end

