-- ==== Sys2Proof/Laws/Tbl.lean ====
section
/-! SUPPORT. The laws of sparse tables: what is read after a write, and that a write keeps the canonical form. -/

namespace Sys2Proof.Machine

theorem tget?_tdel_same {α : Type} (k : Nat) (t : Tbl α) : tget? k (tdel k t) = none := by
  induction t with
  | nil => rfl
  | cons e t ih =>
    obtain ⟨j, w⟩ := e
    by_cases h : j = k <;> simp [tdel, tget?, h, ih]

theorem tget?_tdel_ne {α : Type} {j k : Nat} (h : j ≠ k) (t : Tbl α) : tget? j (tdel k t) = tget? j t := by
  induction t with
  | nil => rfl
  | cons e t ih =>
    obtain ⟨i, w⟩ := e
    by_cases hi : i = k
    · subst hi; simp [tdel, tget?, ih, Ne.symm h]
    · simp [tdel, tget?, hi, ih]

theorem tget?_tins_same {α : Type} (k : Nat) (v : α) (t : Tbl α) : tget? k (tins k v t) = some v := by
  induction t with
  | nil => simp [tins, tget?]
  | cons e t ih =>
    obtain ⟨j, w⟩ := e
    by_cases h1 : k < j
    · simp [tins, tget?, h1]
    · by_cases h2 : k = j
      · simp [tins, tget?, h2]
      · simp [tins, tget?, h1, h2, Ne.symm h2, ih]

theorem tget?_tins_ne {α : Type} {j k : Nat} (h : j ≠ k) (v : α) (t : Tbl α) : tget? j (tins k v t) = tget? j t := by
  induction t with
  | nil => simp [tins, tget?, Ne.symm h]
  | cons e t ih =>
    obtain ⟨i, w⟩ := e
    by_cases h1 : k < i
    · simp [tins, tget?, h1, Ne.symm h, tget?_tdel_ne h]
    · by_cases h2 : k = i
      · subst h2; simp [tins, tget?, Ne.symm h, tget?_tdel_ne h]
      · simp [tins, tget?, h1, h2, ih]

/-- Reading back what was written. -/
@[simp] theorem tget_tput_same {α : Type} [DecidableEq α] (d : α) (t : Tbl α) (k : Nat) (v : α) : tget d (tput d t k v) k = v := by
  by_cases h : v = d
  · simp [tput, tget, h, tget?_tdel_same]
  · simp [tput, tget, h, tget?_tins_same]

/-- A write leaves every other key alone. -/
theorem tget_tput_ne {α : Type} [DecidableEq α] {j k : Nat} (h : j ≠ k) (d d' : α) (t : Tbl α) (v : α) :
    tget d (tput d' t k v) j = tget d t j := by
  by_cases hv : v = d'
  · simp [tput, tget, hv, tget?_tdel_ne h]
  · simp [tput, tget, hv, tget?_tins_ne h]

/-- Both in one: the value at key `j` after a write at key `k`. -/
theorem tget_tput {α : Type} [DecidableEq α] (d : α) (t : Tbl α) (k j : Nat) (v : α) :
    tget d (tput d t k v) j = if j = k then v else tget d t j := by
  by_cases h : j = k
  · subst h; simp
  · simp [h, tget_tput_ne h]

theorem tsorted_mono {α : Type} {lo lo' : Nat} (h : lo' ≤ lo) {t : Tbl α} (ht : tsorted lo t = true) : tsorted lo' t = true := by
  cases t with
  | nil => rfl
  | cons e t => obtain ⟨j, w⟩ := e; simp [tsorted] at *; exact ⟨by omega, ht.2⟩

theorem tsorted_tdel {α : Type} (k : Nat) {t : Tbl α} : ∀ {lo : Nat}, tsorted lo t = true → tsorted lo (tdel k t) = true := by
  induction t with
  | nil => intro lo _; rfl
  | cons e t ih =>
    obtain ⟨j, w⟩ := e
    intro lo h
    simp only [tsorted, Bool.and_eq_true, decide_eq_true_eq] at h
    by_cases hj : j = k
    · simp only [tdel, hj, if_true]
      exact ih (tsorted_mono (by omega) h.2)
    · simp [tdel, hj, tsorted, h.1, ih h.2]

theorem tsorted_tins {α : Type} (k : Nat) (v : α) {t : Tbl α} :
    ∀ {lo : Nat}, lo ≤ k → tsorted lo t = true → tsorted lo (tins k v t) = true := by
  induction t with
  | nil => intro lo h _; simp [tins, tsorted, h]
  | cons e t ih =>
    obtain ⟨j, w⟩ := e
    intro lo hl h
    simp only [tsorted, Bool.and_eq_true, decide_eq_true_eq] at h
    by_cases h1 : k < j
    · simp [tins, h1, tsorted, hl, tsorted_tdel k h.2] <;> omega
    · by_cases h2 : k = j
      · subst h2; simp [tins, tsorted, hl, tsorted_tdel k h.2]
      · simp only [tins, h1, h2, if_false, tsorted, Bool.and_eq_true, decide_eq_true_eq]
        exact ⟨h.1, ih (by omega) h.2⟩

theorem mem_tdel {α : Type} {k : Nat} {e : Nat × α} {t : Tbl α} (h : e ∈ tdel k t) : e ∈ t := by
  induction t with
  | nil => simp [tdel] at h
  | cons f t ih =>
    obtain ⟨j, w⟩ := f
    by_cases hj : j = k
    · simp only [tdel, hj, if_true] at h; exact List.mem_cons_of_mem _ (ih h)
    · simp only [tdel, hj, if_false, List.mem_cons] at h
      rcases h with h | h
      · simp [h]
      · exact List.mem_cons_of_mem _ (ih h)

theorem mem_tins {α : Type} {k : Nat} {v : α} {e : Nat × α} {t : Tbl α} (h : e ∈ tins k v t) : e = (k, v) ∨ e ∈ t := by
  induction t with
  | nil => simpa [tins] using h
  | cons f t ih =>
    obtain ⟨j, w⟩ := f
    by_cases h1 : k < j
    · simp only [tins, h1, if_true, List.mem_cons] at h
      rcases h with h | h | h
      · exact .inl h
      · simp [h]
      · exact .inr (List.mem_cons_of_mem _ (mem_tdel h))
    · by_cases h2 : k = j
      · subst h2
        simp only [tins, Nat.lt_irrefl, if_false, if_true, List.mem_cons] at h
        rcases h with h | h
        · exact .inl h
        · exact .inr (List.mem_cons_of_mem _ (mem_tdel h))
      · simp only [tins, h1, h2, if_false, List.mem_cons] at h
        rcases h with h | h
        · simp [h]
        · rcases ih h with h | h
          · exact .inl h
          · exact .inr (List.mem_cons_of_mem _ h)

/-- A write keeps the canonical form. -/
theorem twf_tput {α : Type} [DecidableEq α] {d : Nat → α} {t : Tbl α} (h : twf d t = true) (k : Nat) (v : α) :
    twf d (tput (d k) t k v) = true := by
  simp only [twf, Bool.and_eq_true, List.all_eq_true, decide_eq_true_eq] at *
  by_cases hv : v = d k
  · simp only [tput, hv, if_true]
    exact ⟨tsorted_tdel k h.1, fun e he => h.2 e (mem_tdel he)⟩
  · simp only [tput, hv, if_false]
    refine ⟨tsorted_tins k v (Nat.zero_le k) h.1, fun e he => ?_⟩
    rcases mem_tins he with rfl | he
    · exact hv
    · exact h.2 e he

/-- The byte written is the byte read. -/
@[simp] theorem mget_mput_same (d : Byte) (m : List Host.Cell) (a : Nat) (b : Byte) : mget d (mput d m a b) a = b :=
  tget_tput_same d m a b

/-- A byte write leaves every other byte alone. -/
theorem mget_mput_ne {a a' : Nat} (h : a' ≠ a) (d : Byte) (m : List Host.Cell) (b : Byte) :
    mget d (mput d m a b) a' = mget d m a' := tget_tput_ne h d d m b

/-- A byte write keeps the canonical form of a memory. -/
theorem mput_wf {d : Byte} {m : List Host.Cell} (h : Memory.wf d m = true) (a : Nat) (b : Byte) : Memory.wf d (mput d m a b) = true :=
  twf_tput (d := fun _ => d) h a b

theorem tsorted_filter {α : Type} (p : Nat × α → Bool) {t : Tbl α} : ∀ {lo : Nat}, tsorted lo t = true → tsorted lo (t.filter p) = true := by
  induction t with
  | nil => intro lo _; rfl
  | cons e t ih =>
    obtain ⟨j, w⟩ := e
    intro lo h
    simp only [tsorted, Bool.and_eq_true, decide_eq_true_eq] at h
    by_cases hp : p (j, w) = true
    · rw [List.filter_cons_of_pos hp]
      simp only [tsorted, Bool.and_eq_true, decide_eq_true_eq]
      exact ⟨h.1, ih h.2⟩
    · rw [List.filter_cons_of_neg hp]
      exact ih (tsorted_mono (by omega) h.2)

/-- Dropping entries keeps the canonical form of a memory. -/
theorem filter_wf {d : Byte} {m : List Host.Cell} (h : Memory.wf d m = true) (p : Host.Cell → Bool) : Memory.wf d (m.filter p) = true := by
  simp only [Memory.wf, twf, Bool.and_eq_true, List.all_eq_true, decide_eq_true_eq] at *
  exact ⟨tsorted_filter p h.1, fun e he => h.2 e (List.mem_filter.mp he).1⟩

/-- A write of several bytes keeps the canonical form of a memory. -/
theorem mwrite_wf {d : Byte} {m : List Host.Cell} (h : Memory.wf d m = true) (a : Nat) (l : List Nat) : Memory.wf d (mwrite d m a l) = true := by
  induction l generalizing m a with
  | nil => exact h
  | cons b l ih => exact ih (mput_wf h a _) (a + 1)

/-- A write of several bytes touches no byte outside them. -/
theorem mget_mwrite_ne {d : Byte} {a x : Nat} {l : List Nat} (h : x < a ∨ a + l.length ≤ x) (m : List Host.Cell) :
    mget d (mwrite d m a l) x = mget d m x := by
  induction l generalizing m a with
  | nil => rfl
  | cons b l ih =>
    simp only [List.length_cons] at h
    exact (ih (a := a + 1) (by omega) _).trans (mget_mput_ne (by omega) _ _ _)

end Sys2Proof.Machine
end

