-- ==== Sys2Proof/Laws/State.lean ====
section
/-! SUPPORT. What is read from a state after an update: registers and their fields, the tables of the blocks, and what an update leaves
alone. -/

namespace Sys2Proof.Machine

/-! ### Registers -/

@[simp] theorem State.setWord_pending (s : State) (a w : Nat) : (s.setWord a w).pending = s.pending := rfl
@[simp] theorem State.setWord_tsc (s : State) (a w : Nat) : (s.setWord a w).tsc = s.tsc := rfl
@[simp] theorem State.setWord_raised (s : State) (a w : Nat) : (s.setWord a w).raised = s.raised := rfl
@[simp] theorem State.setWord_dev (s : State) (a w : Nat) : (s.setWord a w).dev = s.dev := rfl
@[simp] theorem State.setWord_latches (s : State) (a w : Nat) : (s.setWord a w).latches = s.latches := rfl
@[simp] theorem State.setWord_lines (s : State) (a w : Nat) : (s.setWord a w).lines = s.lines := rfl
@[simp] theorem State.setWord_acts (s : State) (a w : Nat) : (s.setWord a w).acts = s.acts := rfl
@[simp] theorem State.setWord_flows (s : State) (a w : Nat) : (s.setWord a w).flows = s.flows := rfl
@[simp] theorem State.setWord_setpts (s : State) (a w : Nat) : (s.setWord a w).setpts = s.setpts := rfl
@[simp] theorem State.setWord_pgs (s : State) (a w : Nat) : (s.setWord a w).pgs = s.pgs := rfl
@[simp] theorem State.setWord_img (s : State) (a w : Nat) : (s.setWord a w).img = s.img := rfl
@[simp] theorem State.setWord_toLog (s : State) (a w : Nat) : (s.setWord a w).toLog = s.toLog := rfl
@[simp] theorem State.setWord_lastTsc (s : State) (a w : Nat) : (s.setWord a w).lastTsc = s.lastTsc := rfl
@[simp] theorem State.setWord_freeCount (s : State) (a w : Nat) : (s.setWord a w).freeCount = s.freeCount := rfl
@[simp] theorem State.setWord_out (s : State) (a w : Nat) : (s.setWord a w).out = s.out := rfl
@[simp] theorem State.setWord_mem (s : State) (a w : Nat) : (s.setWord a w).mem = s.mem := rfl
@[simp] theorem State.setWord_axes (s : State) (a w : Nat) : (s.setWord a w).axes = s.axes := rfl
@[simp] theorem State.setWord_nrwExits (s : State) (a w : Nat) : (s.setWord a w).nrwExits = s.nrwExits := rfl
@[simp] theorem State.setWord_nrwEntered (s : State) (a w : Nat) : (s.setWord a w).nrwEntered = s.nrwEntered := rfl
@[simp] theorem State.setWord_nrwFlushed (s : State) (a w : Nat) : (s.setWord a w).nrwFlushed = s.nrwFlushed := rfl
@[simp] theorem State.setWord_nrws (s : State) (a w : Nat) : (s.setWord a w).nrws = s.nrws := rfl
@[simp] theorem State.setWord_nrwRels (s : State) (a w : Nat) : (s.setWord a w).nrwRels = s.nrwRels := rfl
@[simp] theorem State.setWord_nrwReady (s : State) (a w : Nat) : (s.setWord a w).nrwReady = s.nrwReady := rfl
@[simp] theorem State.setWord_nrwIn (s : State) (a w : Nat) : (s.setWord a w).nrwIn = s.nrwIn := rfl
@[simp] theorem State.setWord_nrwOut (s : State) (a w : Nat) : (s.setWord a w).nrwOut = s.nrwOut := rfl
@[simp] theorem State.setWord_lifeDue (s : State) (a w : Nat) : (s.setWord a w).lifeDue = s.lifeDue := rfl
@[simp] theorem State.setWord_fbs (s : State) (a w : Nat) : (s.setWord a w).fbs = s.fbs := rfl
@[simp] theorem State.setWord_encs (s : State) (a w : Nat) : (s.setWord a w).encs = s.encs := rfl
@[simp] theorem State.setWord_cmps (s : State) (a w : Nat) : (s.setWord a w).cmps = s.cmps := rfl
@[simp] theorem State.setWord_emus (s : State) (a w : Nat) : (s.setWord a w).emus = s.emus := rfl
@[simp] theorem State.setWord_nodes (s : State) (a w : Nat) : (s.setWord a w).nodes = s.nodes := rfl
@[simp] theorem State.setWord_items (s : State) (a w : Nat) : (s.setWord a w).items = s.items := rfl
@[simp] theorem State.setWord_serial (s : State) (a w : Nat) : (s.setWord a w).serial = s.serial := rfl
@[simp] theorem State.setWord_flowPrev (s : State) (a w : Nat) : (s.setWord a w).flowPrev = s.flowPrev := rfl
@[simp] theorem State.setWord_flowCore (s : State) (a w : Nat) : (s.setWord a w).flowCore = s.flowCore := rfl
@[simp] theorem State.setWord_trigs (s : State) (a w : Nat) : (s.setWord a w).trigs = s.trigs := rfl
@[simp] theorem State.setWord_submitted (s : State) (a w : Nat) : (s.setWord a w).submitted = s.submitted := rfl
@[simp] theorem State.setWord_coreSwap (s : State) (a w : Nat) : (s.setWord a w).coreSwap = s.coreSwap := rfl
@[simp] theorem State.setWord_dcs (s : State) (a w : Nat) : (s.setWord a w).dcs = s.dcs := rfl
@[simp] theorem State.setWord_tgts (s : State) (a w : Nat) : (s.setWord a w).tgts = s.tgts := rfl
@[simp] theorem State.setWord_fabErr (s : State) (a w : Nat) : (s.setWord a w).fabErr = s.fabErr := rfl
@[simp] theorem State.setWord_queues (s : State) (a w : Nat) : (s.setWord a w).queues = s.queues := rfl
@[simp] theorem State.setWord_psErrAt (s : State) (a w : Nat) : (s.setWord a w).psErrAt = s.psErrAt := rfl
@[simp] theorem State.setWord_mirrorHeld (s : State) (a w : Nat) : (s.setWord a w).mirrorHeld = s.mirrorHeld := rfl
@[simp] theorem State.setWord_mirrorOut (s : State) (a w : Nat) : (s.setWord a w).mirrorOut = s.mirrorOut := rfl
@[simp] theorem State.setWord_shared (s : State) (a w : Nat) : (s.setWord a w).shared = s.shared := rfl
@[simp] theorem State.setWord_fedFt (s : State) (a w : Nat) : (s.setWord a w).fedFt = s.fedFt := rfl
@[simp] theorem State.setWord_fedDrift (s : State) (a w : Nat) : (s.setWord a w).fedDrift = s.fedDrift := rfl
@[simp] theorem State.setWord_lemem (s : State) (a w : Nat) : (s.setWord a w).lemem = s.lemem := rfl
@[simp] theorem State.setWord_leprog (s : State) (a w : Nat) : (s.setWord a w).leprog = s.leprog := rfl
@[simp] theorem State.setWord_coefs (s : State) (a w : Nat) : (s.setWord a w).coefs = s.coefs := rfl
@[simp] theorem State.setWord_coefQ (s : State) (a w : Nat) : (s.setWord a w).coefQ = s.coefQ := rfl
@[simp] theorem State.setWord_slots (s : State) (a w : Nat) : (s.setWord a w).slots = s.slots := rfl
@[simp] theorem State.setWord_refLaws (s : State) (a w : Nat) : (s.setWord a w).refLaws = s.refLaws := rfl
@[simp] theorem State.setWord_traces (s : State) (a w : Nat) : (s.setWord a w).traces = s.traces := rfl
@[simp] theorem State.setWord_trmem (s : State) (a w : Nat) : (s.setWord a w).trmem = s.trmem := rfl
@[simp] theorem State.setWord_engines (s : State) (a w : Nat) : (s.setWord a w).engines = s.engines := rfl
@[simp] theorem State.setWord_rings (s : State) (a w : Nat) : (s.setWord a w).rings = s.rings := rfl
@[simp] theorem State.setWord_cartMirror (s : State) (a w : Nat) : (s.setWord a w).cartMirror = s.cartMirror := rfl
@[simp] theorem State.setWord_mirrorSeen (s : State) (a w : Nat) : (s.setWord a w).mirrorSeen = s.mirrorSeen := rfl
@[simp] theorem State.setWord_mirrorBusy (s : State) (a w : Nat) : (s.setWord a w).mirrorBusy = s.mirrorBusy := rfl
@[simp] theorem State.setWord_lifeLogged (s : State) (a w : Nat) : (s.setWord a w).lifeLogged = s.lifeLogged := rfl
@[simp] theorem State.setWord_sep (s : State) (a w : Nat) : (s.setWord a w).sep = s.sep := rfl
@[simp] theorem State.setWord_persons (s : State) (a w : Nat) : (s.setWord a w).persons = s.persons := rfl
@[simp] theorem State.setWord_chb (s : State) (a w : Nat) : (s.setWord a w).chb = s.chb := rfl
@[simp] theorem State.setWord_cha (s : State) (a w : Nat) : (s.setWord a w).cha = s.cha := rfl
@[simp] theorem State.setWord_isas (s : State) (a w : Nat) : (s.setWord a w).isas = s.isas := rfl
@[simp] theorem State.setWord_conns (s : State) (a w : Nat) : (s.setWord a w).conns = s.conns := rfl
@[simp] theorem State.setWord_dpx (s : State) (a w : Nat) : (s.setWord a w).dpx = s.dpx := rfl
@[simp] theorem State.setWord_fed (s : State) (a w : Nat) : (s.setWord a w).fed = s.fed := rfl
@[simp] theorem State.setWord_tds (s : State) (a w : Nat) : (s.setWord a w).tds = s.tds := rfl
@[simp] theorem State.setWord_ethOut (s : State) (a w : Nat) : (s.setWord a w).ethOut = s.ethOut := rfl
@[simp] theorem State.setWord_flash (s : State) (a w : Nat) : (s.setWord a w).flash = s.flash := rfl
@[simp] theorem State.setWord_imgSess (s : State) (a w : Nat) : (s.setWord a w).imgSess = s.imgSess := rfl
@[simp] theorem State.setWord_arc (s : State) (a w : Nat) : (s.setWord a w).arc = s.arc := rfl
@[simp] theorem State.setWord_rep (s : State) (a w : Nat) : (s.setWord a w).rep = s.rep := rfl
@[simp] theorem State.setWord_nvm (s : State) (a w : Nat) : (s.setWord a w).nvm = s.nvm := rfl
@[simp] theorem State.setWord_gov (s : State) (a w : Nat) : (s.setWord a w).gov = s.gov := rfl
@[simp] theorem State.setWord_logst (s : State) (a w : Nat) : (s.setWord a w).logst = s.logst := rfl
@[simp] theorem State.setWord_svc (s : State) (a w : Nat) : (s.setWord a w).svc = s.svc := rfl

@[simp] theorem State.set_pending (s : State) (g : Fld) (v : Nat) : (s.set g v).pending = s.pending := rfl
@[simp] theorem State.set_tsc (s : State) (g : Fld) (v : Nat) : (s.set g v).tsc = s.tsc := rfl
@[simp] theorem State.set_raised (s : State) (g : Fld) (v : Nat) : (s.set g v).raised = s.raised := rfl
@[simp] theorem State.set_dev (s : State) (g : Fld) (v : Nat) : (s.set g v).dev = s.dev := rfl
@[simp] theorem State.set_latches (s : State) (g : Fld) (v : Nat) : (s.set g v).latches = s.latches := rfl
@[simp] theorem State.set_lines (s : State) (g : Fld) (v : Nat) : (s.set g v).lines = s.lines := rfl
@[simp] theorem State.set_acts (s : State) (g : Fld) (v : Nat) : (s.set g v).acts = s.acts := rfl
@[simp] theorem State.set_flows (s : State) (g : Fld) (v : Nat) : (s.set g v).flows = s.flows := rfl
@[simp] theorem State.set_setpts (s : State) (g : Fld) (v : Nat) : (s.set g v).setpts = s.setpts := rfl
@[simp] theorem State.set_pgs (s : State) (g : Fld) (v : Nat) : (s.set g v).pgs = s.pgs := rfl
@[simp] theorem State.set_img (s : State) (g : Fld) (v : Nat) : (s.set g v).img = s.img := rfl
@[simp] theorem State.set_toLog (s : State) (g : Fld) (v : Nat) : (s.set g v).toLog = s.toLog := rfl
@[simp] theorem State.set_lastTsc (s : State) (g : Fld) (v : Nat) : (s.set g v).lastTsc = s.lastTsc := rfl
@[simp] theorem State.set_freeCount (s : State) (g : Fld) (v : Nat) : (s.set g v).freeCount = s.freeCount := rfl
@[simp] theorem State.set_out (s : State) (g : Fld) (v : Nat) : (s.set g v).out = s.out := rfl
@[simp] theorem State.set_mem (s : State) (g : Fld) (v : Nat) : (s.set g v).mem = s.mem := rfl
@[simp] theorem State.set_axes (s : State) (g : Fld) (v : Nat) : (s.set g v).axes = s.axes := rfl
@[simp] theorem State.set_nrwExits (s : State) (g : Fld) (v : Nat) : (s.set g v).nrwExits = s.nrwExits := rfl
@[simp] theorem State.set_nrwEntered (s : State) (g : Fld) (v : Nat) : (s.set g v).nrwEntered = s.nrwEntered := rfl
@[simp] theorem State.set_nrwFlushed (s : State) (g : Fld) (v : Nat) : (s.set g v).nrwFlushed = s.nrwFlushed := rfl
@[simp] theorem State.set_nrws (s : State) (g : Fld) (v : Nat) : (s.set g v).nrws = s.nrws := rfl
@[simp] theorem State.set_nrwRels (s : State) (g : Fld) (v : Nat) : (s.set g v).nrwRels = s.nrwRels := rfl
@[simp] theorem State.set_nrwReady (s : State) (g : Fld) (v : Nat) : (s.set g v).nrwReady = s.nrwReady := rfl
@[simp] theorem State.set_nrwIn (s : State) (g : Fld) (v : Nat) : (s.set g v).nrwIn = s.nrwIn := rfl
@[simp] theorem State.set_nrwOut (s : State) (g : Fld) (v : Nat) : (s.set g v).nrwOut = s.nrwOut := rfl
@[simp] theorem State.set_lifeDue (s : State) (g : Fld) (v : Nat) : (s.set g v).lifeDue = s.lifeDue := rfl
@[simp] theorem State.set_fbs (s : State) (g : Fld) (v : Nat) : (s.set g v).fbs = s.fbs := rfl
@[simp] theorem State.set_encs (s : State) (g : Fld) (v : Nat) : (s.set g v).encs = s.encs := rfl
@[simp] theorem State.set_cmps (s : State) (g : Fld) (v : Nat) : (s.set g v).cmps = s.cmps := rfl
@[simp] theorem State.set_emus (s : State) (g : Fld) (v : Nat) : (s.set g v).emus = s.emus := rfl
@[simp] theorem State.set_nodes (s : State) (g : Fld) (v : Nat) : (s.set g v).nodes = s.nodes := rfl
@[simp] theorem State.set_items (s : State) (g : Fld) (v : Nat) : (s.set g v).items = s.items := rfl
@[simp] theorem State.set_serial (s : State) (g : Fld) (v : Nat) : (s.set g v).serial = s.serial := rfl
@[simp] theorem State.set_flowPrev (s : State) (g : Fld) (v : Nat) : (s.set g v).flowPrev = s.flowPrev := rfl
@[simp] theorem State.set_flowCore (s : State) (g : Fld) (v : Nat) : (s.set g v).flowCore = s.flowCore := rfl
@[simp] theorem State.set_trigs (s : State) (g : Fld) (v : Nat) : (s.set g v).trigs = s.trigs := rfl
@[simp] theorem State.set_submitted (s : State) (g : Fld) (v : Nat) : (s.set g v).submitted = s.submitted := rfl
@[simp] theorem State.set_coreSwap (s : State) (g : Fld) (v : Nat) : (s.set g v).coreSwap = s.coreSwap := rfl
@[simp] theorem State.set_dcs (s : State) (g : Fld) (v : Nat) : (s.set g v).dcs = s.dcs := rfl
@[simp] theorem State.set_tgts (s : State) (g : Fld) (v : Nat) : (s.set g v).tgts = s.tgts := rfl
@[simp] theorem State.set_fabErr (s : State) (g : Fld) (v : Nat) : (s.set g v).fabErr = s.fabErr := rfl
@[simp] theorem State.set_queues (s : State) (g : Fld) (v : Nat) : (s.set g v).queues = s.queues := rfl
@[simp] theorem State.set_psErrAt (s : State) (g : Fld) (v : Nat) : (s.set g v).psErrAt = s.psErrAt := rfl
@[simp] theorem State.set_mirrorHeld (s : State) (g : Fld) (v : Nat) : (s.set g v).mirrorHeld = s.mirrorHeld := rfl
@[simp] theorem State.set_mirrorOut (s : State) (g : Fld) (v : Nat) : (s.set g v).mirrorOut = s.mirrorOut := rfl
@[simp] theorem State.set_shared (s : State) (g : Fld) (v : Nat) : (s.set g v).shared = s.shared := rfl
@[simp] theorem State.set_fedFt (s : State) (g : Fld) (v : Nat) : (s.set g v).fedFt = s.fedFt := rfl
@[simp] theorem State.set_fedDrift (s : State) (g : Fld) (v : Nat) : (s.set g v).fedDrift = s.fedDrift := rfl
@[simp] theorem State.set_lemem (s : State) (g : Fld) (v : Nat) : (s.set g v).lemem = s.lemem := rfl
@[simp] theorem State.set_leprog (s : State) (g : Fld) (v : Nat) : (s.set g v).leprog = s.leprog := rfl
@[simp] theorem State.set_coefs (s : State) (g : Fld) (v : Nat) : (s.set g v).coefs = s.coefs := rfl
@[simp] theorem State.set_coefQ (s : State) (g : Fld) (v : Nat) : (s.set g v).coefQ = s.coefQ := rfl
@[simp] theorem State.set_slots (s : State) (g : Fld) (v : Nat) : (s.set g v).slots = s.slots := rfl
@[simp] theorem State.set_refLaws (s : State) (g : Fld) (v : Nat) : (s.set g v).refLaws = s.refLaws := rfl
@[simp] theorem State.set_traces (s : State) (g : Fld) (v : Nat) : (s.set g v).traces = s.traces := rfl
@[simp] theorem State.set_trmem (s : State) (g : Fld) (v : Nat) : (s.set g v).trmem = s.trmem := rfl
@[simp] theorem State.set_engines (s : State) (g : Fld) (v : Nat) : (s.set g v).engines = s.engines := rfl
@[simp] theorem State.set_rings (s : State) (g : Fld) (v : Nat) : (s.set g v).rings = s.rings := rfl
@[simp] theorem State.set_cartMirror (s : State) (g : Fld) (v : Nat) : (s.set g v).cartMirror = s.cartMirror := rfl
@[simp] theorem State.set_mirrorSeen (s : State) (g : Fld) (v : Nat) : (s.set g v).mirrorSeen = s.mirrorSeen := rfl
@[simp] theorem State.set_mirrorBusy (s : State) (g : Fld) (v : Nat) : (s.set g v).mirrorBusy = s.mirrorBusy := rfl
@[simp] theorem State.set_lifeLogged (s : State) (g : Fld) (v : Nat) : (s.set g v).lifeLogged = s.lifeLogged := rfl
@[simp] theorem State.set_sep (s : State) (g : Fld) (v : Nat) : (s.set g v).sep = s.sep := rfl
@[simp] theorem State.set_persons (s : State) (g : Fld) (v : Nat) : (s.set g v).persons = s.persons := rfl
@[simp] theorem State.set_chb (s : State) (g : Fld) (v : Nat) : (s.set g v).chb = s.chb := rfl
@[simp] theorem State.set_cha (s : State) (g : Fld) (v : Nat) : (s.set g v).cha = s.cha := rfl
@[simp] theorem State.set_isas (s : State) (g : Fld) (v : Nat) : (s.set g v).isas = s.isas := rfl
@[simp] theorem State.set_conns (s : State) (g : Fld) (v : Nat) : (s.set g v).conns = s.conns := rfl
@[simp] theorem State.set_dpx (s : State) (g : Fld) (v : Nat) : (s.set g v).dpx = s.dpx := rfl
@[simp] theorem State.set_fed (s : State) (g : Fld) (v : Nat) : (s.set g v).fed = s.fed := rfl
@[simp] theorem State.set_tds (s : State) (g : Fld) (v : Nat) : (s.set g v).tds = s.tds := rfl
@[simp] theorem State.set_ethOut (s : State) (g : Fld) (v : Nat) : (s.set g v).ethOut = s.ethOut := rfl
@[simp] theorem State.set_flash (s : State) (g : Fld) (v : Nat) : (s.set g v).flash = s.flash := rfl
@[simp] theorem State.set_imgSess (s : State) (g : Fld) (v : Nat) : (s.set g v).imgSess = s.imgSess := rfl
@[simp] theorem State.set_arc (s : State) (g : Fld) (v : Nat) : (s.set g v).arc = s.arc := rfl
@[simp] theorem State.set_rep (s : State) (g : Fld) (v : Nat) : (s.set g v).rep = s.rep := rfl
@[simp] theorem State.set_nvm (s : State) (g : Fld) (v : Nat) : (s.set g v).nvm = s.nvm := rfl
@[simp] theorem State.set_gov (s : State) (g : Fld) (v : Nat) : (s.set g v).gov = s.gov := rfl
@[simp] theorem State.set_logst (s : State) (g : Fld) (v : Nat) : (s.set g v).logst = s.logst := rfl
@[simp] theorem State.set_svc (s : State) (g : Fld) (v : Nat) : (s.set g v).svc = s.svc := rfl

@[simp] theorem State.at_pending (s : State) (t : Time) : (s.at t).pending = s.pending := rfl
@[simp] theorem State.at_regs (s : State) (t : Time) : (s.at t).regs = s.regs := rfl
@[simp] theorem State.at_raised (s : State) (t : Time) : (s.at t).raised = s.raised := rfl
@[simp] theorem State.at_dev (s : State) (t : Time) : (s.at t).dev = s.dev := rfl
@[simp] theorem State.at_latches (s : State) (t : Time) : (s.at t).latches = s.latches := rfl
@[simp] theorem State.at_lines (s : State) (t : Time) : (s.at t).lines = s.lines := rfl
@[simp] theorem State.at_acts (s : State) (t : Time) : (s.at t).acts = s.acts := rfl
@[simp] theorem State.at_flows (s : State) (t : Time) : (s.at t).flows = s.flows := rfl
@[simp] theorem State.at_setpts (s : State) (t : Time) : (s.at t).setpts = s.setpts := rfl
@[simp] theorem State.at_pgs (s : State) (t : Time) : (s.at t).pgs = s.pgs := rfl
@[simp] theorem State.at_img (s : State) (t : Time) : (s.at t).img = s.img := rfl
@[simp] theorem State.at_toLog (s : State) (t : Time) : (s.at t).toLog = s.toLog := rfl
@[simp] theorem State.at_lastTsc (s : State) (t : Time) : (s.at t).lastTsc = s.lastTsc := rfl
@[simp] theorem State.at_freeCount (s : State) (t : Time) : (s.at t).freeCount = s.freeCount := rfl
@[simp] theorem State.at_out (s : State) (t : Time) : (s.at t).out = s.out := rfl
@[simp] theorem State.at_mem (s : State) (t : Time) : (s.at t).mem = s.mem := rfl
@[simp] theorem State.at_axes (s : State) (t : Time) : (s.at t).axes = s.axes := rfl
@[simp] theorem State.at_nrwExits (s : State) (t : Time) : (s.at t).nrwExits = s.nrwExits := rfl
@[simp] theorem State.at_nrwEntered (s : State) (t : Time) : (s.at t).nrwEntered = s.nrwEntered := rfl
@[simp] theorem State.at_nrwFlushed (s : State) (t : Time) : (s.at t).nrwFlushed = s.nrwFlushed := rfl
@[simp] theorem State.at_nrws (s : State) (t : Time) : (s.at t).nrws = s.nrws := rfl
@[simp] theorem State.at_nrwRels (s : State) (t : Time) : (s.at t).nrwRels = s.nrwRels := rfl
@[simp] theorem State.at_nrwReady (s : State) (t : Time) : (s.at t).nrwReady = s.nrwReady := rfl
@[simp] theorem State.at_nrwIn (s : State) (t : Time) : (s.at t).nrwIn = s.nrwIn := rfl
@[simp] theorem State.at_nrwOut (s : State) (t : Time) : (s.at t).nrwOut = s.nrwOut := rfl
@[simp] theorem State.at_lifeDue (s : State) (t : Time) : (s.at t).lifeDue = s.lifeDue := rfl
@[simp] theorem State.at_fbs (s : State) (t : Time) : (s.at t).fbs = s.fbs := rfl
@[simp] theorem State.at_encs (s : State) (t : Time) : (s.at t).encs = s.encs := rfl
@[simp] theorem State.at_cmps (s : State) (t : Time) : (s.at t).cmps = s.cmps := rfl
@[simp] theorem State.at_emus (s : State) (t : Time) : (s.at t).emus = s.emus := rfl
@[simp] theorem State.at_nodes (s : State) (t : Time) : (s.at t).nodes = s.nodes := rfl
@[simp] theorem State.at_items (s : State) (t : Time) : (s.at t).items = s.items := rfl
@[simp] theorem State.at_serial (s : State) (t : Time) : (s.at t).serial = s.serial := rfl
@[simp] theorem State.at_flowPrev (s : State) (t : Time) : (s.at t).flowPrev = s.flowPrev := rfl
@[simp] theorem State.at_flowCore (s : State) (t : Time) : (s.at t).flowCore = s.flowCore := rfl
@[simp] theorem State.at_trigs (s : State) (t : Time) : (s.at t).trigs = s.trigs := rfl
@[simp] theorem State.at_submitted (s : State) (t : Time) : (s.at t).submitted = s.submitted := rfl
@[simp] theorem State.at_coreSwap (s : State) (t : Time) : (s.at t).coreSwap = s.coreSwap := rfl
@[simp] theorem State.at_dcs (s : State) (t : Time) : (s.at t).dcs = s.dcs := rfl
@[simp] theorem State.at_tgts (s : State) (t : Time) : (s.at t).tgts = s.tgts := rfl
@[simp] theorem State.at_fabErr (s : State) (t : Time) : (s.at t).fabErr = s.fabErr := rfl
@[simp] theorem State.at_queues (s : State) (t : Time) : (s.at t).queues = s.queues := rfl
@[simp] theorem State.at_psErrAt (s : State) (t : Time) : (s.at t).psErrAt = s.psErrAt := rfl
@[simp] theorem State.at_mirrorHeld (s : State) (t : Time) : (s.at t).mirrorHeld = s.mirrorHeld := rfl
@[simp] theorem State.at_mirrorOut (s : State) (t : Time) : (s.at t).mirrorOut = s.mirrorOut := rfl
@[simp] theorem State.at_shared (s : State) (t : Time) : (s.at t).shared = s.shared := rfl
@[simp] theorem State.at_fedFt (s : State) (t : Time) : (s.at t).fedFt = s.fedFt := rfl
@[simp] theorem State.at_fedDrift (s : State) (t : Time) : (s.at t).fedDrift = s.fedDrift := rfl
@[simp] theorem State.at_lemem (s : State) (t : Time) : (s.at t).lemem = s.lemem := rfl
@[simp] theorem State.at_leprog (s : State) (t : Time) : (s.at t).leprog = s.leprog := rfl
@[simp] theorem State.at_coefs (s : State) (t : Time) : (s.at t).coefs = s.coefs := rfl
@[simp] theorem State.at_coefQ (s : State) (t : Time) : (s.at t).coefQ = s.coefQ := rfl
@[simp] theorem State.at_slots (s : State) (t : Time) : (s.at t).slots = s.slots := rfl
@[simp] theorem State.at_refLaws (s : State) (t : Time) : (s.at t).refLaws = s.refLaws := rfl
@[simp] theorem State.at_traces (s : State) (t : Time) : (s.at t).traces = s.traces := rfl
@[simp] theorem State.at_trmem (s : State) (t : Time) : (s.at t).trmem = s.trmem := rfl
@[simp] theorem State.at_engines (s : State) (t : Time) : (s.at t).engines = s.engines := rfl
@[simp] theorem State.at_rings (s : State) (t : Time) : (s.at t).rings = s.rings := rfl
@[simp] theorem State.at_cartMirror (s : State) (t : Time) : (s.at t).cartMirror = s.cartMirror := rfl
@[simp] theorem State.at_mirrorSeen (s : State) (t : Time) : (s.at t).mirrorSeen = s.mirrorSeen := rfl
@[simp] theorem State.at_mirrorBusy (s : State) (t : Time) : (s.at t).mirrorBusy = s.mirrorBusy := rfl
@[simp] theorem State.at_lifeLogged (s : State) (t : Time) : (s.at t).lifeLogged = s.lifeLogged := rfl
@[simp] theorem State.at_sep (s : State) (t : Time) : (s.at t).sep = s.sep := rfl
@[simp] theorem State.at_persons (s : State) (t : Time) : (s.at t).persons = s.persons := rfl
@[simp] theorem State.at_chb (s : State) (t : Time) : (s.at t).chb = s.chb := rfl
@[simp] theorem State.at_cha (s : State) (t : Time) : (s.at t).cha = s.cha := rfl
@[simp] theorem State.at_isas (s : State) (t : Time) : (s.at t).isas = s.isas := rfl
@[simp] theorem State.at_conns (s : State) (t : Time) : (s.at t).conns = s.conns := rfl
@[simp] theorem State.at_dpx (s : State) (t : Time) : (s.at t).dpx = s.dpx := rfl
@[simp] theorem State.at_fed (s : State) (t : Time) : (s.at t).fed = s.fed := rfl
@[simp] theorem State.at_tds (s : State) (t : Time) : (s.at t).tds = s.tds := rfl
@[simp] theorem State.at_ethOut (s : State) (t : Time) : (s.at t).ethOut = s.ethOut := rfl
@[simp] theorem State.at_flash (s : State) (t : Time) : (s.at t).flash = s.flash := rfl
@[simp] theorem State.at_imgSess (s : State) (t : Time) : (s.at t).imgSess = s.imgSess := rfl
@[simp] theorem State.at_arc (s : State) (t : Time) : (s.at t).arc = s.arc := rfl
@[simp] theorem State.at_rep (s : State) (t : Time) : (s.at t).rep = s.rep := rfl
@[simp] theorem State.at_nvm (s : State) (t : Time) : (s.at t).nvm = s.nvm := rfl
@[simp] theorem State.at_gov (s : State) (t : Time) : (s.at t).gov = s.gov := rfl
@[simp] theorem State.at_logst (s : State) (t : Time) : (s.at t).logst = s.logst := rfl
@[simp] theorem State.at_svc (s : State) (t : Time) : (s.at t).svc = s.svc := rfl

/-- The word written is the word read. -/
@[simp] theorem State.word_setWord_same (s : State) (a w : Nat) : (s.setWord a w).word a = w % 2 ^ 32 := by
  simp [State.word, State.setWord]

/-- A register write leaves every other register alone. -/
theorem State.word_setWord_ne {a b : Nat} (h : b ≠ a) (s : State) (w : Nat) : (s.setWord a w).word b = s.word b := by
  simp [State.word, State.setWord, tget_tput_ne h]

/-- Both in one. -/
theorem State.word_setWord (s : State) (a b w : Nat) : (s.setWord a w).word b = if b = a then w % 2 ^ 32 else s.word b := by
  by_cases h : b = a
  · subst h; simp
  · simp [h, State.word_setWord_ne h]

@[simp] theorem State.word_at (s : State) (t : Time) (a : Nat) : (s.at t).word a = s.word a := rfl
@[simp] theorem State.get_at (s : State) (t : Time) (f : Fld) : (s.at t).get f = s.get f := rfl
@[simp] theorem State.on_at (s : State) (t : Time) (f : Fld) : (s.at t).on f = s.on f := rfl

/-- The field written is the field read. -/
theorem State.get_set_same (s : State) (f : Fld) (v : Nat) (h : f.lo + f.width ≤ 32) : (s.set f v).get f = v % 2 ^ f.width := by
  simp only [State.get, State.set, State.word_setWord_same]
  rw [bits_mod _ _ _ h, bits_setBits_same]

/-- A field write leaves a field of another register, or one beside it, alone. -/
theorem State.get_set_ne (s : State) (f g : Fld) (v : Nat)
    (h : g.addr ≠ f.addr ∨ (g.lo + g.width ≤ 32 ∧ (g.lo + g.width ≤ f.lo ∨ f.lo + f.width ≤ g.lo))) :
    (s.set f v).get g = s.get g := by
  by_cases ha : g.addr = f.addr
  · rcases h with h | ⟨h32, h⟩
    · exact absurd ha h
    · simp only [State.get, State.set, ha, State.word_setWord_same]
      rw [bits_mod _ _ _ h32, bits_setBits_ne h]
  · simp [State.get, State.set, State.word_setWord_ne ha]

/-- A register write leaves a field of another register alone. -/
theorem State.get_setWord_ne (s : State) (a w : Nat) (g : Fld) (h : g.addr ≠ a) : (s.setWord a w).get g = s.get g := by
  simp [State.get, State.word_setWord_ne h]

/-- A field write leaves every other register alone. -/
theorem State.word_set_ne (s : State) (f : Fld) (v a : Nat) (h : a ≠ f.addr) : (s.set f v).word a = s.word a := by
  simp [State.set, State.word_setWord_ne h]

theorem State.setB_eq (s : State) (f : Fld) (b : Bool) : s.setB f b = s.set f (b2n b) := rfl
theorem State.addSat_eq (s : State) (f : Fld) (n : Nat) : s.addSat f n = s.set f (satU f.width (s.get f + n)) := rfl
theorem State.addMod_eq (s : State) (f : Fld) (n : Nat) : s.addMod f n = s.set f ((s.get f + n) % 2 ^ f.width) := rfl

/-- The 64-bit value written is the one read. -/
theorem State.word64_setWord64 (s : State) (a v : Nat) : (s.setWord64 a v).word64 a = v % 2 ^ 64 := by
  have h : a ≠ a + 4 := by omega
  simp only [State.word64, State.setWord64, State.word_setWord_same, State.word_setWord_ne h]
  omega

/-! ### The passing of time -/

/-- Where the instant has not passed yet, it is now. -/
theorem State.at_tsc {s : State} {t : Time} (h : s.tsc.toNat ≤ t.toNat) : (s.at t).tsc = t := by simp [State.at, h]

/-- Time never runs backwards (R24). -/
theorem State.now_le_at (s : State) (t : Time) : s.now ≤ (s.at t).now := by
  simp only [State.now, State.at]; split <;> omega

/-! ### The tables of the blocks -/

@[simp] theorem State.line_modLine (s : State) (k : Nat) (f : _) : (s.modLine k f).line k = f (s.line k) := tget_tput_same _ _ _ _
theorem State.line_modLine_ne (s : State) {j k : Nat} (h : j ≠ k) (f : _) : (s.modLine k f).line j = s.line j := tget_tput_ne h _ _ _ _
@[simp] theorem State.modLine_regs (s : State) (k : Nat) (f : _) : (s.modLine k f).regs = s.regs := rfl
@[simp] theorem State.modLine_dev (s : State) (k : Nat) (f : _) : (s.modLine k f).dev = s.dev := rfl
@[simp] theorem State.modLine_tsc (s : State) (k : Nat) (f : _) : (s.modLine k f).tsc = s.tsc := rfl
@[simp] theorem State.modLine_mem (s : State) (k : Nat) (f : _) : (s.modLine k f).mem = s.mem := rfl
@[simp] theorem State.modLine_pending (s : State) (k : Nat) (f : _) : (s.modLine k f).pending = s.pending := rfl
@[simp] theorem State.modLine_img (s : State) (k : Nat) (f : _) : (s.modLine k f).img = s.img := rfl
@[simp] theorem State.word_modLine (s : State) (k : Nat) (f : _) (a : Nat) : (s.modLine k f).word a = s.word a := rfl
@[simp] theorem State.get_modLine (s : State) (k : Nat) (f : _) (g : Fld) : (s.modLine k f).get g = s.get g := rfl
@[simp] theorem State.line_setWord (s : State) (k a w : Nat) : (s.setWord a w).line k = s.line k := rfl
@[simp] theorem State.line_set (s : State) (k : Nat) (f : Fld) (v : Nat) : (s.set f v).line k = s.line k := rfl
@[simp] theorem State.line_at (s : State) (k : Nat) (t : Time) : (s.at t).line k = s.line k := rfl

@[simp] theorem State.flow_modFlow (s : State) (k : Nat) (f : _) : (s.modFlow k f).flow k = f (s.flow k) := tget_tput_same _ _ _ _
theorem State.flow_modFlow_ne (s : State) {j k : Nat} (h : j ≠ k) (f : _) : (s.modFlow k f).flow j = s.flow j := tget_tput_ne h _ _ _ _
@[simp] theorem State.modFlow_regs (s : State) (k : Nat) (f : _) : (s.modFlow k f).regs = s.regs := rfl
@[simp] theorem State.modFlow_dev (s : State) (k : Nat) (f : _) : (s.modFlow k f).dev = s.dev := rfl
@[simp] theorem State.modFlow_tsc (s : State) (k : Nat) (f : _) : (s.modFlow k f).tsc = s.tsc := rfl
@[simp] theorem State.modFlow_mem (s : State) (k : Nat) (f : _) : (s.modFlow k f).mem = s.mem := rfl
@[simp] theorem State.modFlow_pending (s : State) (k : Nat) (f : _) : (s.modFlow k f).pending = s.pending := rfl
@[simp] theorem State.modFlow_img (s : State) (k : Nat) (f : _) : (s.modFlow k f).img = s.img := rfl
@[simp] theorem State.word_modFlow (s : State) (k : Nat) (f : _) (a : Nat) : (s.modFlow k f).word a = s.word a := rfl
@[simp] theorem State.get_modFlow (s : State) (k : Nat) (f : _) (g : Fld) : (s.modFlow k f).get g = s.get g := rfl
@[simp] theorem State.flow_setWord (s : State) (k a w : Nat) : (s.setWord a w).flow k = s.flow k := rfl
@[simp] theorem State.flow_set (s : State) (k : Nat) (f : Fld) (v : Nat) : (s.set f v).flow k = s.flow k := rfl
@[simp] theorem State.flow_at (s : State) (k : Nat) (t : Time) : (s.at t).flow k = s.flow k := rfl

@[simp] theorem State.pg_modPg (s : State) (k : Nat) (f : _) : (s.modPg k f).pg k = f (s.pg k) := tget_tput_same _ _ _ _
theorem State.pg_modPg_ne (s : State) {j k : Nat} (h : j ≠ k) (f : _) : (s.modPg k f).pg j = s.pg j := tget_tput_ne h _ _ _ _
@[simp] theorem State.modPg_regs (s : State) (k : Nat) (f : _) : (s.modPg k f).regs = s.regs := rfl
@[simp] theorem State.modPg_dev (s : State) (k : Nat) (f : _) : (s.modPg k f).dev = s.dev := rfl
@[simp] theorem State.modPg_tsc (s : State) (k : Nat) (f : _) : (s.modPg k f).tsc = s.tsc := rfl
@[simp] theorem State.modPg_mem (s : State) (k : Nat) (f : _) : (s.modPg k f).mem = s.mem := rfl
@[simp] theorem State.modPg_pending (s : State) (k : Nat) (f : _) : (s.modPg k f).pending = s.pending := rfl
@[simp] theorem State.modPg_img (s : State) (k : Nat) (f : _) : (s.modPg k f).img = s.img := rfl
@[simp] theorem State.word_modPg (s : State) (k : Nat) (f : _) (a : Nat) : (s.modPg k f).word a = s.word a := rfl
@[simp] theorem State.get_modPg (s : State) (k : Nat) (f : _) (g : Fld) : (s.modPg k f).get g = s.get g := rfl
@[simp] theorem State.pg_setWord (s : State) (k a w : Nat) : (s.setWord a w).pg k = s.pg k := rfl
@[simp] theorem State.pg_set (s : State) (k : Nat) (f : Fld) (v : Nat) : (s.set f v).pg k = s.pg k := rfl
@[simp] theorem State.pg_at (s : State) (k : Nat) (t : Time) : (s.at t).pg k = s.pg k := rfl

@[simp] theorem State.axis_modAxis (s : State) (k : Nat) (f : _) : (s.modAxis k f).axis k = f (s.axis k) := tget_tput_same _ _ _ _
theorem State.axis_modAxis_ne (s : State) {j k : Nat} (h : j ≠ k) (f : _) : (s.modAxis k f).axis j = s.axis j := tget_tput_ne h _ _ _ _
@[simp] theorem State.modAxis_regs (s : State) (k : Nat) (f : _) : (s.modAxis k f).regs = s.regs := rfl
@[simp] theorem State.modAxis_dev (s : State) (k : Nat) (f : _) : (s.modAxis k f).dev = s.dev := rfl
@[simp] theorem State.modAxis_tsc (s : State) (k : Nat) (f : _) : (s.modAxis k f).tsc = s.tsc := rfl
@[simp] theorem State.modAxis_mem (s : State) (k : Nat) (f : _) : (s.modAxis k f).mem = s.mem := rfl
@[simp] theorem State.modAxis_pending (s : State) (k : Nat) (f : _) : (s.modAxis k f).pending = s.pending := rfl
@[simp] theorem State.modAxis_img (s : State) (k : Nat) (f : _) : (s.modAxis k f).img = s.img := rfl
@[simp] theorem State.word_modAxis (s : State) (k : Nat) (f : _) (a : Nat) : (s.modAxis k f).word a = s.word a := rfl
@[simp] theorem State.get_modAxis (s : State) (k : Nat) (f : _) (g : Fld) : (s.modAxis k f).get g = s.get g := rfl
@[simp] theorem State.axis_setWord (s : State) (k a w : Nat) : (s.setWord a w).axis k = s.axis k := rfl
@[simp] theorem State.axis_set (s : State) (k : Nat) (f : Fld) (v : Nat) : (s.set f v).axis k = s.axis k := rfl
@[simp] theorem State.axis_at (s : State) (k : Nat) (t : Time) : (s.at t).axis k = s.axis k := rfl

@[simp] theorem State.fb_modFb (s : State) (k : Nat) (f : _) : (s.modFb k f).fb k = f (s.fb k) := tget_tput_same _ _ _ _
theorem State.fb_modFb_ne (s : State) {j k : Nat} (h : j ≠ k) (f : _) : (s.modFb k f).fb j = s.fb j := tget_tput_ne h _ _ _ _
@[simp] theorem State.modFb_regs (s : State) (k : Nat) (f : _) : (s.modFb k f).regs = s.regs := rfl
@[simp] theorem State.modFb_dev (s : State) (k : Nat) (f : _) : (s.modFb k f).dev = s.dev := rfl
@[simp] theorem State.modFb_tsc (s : State) (k : Nat) (f : _) : (s.modFb k f).tsc = s.tsc := rfl
@[simp] theorem State.modFb_mem (s : State) (k : Nat) (f : _) : (s.modFb k f).mem = s.mem := rfl
@[simp] theorem State.modFb_pending (s : State) (k : Nat) (f : _) : (s.modFb k f).pending = s.pending := rfl
@[simp] theorem State.modFb_img (s : State) (k : Nat) (f : _) : (s.modFb k f).img = s.img := rfl
@[simp] theorem State.word_modFb (s : State) (k : Nat) (f : _) (a : Nat) : (s.modFb k f).word a = s.word a := rfl
@[simp] theorem State.get_modFb (s : State) (k : Nat) (f : _) (g : Fld) : (s.modFb k f).get g = s.get g := rfl
@[simp] theorem State.fb_setWord (s : State) (k a w : Nat) : (s.setWord a w).fb k = s.fb k := rfl
@[simp] theorem State.fb_set (s : State) (k : Nat) (f : Fld) (v : Nat) : (s.set f v).fb k = s.fb k := rfl
@[simp] theorem State.fb_at (s : State) (k : Nat) (t : Time) : (s.at t).fb k = s.fb k := rfl

@[simp] theorem State.enc_modEnc (s : State) (k : Nat) (f : _) : (s.modEnc k f).enc k = f (s.enc k) := tget_tput_same _ _ _ _
theorem State.enc_modEnc_ne (s : State) {j k : Nat} (h : j ≠ k) (f : _) : (s.modEnc k f).enc j = s.enc j := tget_tput_ne h _ _ _ _
@[simp] theorem State.modEnc_regs (s : State) (k : Nat) (f : _) : (s.modEnc k f).regs = s.regs := rfl
@[simp] theorem State.modEnc_dev (s : State) (k : Nat) (f : _) : (s.modEnc k f).dev = s.dev := rfl
@[simp] theorem State.modEnc_tsc (s : State) (k : Nat) (f : _) : (s.modEnc k f).tsc = s.tsc := rfl
@[simp] theorem State.modEnc_mem (s : State) (k : Nat) (f : _) : (s.modEnc k f).mem = s.mem := rfl
@[simp] theorem State.modEnc_pending (s : State) (k : Nat) (f : _) : (s.modEnc k f).pending = s.pending := rfl
@[simp] theorem State.modEnc_img (s : State) (k : Nat) (f : _) : (s.modEnc k f).img = s.img := rfl
@[simp] theorem State.word_modEnc (s : State) (k : Nat) (f : _) (a : Nat) : (s.modEnc k f).word a = s.word a := rfl
@[simp] theorem State.get_modEnc (s : State) (k : Nat) (f : _) (g : Fld) : (s.modEnc k f).get g = s.get g := rfl
@[simp] theorem State.enc_setWord (s : State) (k a w : Nat) : (s.setWord a w).enc k = s.enc k := rfl
@[simp] theorem State.enc_set (s : State) (k : Nat) (f : Fld) (v : Nat) : (s.set f v).enc k = s.enc k := rfl
@[simp] theorem State.enc_at (s : State) (k : Nat) (t : Time) : (s.at t).enc k = s.enc k := rfl

@[simp] theorem State.cmp_modCmp (s : State) (k : Nat) (f : _) : (s.modCmp k f).cmp k = f (s.cmp k) := tget_tput_same _ _ _ _
theorem State.cmp_modCmp_ne (s : State) {j k : Nat} (h : j ≠ k) (f : _) : (s.modCmp k f).cmp j = s.cmp j := tget_tput_ne h _ _ _ _
@[simp] theorem State.modCmp_regs (s : State) (k : Nat) (f : _) : (s.modCmp k f).regs = s.regs := rfl
@[simp] theorem State.modCmp_dev (s : State) (k : Nat) (f : _) : (s.modCmp k f).dev = s.dev := rfl
@[simp] theorem State.modCmp_tsc (s : State) (k : Nat) (f : _) : (s.modCmp k f).tsc = s.tsc := rfl
@[simp] theorem State.modCmp_mem (s : State) (k : Nat) (f : _) : (s.modCmp k f).mem = s.mem := rfl
@[simp] theorem State.modCmp_pending (s : State) (k : Nat) (f : _) : (s.modCmp k f).pending = s.pending := rfl
@[simp] theorem State.modCmp_img (s : State) (k : Nat) (f : _) : (s.modCmp k f).img = s.img := rfl
@[simp] theorem State.word_modCmp (s : State) (k : Nat) (f : _) (a : Nat) : (s.modCmp k f).word a = s.word a := rfl
@[simp] theorem State.get_modCmp (s : State) (k : Nat) (f : _) (g : Fld) : (s.modCmp k f).get g = s.get g := rfl
@[simp] theorem State.cmp_setWord (s : State) (k a w : Nat) : (s.setWord a w).cmp k = s.cmp k := rfl
@[simp] theorem State.cmp_set (s : State) (k : Nat) (f : Fld) (v : Nat) : (s.set f v).cmp k = s.cmp k := rfl
@[simp] theorem State.cmp_at (s : State) (k : Nat) (t : Time) : (s.at t).cmp k = s.cmp k := rfl

@[simp] theorem State.emu_modEmu (s : State) (k : Nat) (f : _) : (s.modEmu k f).emu k = f (s.emu k) := tget_tput_same _ _ _ _
theorem State.emu_modEmu_ne (s : State) {j k : Nat} (h : j ≠ k) (f : _) : (s.modEmu k f).emu j = s.emu j := tget_tput_ne h _ _ _ _
@[simp] theorem State.modEmu_regs (s : State) (k : Nat) (f : _) : (s.modEmu k f).regs = s.regs := rfl
@[simp] theorem State.modEmu_dev (s : State) (k : Nat) (f : _) : (s.modEmu k f).dev = s.dev := rfl
@[simp] theorem State.modEmu_tsc (s : State) (k : Nat) (f : _) : (s.modEmu k f).tsc = s.tsc := rfl
@[simp] theorem State.modEmu_mem (s : State) (k : Nat) (f : _) : (s.modEmu k f).mem = s.mem := rfl
@[simp] theorem State.modEmu_pending (s : State) (k : Nat) (f : _) : (s.modEmu k f).pending = s.pending := rfl
@[simp] theorem State.modEmu_img (s : State) (k : Nat) (f : _) : (s.modEmu k f).img = s.img := rfl
@[simp] theorem State.word_modEmu (s : State) (k : Nat) (f : _) (a : Nat) : (s.modEmu k f).word a = s.word a := rfl
@[simp] theorem State.get_modEmu (s : State) (k : Nat) (f : _) (g : Fld) : (s.modEmu k f).get g = s.get g := rfl
@[simp] theorem State.emu_setWord (s : State) (k a w : Nat) : (s.setWord a w).emu k = s.emu k := rfl
@[simp] theorem State.emu_set (s : State) (k : Nat) (f : Fld) (v : Nat) : (s.set f v).emu k = s.emu k := rfl
@[simp] theorem State.emu_at (s : State) (k : Nat) (t : Time) : (s.at t).emu k = s.emu k := rfl

@[simp] theorem State.nrw_modNrw (s : State) (k : Nat) (f : _) : (s.modNrw k f).nrw k = f (s.nrw k) := tget_tput_same _ _ _ _
theorem State.nrw_modNrw_ne (s : State) {j k : Nat} (h : j ≠ k) (f : _) : (s.modNrw k f).nrw j = s.nrw j := tget_tput_ne h _ _ _ _
@[simp] theorem State.modNrw_regs (s : State) (k : Nat) (f : _) : (s.modNrw k f).regs = s.regs := rfl
@[simp] theorem State.modNrw_dev (s : State) (k : Nat) (f : _) : (s.modNrw k f).dev = s.dev := rfl
@[simp] theorem State.modNrw_tsc (s : State) (k : Nat) (f : _) : (s.modNrw k f).tsc = s.tsc := rfl
@[simp] theorem State.modNrw_mem (s : State) (k : Nat) (f : _) : (s.modNrw k f).mem = s.mem := rfl
@[simp] theorem State.modNrw_pending (s : State) (k : Nat) (f : _) : (s.modNrw k f).pending = s.pending := rfl
@[simp] theorem State.modNrw_img (s : State) (k : Nat) (f : _) : (s.modNrw k f).img = s.img := rfl
@[simp] theorem State.word_modNrw (s : State) (k : Nat) (f : _) (a : Nat) : (s.modNrw k f).word a = s.word a := rfl
@[simp] theorem State.get_modNrw (s : State) (k : Nat) (f : _) (g : Fld) : (s.modNrw k f).get g = s.get g := rfl
@[simp] theorem State.nrw_setWord (s : State) (k a w : Nat) : (s.setWord a w).nrw k = s.nrw k := rfl
@[simp] theorem State.nrw_set (s : State) (k : Nat) (f : Fld) (v : Nat) : (s.set f v).nrw k = s.nrw k := rfl
@[simp] theorem State.nrw_at (s : State) (k : Nat) (t : Time) : (s.at t).nrw k = s.nrw k := rfl

@[simp] theorem State.queue_modQueue (s : State) (k : Nat) (f : _) : (s.modQueue k f).queue k = f (s.queue k) := tget_tput_same _ _ _ _
theorem State.queue_modQueue_ne (s : State) {j k : Nat} (h : j ≠ k) (f : _) : (s.modQueue k f).queue j = s.queue j := tget_tput_ne h _ _ _ _
@[simp] theorem State.modQueue_regs (s : State) (k : Nat) (f : _) : (s.modQueue k f).regs = s.regs := rfl
@[simp] theorem State.modQueue_dev (s : State) (k : Nat) (f : _) : (s.modQueue k f).dev = s.dev := rfl
@[simp] theorem State.modQueue_tsc (s : State) (k : Nat) (f : _) : (s.modQueue k f).tsc = s.tsc := rfl
@[simp] theorem State.modQueue_mem (s : State) (k : Nat) (f : _) : (s.modQueue k f).mem = s.mem := rfl
@[simp] theorem State.modQueue_pending (s : State) (k : Nat) (f : _) : (s.modQueue k f).pending = s.pending := rfl
@[simp] theorem State.modQueue_img (s : State) (k : Nat) (f : _) : (s.modQueue k f).img = s.img := rfl
@[simp] theorem State.word_modQueue (s : State) (k : Nat) (f : _) (a : Nat) : (s.modQueue k f).word a = s.word a := rfl
@[simp] theorem State.get_modQueue (s : State) (k : Nat) (f : _) (g : Fld) : (s.modQueue k f).get g = s.get g := rfl
@[simp] theorem State.queue_setWord (s : State) (k a w : Nat) : (s.setWord a w).queue k = s.queue k := rfl
@[simp] theorem State.queue_set (s : State) (k : Nat) (f : Fld) (v : Nat) : (s.set f v).queue k = s.queue k := rfl
@[simp] theorem State.queue_at (s : State) (k : Nat) (t : Time) : (s.at t).queue k = s.queue k := rfl

@[simp] theorem State.dc_modDc (s : State) (k : Nat) (f : _) : (s.modDc k f).dc k = f (s.dc k) := tget_tput_same _ _ _ _
theorem State.dc_modDc_ne (s : State) {j k : Nat} (h : j ≠ k) (f : _) : (s.modDc k f).dc j = s.dc j := tget_tput_ne h _ _ _ _
@[simp] theorem State.modDc_regs (s : State) (k : Nat) (f : _) : (s.modDc k f).regs = s.regs := rfl
@[simp] theorem State.modDc_dev (s : State) (k : Nat) (f : _) : (s.modDc k f).dev = s.dev := rfl
@[simp] theorem State.modDc_tsc (s : State) (k : Nat) (f : _) : (s.modDc k f).tsc = s.tsc := rfl
@[simp] theorem State.modDc_mem (s : State) (k : Nat) (f : _) : (s.modDc k f).mem = s.mem := rfl
@[simp] theorem State.modDc_pending (s : State) (k : Nat) (f : _) : (s.modDc k f).pending = s.pending := rfl
@[simp] theorem State.modDc_img (s : State) (k : Nat) (f : _) : (s.modDc k f).img = s.img := rfl
@[simp] theorem State.word_modDc (s : State) (k : Nat) (f : _) (a : Nat) : (s.modDc k f).word a = s.word a := rfl
@[simp] theorem State.get_modDc (s : State) (k : Nat) (f : _) (g : Fld) : (s.modDc k f).get g = s.get g := rfl
@[simp] theorem State.dc_setWord (s : State) (k a w : Nat) : (s.setWord a w).dc k = s.dc k := rfl
@[simp] theorem State.dc_set (s : State) (k : Nat) (f : Fld) (v : Nat) : (s.set f v).dc k = s.dc k := rfl
@[simp] theorem State.dc_at (s : State) (k : Nat) (t : Time) : (s.at t).dc k = s.dc k := rfl

@[simp] theorem State.tgt_modTgt (s : State) (k : Nat) (f : _) : (s.modTgt k f).tgt k = f (s.tgt k) := tget_tput_same _ _ _ _
theorem State.tgt_modTgt_ne (s : State) {j k : Nat} (h : j ≠ k) (f : _) : (s.modTgt k f).tgt j = s.tgt j := tget_tput_ne h _ _ _ _
@[simp] theorem State.modTgt_regs (s : State) (k : Nat) (f : _) : (s.modTgt k f).regs = s.regs := rfl
@[simp] theorem State.modTgt_dev (s : State) (k : Nat) (f : _) : (s.modTgt k f).dev = s.dev := rfl
@[simp] theorem State.modTgt_tsc (s : State) (k : Nat) (f : _) : (s.modTgt k f).tsc = s.tsc := rfl
@[simp] theorem State.modTgt_mem (s : State) (k : Nat) (f : _) : (s.modTgt k f).mem = s.mem := rfl
@[simp] theorem State.modTgt_pending (s : State) (k : Nat) (f : _) : (s.modTgt k f).pending = s.pending := rfl
@[simp] theorem State.modTgt_img (s : State) (k : Nat) (f : _) : (s.modTgt k f).img = s.img := rfl
@[simp] theorem State.word_modTgt (s : State) (k : Nat) (f : _) (a : Nat) : (s.modTgt k f).word a = s.word a := rfl
@[simp] theorem State.get_modTgt (s : State) (k : Nat) (f : _) (g : Fld) : (s.modTgt k f).get g = s.get g := rfl
@[simp] theorem State.tgt_setWord (s : State) (k a w : Nat) : (s.setWord a w).tgt k = s.tgt k := rfl
@[simp] theorem State.tgt_set (s : State) (k : Nat) (f : Fld) (v : Nat) : (s.set f v).tgt k = s.tgt k := rfl
@[simp] theorem State.tgt_at (s : State) (k : Nat) (t : Time) : (s.at t).tgt k = s.tgt k := rfl

@[simp] theorem State.eng_modEng (s : State) (k : Nat) (f : _) : (s.modEng k f).eng k = f (s.eng k) := tget_tput_same _ _ _ _
theorem State.eng_modEng_ne (s : State) {j k : Nat} (h : j ≠ k) (f : _) : (s.modEng k f).eng j = s.eng j := tget_tput_ne h _ _ _ _
@[simp] theorem State.modEng_regs (s : State) (k : Nat) (f : _) : (s.modEng k f).regs = s.regs := rfl
@[simp] theorem State.modEng_dev (s : State) (k : Nat) (f : _) : (s.modEng k f).dev = s.dev := rfl
@[simp] theorem State.modEng_tsc (s : State) (k : Nat) (f : _) : (s.modEng k f).tsc = s.tsc := rfl
@[simp] theorem State.modEng_mem (s : State) (k : Nat) (f : _) : (s.modEng k f).mem = s.mem := rfl
@[simp] theorem State.modEng_pending (s : State) (k : Nat) (f : _) : (s.modEng k f).pending = s.pending := rfl
@[simp] theorem State.modEng_img (s : State) (k : Nat) (f : _) : (s.modEng k f).img = s.img := rfl
@[simp] theorem State.word_modEng (s : State) (k : Nat) (f : _) (a : Nat) : (s.modEng k f).word a = s.word a := rfl
@[simp] theorem State.get_modEng (s : State) (k : Nat) (f : _) (g : Fld) : (s.modEng k f).get g = s.get g := rfl
@[simp] theorem State.eng_setWord (s : State) (k a w : Nat) : (s.setWord a w).eng k = s.eng k := rfl
@[simp] theorem State.eng_set (s : State) (k : Nat) (f : Fld) (v : Nat) : (s.set f v).eng k = s.eng k := rfl
@[simp] theorem State.eng_at (s : State) (k : Nat) (t : Time) : (s.at t).eng k = s.eng k := rfl

@[simp] theorem State.trace_modTrace (s : State) (k : Nat) (f : _) : (s.modTrace k f).trace k = f (s.trace k) := tget_tput_same _ _ _ _
theorem State.trace_modTrace_ne (s : State) {j k : Nat} (h : j ≠ k) (f : _) : (s.modTrace k f).trace j = s.trace j := tget_tput_ne h _ _ _ _
@[simp] theorem State.modTrace_regs (s : State) (k : Nat) (f : _) : (s.modTrace k f).regs = s.regs := rfl
@[simp] theorem State.modTrace_dev (s : State) (k : Nat) (f : _) : (s.modTrace k f).dev = s.dev := rfl
@[simp] theorem State.modTrace_tsc (s : State) (k : Nat) (f : _) : (s.modTrace k f).tsc = s.tsc := rfl
@[simp] theorem State.modTrace_mem (s : State) (k : Nat) (f : _) : (s.modTrace k f).mem = s.mem := rfl
@[simp] theorem State.modTrace_pending (s : State) (k : Nat) (f : _) : (s.modTrace k f).pending = s.pending := rfl
@[simp] theorem State.modTrace_img (s : State) (k : Nat) (f : _) : (s.modTrace k f).img = s.img := rfl
@[simp] theorem State.word_modTrace (s : State) (k : Nat) (f : _) (a : Nat) : (s.modTrace k f).word a = s.word a := rfl
@[simp] theorem State.get_modTrace (s : State) (k : Nat) (f : _) (g : Fld) : (s.modTrace k f).get g = s.get g := rfl
@[simp] theorem State.trace_setWord (s : State) (k a w : Nat) : (s.setWord a w).trace k = s.trace k := rfl
@[simp] theorem State.trace_set (s : State) (k : Nat) (f : Fld) (v : Nat) : (s.set f v).trace k = s.trace k := rfl
@[simp] theorem State.trace_at (s : State) (k : Nat) (t : Time) : (s.at t).trace k = s.trace k := rfl

@[simp] theorem State.ring_modRing (s : State) (k : Nat) (f : _) : (s.modRing k f).ring k = f (s.ring k) := tget_tput_same _ _ _ _
theorem State.ring_modRing_ne (s : State) {j k : Nat} (h : j ≠ k) (f : _) : (s.modRing k f).ring j = s.ring j := tget_tput_ne h _ _ _ _
@[simp] theorem State.modRing_regs (s : State) (k : Nat) (f : _) : (s.modRing k f).regs = s.regs := rfl
@[simp] theorem State.modRing_dev (s : State) (k : Nat) (f : _) : (s.modRing k f).dev = s.dev := rfl
@[simp] theorem State.modRing_tsc (s : State) (k : Nat) (f : _) : (s.modRing k f).tsc = s.tsc := rfl
@[simp] theorem State.modRing_mem (s : State) (k : Nat) (f : _) : (s.modRing k f).mem = s.mem := rfl
@[simp] theorem State.modRing_pending (s : State) (k : Nat) (f : _) : (s.modRing k f).pending = s.pending := rfl
@[simp] theorem State.modRing_img (s : State) (k : Nat) (f : _) : (s.modRing k f).img = s.img := rfl
@[simp] theorem State.word_modRing (s : State) (k : Nat) (f : _) (a : Nat) : (s.modRing k f).word a = s.word a := rfl
@[simp] theorem State.get_modRing (s : State) (k : Nat) (f : _) (g : Fld) : (s.modRing k f).get g = s.get g := rfl
@[simp] theorem State.ring_setWord (s : State) (k a w : Nat) : (s.setWord a w).ring k = s.ring k := rfl
@[simp] theorem State.ring_set (s : State) (k : Nat) (f : Fld) (v : Nat) : (s.set f v).ring k = s.ring k := rfl
@[simp] theorem State.ring_at (s : State) (k : Nat) (t : Time) : (s.at t).ring k = s.ring k := rfl

@[simp] theorem State.td_modTd (s : State) (k : Nat) (f : _) : (s.modTd k f).td k = f (s.td k) := tget_tput_same _ _ _ _
theorem State.td_modTd_ne (s : State) {j k : Nat} (h : j ≠ k) (f : _) : (s.modTd k f).td j = s.td j := tget_tput_ne h _ _ _ _
@[simp] theorem State.modTd_regs (s : State) (k : Nat) (f : _) : (s.modTd k f).regs = s.regs := rfl
@[simp] theorem State.modTd_dev (s : State) (k : Nat) (f : _) : (s.modTd k f).dev = s.dev := rfl
@[simp] theorem State.modTd_tsc (s : State) (k : Nat) (f : _) : (s.modTd k f).tsc = s.tsc := rfl
@[simp] theorem State.modTd_mem (s : State) (k : Nat) (f : _) : (s.modTd k f).mem = s.mem := rfl
@[simp] theorem State.modTd_pending (s : State) (k : Nat) (f : _) : (s.modTd k f).pending = s.pending := rfl
@[simp] theorem State.modTd_img (s : State) (k : Nat) (f : _) : (s.modTd k f).img = s.img := rfl
@[simp] theorem State.word_modTd (s : State) (k : Nat) (f : _) (a : Nat) : (s.modTd k f).word a = s.word a := rfl
@[simp] theorem State.get_modTd (s : State) (k : Nat) (f : _) (g : Fld) : (s.modTd k f).get g = s.get g := rfl
@[simp] theorem State.td_setWord (s : State) (k a w : Nat) : (s.setWord a w).td k = s.td k := rfl
@[simp] theorem State.td_set (s : State) (k : Nat) (f : Fld) (v : Nat) : (s.set f v).td k = s.td k := rfl
@[simp] theorem State.td_at (s : State) (k : Nat) (t : Time) : (s.at t).td k = s.td k := rfl

@[simp] theorem State.conn_modConn (s : State) (k : Nat) (f : _) : (s.modConn k f).conn k = f (s.conn k) := tget_tput_same _ _ _ _
theorem State.conn_modConn_ne (s : State) {j k : Nat} (h : j ≠ k) (f : _) : (s.modConn k f).conn j = s.conn j := tget_tput_ne h _ _ _ _
@[simp] theorem State.modConn_regs (s : State) (k : Nat) (f : _) : (s.modConn k f).regs = s.regs := rfl
@[simp] theorem State.modConn_dev (s : State) (k : Nat) (f : _) : (s.modConn k f).dev = s.dev := rfl
@[simp] theorem State.modConn_tsc (s : State) (k : Nat) (f : _) : (s.modConn k f).tsc = s.tsc := rfl
@[simp] theorem State.modConn_mem (s : State) (k : Nat) (f : _) : (s.modConn k f).mem = s.mem := rfl
@[simp] theorem State.modConn_pending (s : State) (k : Nat) (f : _) : (s.modConn k f).pending = s.pending := rfl
@[simp] theorem State.modConn_img (s : State) (k : Nat) (f : _) : (s.modConn k f).img = s.img := rfl
@[simp] theorem State.word_modConn (s : State) (k : Nat) (f : _) (a : Nat) : (s.modConn k f).word a = s.word a := rfl
@[simp] theorem State.get_modConn (s : State) (k : Nat) (f : _) (g : Fld) : (s.modConn k f).get g = s.get g := rfl
@[simp] theorem State.conn_setWord (s : State) (k a w : Nat) : (s.setWord a w).conn k = s.conn k := rfl
@[simp] theorem State.conn_set (s : State) (k : Nat) (f : Fld) (v : Nat) : (s.set f v).conn k = s.conn k := rfl
@[simp] theorem State.conn_at (s : State) (k : Nat) (t : Time) : (s.at t).conn k = s.conn k := rfl

end Sys2Proof.Machine
end

