-- ==== Sys2Proof/Laws/Ops.lean ====
section
/-! SUPPORT. What the shared operations do, said once: how a command reaches its effect, counted host writes, event records, writes to the
fabric memory. -/

namespace Sys2Proof.Machine

/-! ### How a command reaches its effect -/

/-- With the die powered a command at an instant has its effect on the state at that instant. -/
theorem live_ready {s : State} {t : Time} (h : s.Ready t) (f : State → State) : live t s f = .next (f (s.at t)) := by simp [live, h.1]

/-- Without power nothing happens (R440). -/
theorem live_off {s : State} (h : s.dev.powered = false) (t : Time) (f : State → State) : live t s f = .next s := by simp [live, h]

/-- A command that carries no instant, with the die powered. -/
theorem liveNow_on {s : State} (h : s.dev.powered = true) (f : State → State) : liveNow s f = .next (f s) := by simp [liveNow, h]

/-- A command that carries no instant, without power. -/
theorem liveNow_off {s : State} (h : s.dev.powered = false) (f : State → State) : liveNow s f = .next s := by simp [liveNow, h]

/-- A counted write adds 1 to SVC_WRITES and shows its source; every other register is kept (R403). -/
theorem countWrite_kept (s : State) (ip src a : Nat) (h : a ≠ Reg.SVC_WRITES ∧ a ≠ Reg.SVC_LAST_IP ∧ a ≠ Reg.SVC_LAST_SRC) : (s.countWrite ip src).word a = s.word a := by
  unfold State.countWrite State.addMod
  rw [State.word_setWord_ne h.2.2, State.word_setWord_ne h.2.1, State.word_set_ne _ _ _ _ h.1]

/-- A field outside the write counters reads the same after a counted write. -/
theorem get_countWrite (s : State) (ip src : Nat) (f : Fld) (h : f.addr ≠ Reg.SVC_WRITES ∧ f.addr ≠ Reg.SVC_LAST_IP ∧ f.addr ≠ Reg.SVC_LAST_SRC) : (s.countWrite ip src).get f = s.get f := by
  unfold State.get
  rw [countWrite_kept s ip src f.addr h]

/-- The role is no write counter. -/
theorem role_countWrite (s : State) (ip src : Nat) : (s.countWrite ip src).get Reg.DPX_STAT.ROLE = s.get Reg.DPX_STAT.ROLE :=
  get_countWrite s ip src _ (by decide)

/-- In a unit that is no part of a pair a host write is counted and has its effect at once (R306, R403). -/
theorem byHost_solo {s : State} {t : Time} (h : s.HostReady t) (a v : Nat) (f : State → State) :
    byHost t s a v f = .next (f ((s.at t).countWrite 0 0)) := by
  obtain ⟨⟨hp, _⟩, hr⟩ := h
  have h1 : ((s.at t).countWrite 0 0).get Reg.DPX_STAT.ROLE = 0 := by rw [role_countWrite]; exact hr
  have h2 : (s.at t).get Reg.DPX_STAT.ROLE = 0 := hr
  simp [byHost, live, hp, State.ignoresWrite, State.takeWrite, h1, h2]

/-! ### One register changes -/

/-- A register word lies within 32 bits. -/
theorem State.word_lt (s : State) (a : Nat) : s.word a < 2 ^ 32 := by
  unfold State.word
  exact BitVec.isLt _

/-- A word of 32 bits with a field of it written is a word of 32 bits. -/
theorem setBits_lt {w lo n v : Nat} (h : w < 2 ^ 32) (hn : lo + n ≤ 32) : setBits w lo n v < 2 ^ 32 := by
  apply Nat.lt_pow_two_of_testBit
  intro i hi
  have h2 : ¬ (lo ≤ i ∧ i < lo + n) := by omega
  rw [testBit_setBits, if_neg h2]
  exact Nat.testBit_lt_two_pow (Nat.lt_of_lt_of_le h (Nat.pow_le_pow_right (by decide) hi))

/-- `setWord` changes one register word and nothing else. -/
theorem setWord_writes {w : Nat} (hw : w < 2 ^ 32) (s : State) (a : Nat) : Writes a w s (s.setWord a w) := by
  refine ⟨rfl, ?_, fun x hx => State.word_setWord_ne hx ..⟩
  rw [State.word_setWord_same, Nat.mod_eq_of_lt hw]

/-- `set` changes one register field and nothing else. -/
theorem set_sets {f : Fld} (hf : f.lo + f.width ≤ 32) (s : State) (v : Nat) : Sets f v s (s.set f v) :=
  setWord_writes (setBits_lt (s.word_lt _) hf) s f.addr

/-! ### The fabric memory (R73, R412) -/

/-- The step of a write of several bytes. -/
theorem fabWrite_foldl_wf (l : List Nat) (m : List Host.Cell) (a : Nat) (h : Memory.wf 0 m = true) :
    Memory.wf 0 (l.foldl (fun (m : List Host.Cell × Nat) b =>
      (if fabWritable m.2 then mput 0 m.1 m.2 (BitVec.ofNat 8 b) else m.1, m.2 + 1)) (m, a)).1 = true := by
  induction l generalizing m a with
  | nil => exact h
  | cons b l ih =>
    simp only [List.foldl_cons]
    split
    · exact ih _ _ (mput_wf h a _)
    · exact ih _ _ h

/-- A write to the fabric memory keeps its canonical form. -/
theorem fabWrite_wf {s : State} (h : Memory.wf 0 s.mem = true) (a : Nat) (l : List Nat) : Memory.wf 0 (s.fabWrite a l).mem = true :=
  fabWrite_foldl_wf l s.mem a h

/-- A write of several bytes touches no byte outside them. -/
theorem fabWrite_foldl_ne (l : List Nat) (m : List Host.Cell) (a x : Nat) (h : x < a ∨ a + l.length ≤ x) :
    mget 0 (l.foldl (fun (m : List Host.Cell × Nat) b =>
      (if fabWritable m.2 then mput 0 m.1 m.2 (BitVec.ofNat 8 b) else m.1, m.2 + 1)) (m, a)).1 x = mget 0 m x := by
  induction l generalizing m a with
  | nil => rfl
  | cons b l ih =>
    simp only [List.foldl_cons, List.length_cons] at *
    rw [ih _ _ (by omega)]
    split
    · exact mget_mput_ne (by omega) _ _ _
    · rfl

/-- A write to the fabric memory touches no byte outside its own. -/
theorem fabWrite_ne {a x : Nat} {l : List Nat} (h : x < a ∨ a + l.length ≤ x) (s : State) :
    mget 0 (s.fabWrite a l).mem x = mget 0 s.mem x := fabWrite_foldl_ne l s.mem a x h

/-! ### Event records (R413) -/

/-- Without power no record is made. -/
theorem logAt_off {s : State} (h : s.dev.powered = false) (t src code d0 d1 : Nat) : s.logAt t src code d0 d1 = s := by
  simp [State.logAt, h]

/-- Iteration over the elements of a list, none of which changes what `P` says. -/
theorem forEach_ind {α : Type} {P : State → Prop} {f : State → α → State} (l : List α) (hf : ∀ s, ∀ x ∈ l, P s → P (f s x)) :
    ∀ s, P s → P (forEach l f s) := by
  induction l with
  | nil => intro s h; exact h
  | cons x l ih =>
    intro s h
    exact ih (fun s y hy => hf s y (List.mem_cons_of_mem _ hy)) _ (hf s x (by simp) h)

/-- Iteration over the indices below `n`, none of which changes what `P` says. -/
theorem forN_ind {P : State → Prop} {f : State → Nat → State} (n : Nat) (hf : ∀ s, ∀ i < n, P s → P (f s i)) :
    ∀ s, P s → P (forN n f s) := forEach_ind (List.range n) (fun s x hx => hf s x (by simpa using hx))

/-! ### The loop engine (R117–R138) -/

/-- The register set in use after it is replaced. -/
@[simp] theorem State.set'_putSet (s : State) (e : Nat) (x : LeSet) : (s.putSet e x).set' e = x := by
  simp only [State.putSet, State.set']
  by_cases h : (s.eng e).onExt <;> simp [h]

end Sys2Proof.Machine
end

