-- ==== Sys2Proof/Laws/Memory.lean ====
section
/-! SUPPORT. Every operation on the fabric memory and on the flash keeps their canonical form (R73, R369, R412, R415), and reset has it. -/

namespace Sys2Proof.Machine

/-- Both memories are in canonical form right after reset. -/
theorem reset_memory_wf : Memory.wf 0 State.reset.mem = true ∧ Memory.wf 0xFF State.reset.flash = true := ⟨rfl, rfl⟩

/-- Programming the flash keeps its canonical form. -/
theorem flashProgram_wf {s : State} (h : Memory.wf 0xFF s.flash = true) (a : Nat) (l : List Nat) :
    Memory.wf 0xFF (s.flashProgram a l).flash = true := mwrite_wf h a l

/-- Erasing the flash keeps its canonical form. -/
theorem flashErase_wf {s : State} (h : Memory.wf 0xFF s.flash = true) (a n : Nat) : Memory.wf 0xFF (s.flashErase a n).flash = true :=
  filter_wf h _

/-- Programming bytes of the flash touches no byte outside them. -/
theorem flashProgram_ne {a x : Nat} {l : List Nat} (h : x < a ∨ a + l.length ≤ x) (s : State) :
    mget 0xFF (s.flashProgram a l).flash x = mget 0xFF s.flash x := mget_mwrite_ne h _

/-- A register write touches neither memory. -/
theorem setWord_mem (s : State) (a w : Nat) : (s.setWord a w).mem = s.mem := rfl

theorem forEach_setWord_mem {α : Type} (l : List α) (a w : State → α → Nat) (s : State) :
    (forEach l (fun s e => s.setWord (a s e) (w s e)) s).mem = s.mem :=
  forEach_ind (P := fun x => x.mem = s.mem) (f := fun s e => s.setWord (a s e) (w s e)) l (fun _ _ _ h => h) s rfl

/-- Clearing what the image loads keeps the canonical form of the fabric memory. -/
theorem imageClear_wf {s : State} (h : Memory.wf 0 s.mem = true) : Memory.wf 0 s.imageClear.mem = true := by
  unfold State.imageClear
  refine filter_wf ?_ _
  rw [forEach_setWord_mem s.regs (fun _ e => e.1)
    (fun s e => e.2.toNat - Nat.land e.2.toNat (imgMask e.1)) s]
  exact h

/-- A record written to the ring keeps the canonical form of the fabric memory (R415). -/
theorem ringWrite_wf {s : State} (h : Memory.wf 0 s.mem = true) (r : EventRec) : Memory.wf 0 (s.ringWrite r).mem = true := by
  have hm : (s.ringWrite r).mem = if s.logst.dram then
      mwrite 0 s.mem (0xBFE00000 + 32 * (s.wptr % 65536)) (EventRec.bytes { r with early := r.early || !s.logst.dram } r.tsc.toNat)
      else s.mem := by
    unfold State.ringWrite
    dsimp only
    split <;> rfl
  rw [hm]
  split
  · exact mwrite_wf h _ _
  · exact h

end Sys2Proof.Machine
end

