-- ==== Sys2Proof/Machine/Wire.lean ====
section
/-! DEFINITION. The frames that a ring master sends (R191–R193, R200, R309): cycle-starts and polls, with their CRC. -/

namespace Sys2Proof.Machine

/-- A frame of a ring: its body and the CRC-32C over it (R191). -/
def ringFrame (body : List Nat) : List Nat := body ++ leBytes 4 (crc32c body)

/-- The cycle-start frame that ring `k` sends from SPk_A (`origin` 0) or SPk_B (1) in the present ring cycle (R192). -/
def State.cycleStartFrame (s : State) (k origin : Nat) : List Nat :=
  let c := (s.ring k).cur.getD default
  ringFrame (leBytes 8 c.cycle ++
    [k + 16 * origin + 32 * b2n c.both, s.get (Reg.RING_STAT.TBL_GEN k), s.get Reg.DPX_STAT.ROLE,
     b2n (c.cycle % 4 == 0) + 2 * b2n (c.cycle % 16 == 0) + 4 * b2n c.extend] ++
    leBytes 4 (s.get (Reg.RING_MUTE.MUTE k)) ++ [0, 0])

/-- The first four bytes of a poll (R191). -/
def pollHead (slot kind node cyc : Nat) : List Nat := [slot + 32 * kind, node] ++ leBytes 2 (cyc % 65536)

/-- Bytes 4–37 of the tap poll that the active sends on ring `k` (R309). -/
def State.tapPoll (s : State) (k : Nat) : List Nat :=
  let v := s.verdictBytes
  [s.role + 8 * b2n (!s.on Reg.DPX_STAT.LINK_LOST) + 16 * b2n s.dpx.hoSent, s.get Reg.DPX_STAT.PROMO] ++
  leBytes 2 (s.get (Reg.NODE_DELAY.DELAY k 24)) ++ leBytes 4 (s.spDigest k) ++ leBytes 4 (acceptMask (s.ring k).prev) ++
  leBytes 4 ((s.dpx.seq + 2 ^ 32 - 1) % 2 ^ 32) ++ [v.1, s.dpx.outcome.getD 0, v.2] ++ List.replicate 15 0

/-- A service poll of ring cycle `c` in slot `i` (R193, R195). -/
def Txn.poll (x : Txn) (i c : Nat) : List Nat :=
  pollHead i 2 x.node c ++ [x.op, x.tag % 256, x.hops, x.origin] ++ leBytes 4 x.addr ++ [x.len, 0] ++ x.dataAt c

/-- The poll frame that slot `i` of ring `k` carries in this ring cycle; none where the slot is idle on the wire (R193, R200). -/
def State.pollFrame (s : State) (k i : Nat) : Option (List Nat) :=
  match (s.ring k).cur with
  | none => none
  | some c =>
    let w := c.table.getD i 0
    let n := entNode w
    let frame := fun (l : List Nat) => some (ringFrame (l ++ List.replicate (38 - l.length) 0))
    match entKind w with
    | 1 => if c.expect.contains i then frame (pollHead i 1 n c.cycle ++ (s.axis (entAxis w)).block.bytes) else none
    | 2 => match if s.carriesTxn k i c then (s.ring k).txn else none with
      | some x => frame (x.poll i c.cycle)
      | none => none
    | 3 => frame (pollHead i 3 n c.cycle ++ [0, 0, 0, 0] ++ leBytes 8 0 ++ leBytes 2 (entType w))
    | 4 => if s.role = roleActive then frame (pollHead i 4 24 c.cycle ++ s.tapPoll k) else none
    | 5 =>
      let ser := match (s.ring k).offers.find? fun o => o.1 == i with
        | some o => o.2.1
        | none => 0
      frame (pollHead i 5 n c.cycle ++ [1, 0, 0, 0] ++ leBytes 8 ser ++ leBytes 2 (entType w))
    | _ => none

end Sys2Proof.Machine
end

