-- ==== Sys2Proof/WellFormed.lean ====
section
/-! DEFINITION. What the operands' types leave to be checked of a command: the lengths of records and lists of fixed size, parity of the
accumulator of a dual product, and lists that may not name one thing twice. -/

namespace Sys2Proof

/-- No element occurs twice. -/
def distinct {α : Type} [DecidableEq α] : List α → Bool
  | [] => true
  | x :: xs => !xs.contains x && distinct xs

/-- A command whose operands have the shape the table's row gives them. -/
def Instr.wellFormed : Instr → Bool
  -- R130: with DUAL = 1, AD is even.
  | .leMpy2 _ ad _ _ _ _ | .leMac2 _ ad _ _ _ _ | .leMsu2 _ ad _ _ _ _ => ad.val % 2 == 0
  -- R423: 16 sensors.
  | .governorSample _ temps _ => temps.length == 16
  -- R87: a requester holds one request to a target, of 1 to 256 declared beats.
  | .fabricGrant _ _ reqs => distinct (reqs.map (·.1)) && reqs.all fun r => r.2.val != 0
  -- R390: an element fails a step once.
  | .selftestStepEnd _ fails => distinct (fails.map (·.1))
  -- R405: a WRITE carries at least one word.
  | .spiWrite _ _ words => !words.isEmpty
  | _ => true

end Sys2Proof
end

