-- ==== Sys2Proof/Tests/Slice0.lean ====
section
/-! SUPPORT. The model's own tests: an ill-formed command for each check of WellFormed, for every statement a witness that meets the hypotheses of each of
its clauses, and small steps with results taken from the spec. -/

namespace Sys2Proof.Tests

open Sys2Proof.Machine

set_option Elab.async false
set_option synthInstance.maxSize 1024
set_option synthInstance.maxHeartbeats 200000

/-- The device right after reset, with power. -/
def up : State := { State.reset with dev := { State.reset.dev with powered := true } }

/-- A powered device whose image declares axis 0 in island 1 and axis 1 in island 2, a child of island 1; axis 5 is in no island. -/
def cell : State :=
  { up with img := { (default : Img) with
      axes := [0, 1, 5].map fun a => { (default : AxisDecl) with axis := a, scale := 0x3F800000 }
      islands := [{ (default : IslandDecl) with island := 1, members := [⟨false, 0⟩, ⟨true, 2⟩] },
        { (default : IslandDecl) with island := 2, members := [⟨false, 1⟩] }] } }

/-- A unit of a pair in a role, with both lanes up. -/
def inRole (r : Nat) : State := ((up.set Reg.DPX_STAT.ROLE r).set Reg.DPX_STAT.LANE0_UP 1).set Reg.DPX_STAT.LANE1_UP 1

/-- The device in a state of DEV_STATE, entered at instant 0. -/
def devIn (st : Nat) : State := cell.set Reg.DEV_STATE.STATE st

/-! ### Witnesses -/

theorem test_witness_NothingHappensWithoutPower :
    State.reset.dev.powered = false ∧ (Instr.imgBegin 0).ofChannelB = false ∧ (Instr.imgBegin 0).risesPgood = false := by decide

theorem test_witness_HostWritesAreCounted :
    (up.Ready 0 ∧ up.Ready 0xFFFFFFFFFFFFFFFF) ∧
    ((Instr.reload 3).hostWrite = some (3, Reg.DEV_CTRL, 4) ∧ Reg.DEV_CTRL < 0x1E0000 ∧ (inRole 2).Ready 3 ∧ (inRole 2).get Reg.DPX_STAT.ROLE = 2 ∧
     (inRole 3).Ready 3 ∧ (inRole 3).get Reg.DPX_STAT.ROLE = 3 ∧ (inRole 1).Ready 3 ∧ (inRole 1).get Reg.DPX_STAT.ROLE = 1 ∧ Reg.DEV_CTRL < 0x240040) ∧
    ((Instr.hqPush 3 31 32 true 0xFFFF).hostWrite = some (3, Reg.HQ_PUSH, 0xFFFF * 65536 + 32768 + 256 * 32 + 31) ∧ 0x200000 ≤ Reg.HQ_PUSH ∧
     0x240040 ≤ Reg.HQ_PUSH ∧ Reg.HQ_PUSH ≤ 0x240060) := by decide +kernel

theorem test_witness_EventRecordsCarryTheirEvent :
    ({ up with logst := { up.logst with dram := true } } : State).dev.powered = true ∧
    ({ up with logst := { up.logst with dram := true } } : State).logst.dram = true := by decide

theorem test_witness_PowerLossTakesTheTorque : up.Ready 5 := by decide

theorem test_witness_TorqueStaysOffWithoutPower : TorqueOff State.reset ∧
    (∀ c rest, ({ State.reset with pending := [.imgBegin 0] } : State).pending = c :: rest → c.risesPgood = false) ∧
    step { State.reset with pending := [.imgBegin 0] } = .next State.reset := by
  refine ⟨⟨by decide, by decide, by decide +kernel⟩, fun c rest h => ?_, rfl⟩
  cases h; rfl

theorem test_witness_StepTakesTheFrontCommand : State.reset.pending = [] := rfl

theorem test_witness_HostAndPinRequestsOfTheDevice : up.HostReady 0 := by decide +kernel

theorem test_witness_PowerUpWaitsForChannelB :
    (State.reset.dev.powered = false ∧ State.reset.chb.ready = false) ∧
    (let s : State := { up with dev := { up.dev with waitB := true } }; s.Ready 9 ∧ s.dev.waitB = true) ∧
    (State.reset.tsc.toNat ≤ (0 : Time).toNat ∧ State.reset.dev.waitB = false) ∧
    (let s := up.set Reg.DEV_STATE.STATE devLoad; s.Ready 9 ∧ s.devState = devLoad ∧ ((s.at 9).readCopies true true).2 = false) := by
  decide +kernel

theorem test_witness_BringUpAndStoppingEnd :
    (let s := (cell.set Reg.DEV_STATE.STATE devBringUp).set Reg.SAFE_STAT.A_STATE 2
     let s := { s with chb := { s.chb with ready := true, valid := true } }
     s.Ready 9 ∧ s.devState = devBringUp ∧ s.pairWaits = false ∧ s.ringsNotUp = [] ∧ s.channelsReady = true ∧ cell.devState ≠ devBringUp ∧
     s.get Reg.DPX_STAT.ROLE = 0 ∧ s.on Reg.DEV_STATE.SHDN_REQ = false ∧ ({ s with dev := { s.dev with reqUp := true } } : State).dev.reqUp = true) ∧
    (let s := (cell.set Reg.DEV_STATE.STATE devBringUp).set (Reg.RING_CFG.EN 3) 1
     s.Ready 1000000000 ∧ s.devState = devBringUp ∧ s.pairWaits = false ∧ s.ringsNotUp ≠ [] ∧ s.dev.enteredAt + 1000000000 ≤ (1000000000 : Time).toNat ∧
     (999999999 : Time).toNat < s.dev.enteredAt + 1000000000 ∧ s.dev.enteredAt + 1000000000 ≤ (s.at 1000000000).now ∧
     ({ s.at 1000000000 with dev := { s.dev with reqLate := true } } : State).dev.reqLate = true ∧ s.on Reg.DEV_STATE.SHDN_REQ = false ∧
     s.get Reg.DPX_STAT.ROLE = 0) ∧
    (let s := cell.set Reg.DEV_STATE.STATE devStopping
     s.Ready 9 ∧ s.devState = devStopping ∧ s.allOff = true ∧ s.on Reg.DEV_STATE.OFF_READY = false ∧ s.get Reg.DPX_STAT.ROLE = 0 ∧
     ({ s with dev := { s.dev with reqStopped := true } } : State).dev.reqStopped = true ∧ (s.set (Reg.AX_STATE.STATE 5) axEnabled).allOff = false ∧
     ({ s with dev := { s.dev with stopCause := .reload } } : State).dev.stopCause = .reload ∧
     ({ s with dev := { s.dev with stopCause := .shdn } } : State).dev.stopCause = .shdn ∧ s.on Reg.DEV_STATE.SHDN_REQ = false ∧
     (s.set Reg.DEV_STATE.SHDN_REQ 1).on Reg.DEV_STATE.SHDN_REQ = true ∧ s.lcTests = true ∧
     ({ s with nvm := { s.nvm with lifecycle := lcManufacture } } : State).lcTests = false) := by decide +kernel

theorem test_witness_RingCyclesFollowEachOther :
    (let s : State := { up with dev := { up.dev with timer := true, nextCycle := 15625 } }
     s.dev.powered = true ∧ s.dev.timer = true ∧ s.now ≤ s.dev.nextCycle ∧ s.dev.nextCycle < 2 ^ 64) ∧
    (up.dev.powered = true ∧ up.dev.timer = false ∧ up.now ≤ up.dev.nextCycle ∧ up.dev.nextCycle < 2 ^ 64) ∧
    (let s : State := { up.set Reg.DEV_STATE.STATE devUnconfigured with dev := { up.dev with reqReload := true } }
     s.dev.powered = true ∧ s.dev.timer = false ∧ s.get Reg.DPX_STAT.ROLE = 0 ∧ s.devState = devUnconfigured ∧
     s.on Reg.DEV_STATE.SHDN_REQ = false ∧ s.dev.reqReload = true) := by decide +kernel

theorem test_witness_LineCommands :
    up.HostReady 0 ∧
    (let s := (up.set (Reg.LINE_CFG.SOURCE 7) 2).set (Reg.LINE_STAT.SRC_LOST 7) 1
     s.HostReady 3 ∧ s.on (Reg.LINE_STAT.SRC_LOST 7) = true ∧ (s.written 3).lineHealthy 7 = true ∧ s.lineSource 7 ≠ 0) ∧
    (up.on (Reg.LINE_STAT.SRC_LOST 0) = false ∧ up.lineSource 0 = 0) ∧
    ((up.set (Reg.LINE_CFG.SOURCE 7) 1).modEnc 0 fun x => x).lineSource 7 ≠ 0 ∧
    (((up.set (Reg.LINE_CFG.SOURCE 7) 1).set (Reg.ENC_STAT.FAULT 0) 1).written 3).lineHealthy 7 = false := by decide +kernel

theorem test_witness_ActionsAreArmedAndCancelled :
    (let s := (up.setWord Reg.ACT_SPEC (0x100 * 511)).set (Reg.LINE_CFG.SOURCE 0) 1
     s.HostReady 3 ∧ s.badSpec (bits (s.word Reg.ACT_SPEC) 0 3) (bits (s.word Reg.ACT_SPEC) 8 10) (bits (s.word Reg.ACT_SPEC) 4 3) = false ∧
     s.act? 0 = none ∧ ∀ m < 0, (s.act? m).isSome = true) ∧
    (let s := up.setWord Reg.ACT_SPEC (0x100 * 512)
     s.HostReady 3 ∧ s.badSpec (bits (s.word Reg.ACT_SPEC) 0 3) (bits (s.word Reg.ACT_SPEC) 8 10) (bits (s.word Reg.ACT_SPEC) 4 3) = true) ∧
    (let s : State := { (up.set (Reg.LINE_CFG.SOURCE 0) 1) with acts := [(0, some default)] }
     let a : ActSpec := { trig := 7, tol := 0, spec := 5 + 256 * 15 }
     s.HostReady 3 ∧ s.badSpec (bits a.spec.toNat 0 3) (bits a.spec.toNat 8 10) (bits a.spec.toNat 4 3) = false ∧ s.act? 1 = none ∧
     (∀ m < 1, (s.act? m).isSome = true) ∧ s.act? 0 = some default ∧ (∀ i, (default : Act).stage = .at i → (3 : Time).toNat < i)) ∧
    (let x : Act := { (default : Act) with stage := .at 3 }
     let s : State := { up with acts := [(1023, some x)] }
     let a : ActSpec := { trig := 7, tol := 0, spec := 5 + 256 * 15 + 16 }
     s.HostReady 3 ∧ s.act? 1023 = some x ∧ x.stage = .at 3 ∧ 3 ≤ (3 : Time).toNat ∧ (2 : Time).toNat < 3 ∧
     s.badSpec (bits a.spec.toNat 0 3) (bits a.spec.toNat 8 10) (bits a.spec.toNat 4 3) = true) ∧
    up.act? 1023 = none := by
  refine ⟨by decide +kernel, by decide +kernel, ⟨by decide +kernel, by decide +kernel, by decide +kernel, by decide +kernel, by decide +kernel, ?_⟩,
    by decide +kernel, by decide +kernel⟩
  intro i h; cases h

/-- A pool of actions in which every index is taken. -/
def fullPool : State := { (up.set (Reg.LINE_CFG.SOURCE 0) 1) with acts := (List.range' 0 1024).map fun n => (n, some default) }

theorem tget?_range' {α : Type} (v : α) (n : Nat) : ∀ lo m, lo ≤ m → m < lo + n → tget? m ((List.range' lo n).map fun i => (i, v)) = some v := by
  induction n with
  | zero => intro lo m h1 h2; omega
  | succ n ih =>
    intro lo m h1 h2
    by_cases h : lo = m
    · simp [List.range'_succ, tget?, h]
    · simp only [List.range'_succ, List.map_cons, tget?, h, if_false]
      exact ih (lo + 1) m (by omega) (by omega)

theorem test_witness_ActionsAreArmedAndCancelled_poolFull :
    fullPool.HostReady 3 ∧ fullPool.badSpec (bits (fullPool.word Reg.ACT_SPEC) 0 3) (bits (fullPool.word Reg.ACT_SPEC) 8 10) (bits (fullPool.word Reg.ACT_SPEC) 4 3) = false ∧
    (let a : ActSpec := { trig := 7, tol := 0, spec := 5 + 256 * 15 }
     fullPool.badSpec (bits a.spec.toNat 0 3) (bits a.spec.toNat 8 10) (bits a.spec.toNat 4 3) = false) ∧
    ∀ m < 1024, (fullPool.act? m).isSome = true := by
  refine ⟨by decide +kernel, by decide +kernel, by decide +kernel, fun m h => ?_⟩
  have h2 := tget?_range' (some (default : Act)) 1024 0 m (by omega) (by omega)
  simp only [State.act?, tget, fullPool]
  rw [h2]; rfl

/-- One action of a kind is due on line axis 7 at instant 5. -/
def dueAct (kind target : Nat) : State :=
  { up with acts := [(1023, some { (default : Act) with line := 7, kind := kind, target := target, stage := .at 5 })] }

theorem test_witness_DueActionsExecute :
    (up.Ready 0 ∧ (up.at 0).dueActs = [] ∧ ∀ k < 8, (dueAct k 15).Ready 5 ∧ firstDue ((dueAct k 15).at 5).dueActs = some (5, 7, 1023) ∧
      ((dueAct k 15).act? 1023).map (·.kind) = some k) ∧
    (let s := ((dueAct 0 511).set (Reg.ISL_STATE.FLOW 511) flGated).modFlow 511 fun f => { f with gateAt := some 4 }
     s.Ready 5 ∧ firstDue (s.at 5).dueActs = some (5, 7, 1023) ∧ s.flowState 511 = flGated ∧ (s.flow 511).gateAt.isSome = true) ∧
    (let x : Act := { (default : Act) with kind := 0, target := 511, stage := .at 5 }
     let s : State := { up.set (Reg.ISL_STATE.FLOW 511) flGated with acts := [(1023, some x)] }
     s.Ready 5 ∧ firstDue (s.at 5).dueActs = some (5, 0, 1023) ∧ s.act? 1023 = some x ∧ x.kind = 0 ∧ s.flowState x.target = flGated ∧
     (s.flow x.target).gateAt = none) ∧
    (let x : Act := { (default : Act) with kind := 5, stage := .at 5 }
     let s : State := { up with acts := [(0, some x)] }
     s.Ready 5 ∧ firstDue (s.at 5).dueActs = some (5, 0, 0) ∧ s.act? 0 = some x ∧ 5 ≤ x.kind ∧ s.flowState 0 ≠ flGated) := by decide +kernel

theorem test_witness_IslandRequestsWaitForTheBoundary : cell.HostReady 0 ∧ cell.img.subtree 1 = [1, 2] ∧ cell.img.ancestors 2 = [1] := by
  decide +kernel

theorem test_witness_GeneratorsGoAndStop :
    (up.HostReady 0 ∧ (up.written 0).pgAllowed 255 = false ∧ up.on (Reg.PG_STAT.ACTIVE 255) = false ∧ (up.pg 255).go = none) ∧
    (let s := cell.set (Reg.AX_STATE.STATE 5) axEnabled
     s.HostReady 0 ∧ (s.written 0).pgAllowed 5 = true ∧ s.on (Reg.AX_SOFT_CFG.EN 5) = false) ∧
    (let s := ((cell.set (Reg.AX_STATE.STATE 5) axEnabled).set (Reg.AX_SOFT_CFG.EN 5) 1).setWord (Reg.PG_TARGET_LO 5 + 4) 0x3FF00000
     s.HostReady 0 ∧ (s.written 0).pgAllowed 5 = true ∧
     s.on (Reg.AX_SOFT_CFG.EN 5) = true ∧ s.unitsOf 5 (s.int64 (Reg.AX_SOFT_LO_LO 5)) ≤ s.unitsOf 5 (s.int64 (Reg.AX_SOFT_HI_LO 5)) ∧
     s.unitsOf 5 (s.int64 (Reg.AX_SOFT_HI_LO 5)) < f64 (s.word64 (Reg.PG_TARGET_LO 5))) ∧
    (let s := ((cell.set (Reg.AX_STATE.STATE 5) axEnabled).set (Reg.AX_SOFT_CFG.EN 5) 1).setWord (Reg.PG_TARGET_LO 5 + 4) 0xBFF00000
     s.HostReady 0 ∧ (s.written 0).pgAllowed 5 = true ∧ s.on (Reg.AX_SOFT_CFG.EN 5) = true ∧
     f64 (s.word64 (Reg.PG_TARGET_LO 5)) < s.unitsOf 5 (s.int64 (Reg.AX_SOFT_LO_LO 5))) ∧
    (let s := (cell.set (Reg.AX_STATE.STATE 5) axEnabled).set (Reg.AX_SOFT_CFG.EN 5) 1
     s.HostReady 0 ∧ (s.written 0).pgAllowed 5 = true ∧ s.on (Reg.AX_SOFT_CFG.EN 5) = true ∧
     s.unitsOf 5 (s.int64 (Reg.AX_SOFT_LO_LO 5)) ≤ f64 (s.word64 (Reg.PG_TARGET_LO 5)) ∧
     f64 (s.word64 (Reg.PG_TARGET_LO 5)) ≤ s.unitsOf 5 (s.int64 (Reg.AX_SOFT_HI_LO 5))) ∧
    ((up.modPg 255 fun p => { p with go := some (0, 0, 0) }).pg 255).go.isSome = true ∧
    (up.set (Reg.PG_STAT.ACTIVE 255) 1).on (Reg.PG_STAT.ACTIVE 255) = true := by decide +kernel

theorem test_witness_ItemsAreAdmittedAndFed :
    (let s := up; let b : List Byte := List.replicate 64 0
     s.Ready 9 ∧ s.freeEntries ≠ [] ∧ b.length = 64 ∧ s.flowRoom (parseDesc (natBytes b)).island = true ∧ s.submitted = [] ∧ s.nextSubmit = none) ∧
    (let s : State := { up with submitted := [(some 1023, List.replicate 64 0)], items := [(1023, some { (default : Item) with stage := .suspended 15 })] }
     s.Ready 9 ∧ s.nextSubmit = some (0, some 1023, List.replicate 64 0)) ∧
    (let p : ProgDecl := { (default : ProgDecl) with flow := 575, slots := [0, 0, 0, 0] }
     let s : State := { up with img := { up.img with programs := [p] }, trigs := [(575, 1)] }
     s.Ready 9 ∧ s.freeEntries ≠ [] ∧ s.img.program? (512 + 63) = some p ∧ tget 0 s.trigs (512 + 63) ≠ 0 ∧ s.flowRoom (512 + 63) = true) ∧
    (let w : QWord := ⟨List.replicate 32 0, 32, false, 0, 0⟩
     let s := ((up.at 9).set (Reg.Q_CFG.MODE 31) 1).modQueue 31 fun x => { x with words := [w, { w with last := true }] }
     s.freeEntries ≠ [] ∧ s.get (Reg.Q_CFG.MODE 31) = 1 ∧ s.headRecord 31 = some [w, { w with last := true }] ∧
     s.flowRoom (parseDesc ([w, { w with last := true }].flatMap fun w => w.bytes)).island = true) ∧
    (let w : QWord := ⟨List.replicate 32 0, 32, true, 0, 0⟩
     let p : ProgDecl := { (default : ProgDecl) with flow := 512, trigger := 1 }
     let s0 : State := { up.at 9 with img := { up.img with programs := [p] } }
     let s := (s0.set (Reg.Q_CFG.MODE 0) 2).modQueue 0 fun x => { x with words := [w] }
     s.freeEntries ≠ [] ∧ s.get (Reg.Q_CFG.MODE 0) = 2 ∧ s.headRecord 0 = some [w] ∧ s.img.queueFlow? 0 = some p ∧ s.flowRoom p.flow = true) ∧
    (let w : QWord := ⟨List.replicate 32 0, 32, true, 0, 0⟩
     let x : Item := { (default : Item) with slots := [(3, { (default : OpSlot) with kind := 1, queue := 31 })] }
     let s0 : State := { up.at 9 with items := [(1023, some x)] }
     let s := s0.modQueue 31 fun x => { x with words := [w] }
     s.Ready 9 ∧ s.headOperand 31 = some w ∧ least (fun p => p.2.serial) (s.itemList.filter fun p =>
       p.2.slots.any fun p => p.2.kind == 1 && p.2.queue == 31 && p.2.word.isNone) = some (1023, x)) ∧
    (let x : Item := { (default : Item) with slots := [(3, { (default : OpSlot) with kind := 5 })] }
     let s : State := { up with items := [(1023, some x)] }
     s.HostReady 9 ∧ s.item? 1023 = some x ∧ s.placeCode 1023 3 5 = 0 ∧ s.placeCode 1023 2 5 ≠ 0) := by decide +kernel

/-- A store in which every entry is taken. -/
def fullStore : State := { up with items := (List.range' 0 1024).map fun n => (n, some default) }

theorem test_witness_ItemsAreAdmittedAndFed_storeFull : fullStore.Ready 9 ∧ fullStore.freeEntries = [] := by
  refine ⟨by decide +kernel, ?_⟩
  simp only [State.freeEntries, List.filter_eq_nil_iff, List.mem_range]
  intro e h
  have h2 := tget?_range' (some (default : Item)) 1024 0 e (by omega) (by omega)
  simp only [State.item?, tget, fullStore]
  rw [h2]; simp

/-- Entry 0 of it runs on core 15, whose program submits a descriptor. -/
def fullRunning : State :=
  { up with items := (0, some { (default : Item) with stage := .running 15 }) :: (List.range' 1 1023).map fun n => (n, some default) }

theorem test_witness_ItemsAreAdmittedAndFed_submission : fullRunning.Ready 9 ∧ fullRunning.freeEntries = [] ∧ (List.replicate 64 (0 : Byte)).length = 64 ∧
    fullRunning.item? (fullRunning.get (Reg.CORE_STAT.ENTRY 15)) = some { (default : Item) with stage := .running 15 } ∧ fullRunning.submitted = [] := by
  refine ⟨by decide +kernel, ?_, by decide, by decide +kernel, rfl⟩
  simp only [State.freeEntries, List.filter_eq_nil_iff, List.mem_range]
  intro e h
  rcases Nat.eq_zero_or_pos e with h0 | h0
  · subst h0; decide +kernel
  · have h2 := tget?_range' (some (default : Item)) 1023 1 e (by omega) (by omega)
    have h3 : ¬ 0 = e := by omega
    simp only [State.item?, tget, fullRunning, tget?, h3, if_false]
    rw [h2]; simp

/-- Every core runs an item of class 3; entry 0 is that of core 0, entry 1023 is ready in class 0. -/
def busyCores : State :=
  forN 16 (fun s c => (s.set (Reg.CORE_STAT.STATE c) 1).set (Reg.CORE_STAT.CLASS c) 3)
    { up with items := [(0, some { (default : Item) with cls := 3, stage := .running 0 }), (1023, some { (default : Item) with flow := 513, cls := 0, stage := .ready })] }

theorem test_witness_ItemsRunAndEnd :
    (up.Ready 9 ∧ firstCand (up.at 9).readyCands = none) ∧
    (let x : Item := { (default : Item) with cls := 2, stage := .ready }
     let s : State := { up with items := [(1023, some x)] }
     s.Ready 9 ∧ firstCand (s.at 9).readyCands = some (2, 0, .entry 1023) ∧ (s.at 9).coreFor (.entry 1023) = some 0 ∧ x.stage = .ready ∧ s.item? 1023 = some x) ∧
    (let x : Item := { (default : Item) with stage := .running 15 }
     let s0 : State := { up with items := [(1022, some x)] }
     let s := ((s0.set (Reg.CORE_STAT.STATE 15) 1).set (Reg.CORE_STAT.ENTRY 15) 1022).set Reg.SCHED_CFG.ITEM_MAX 1
     s.Ready 10000 ∧ s.get (Reg.CORE_STAT.STATE 15) = 1 ∧ s.get (Reg.CORE_STAT.ENTRY 15) ≠ counterEntry ∧
     s.item? (s.get (Reg.CORE_STAT.ENTRY 15)) = some x ∧ x.stage = .running 15 ∧ x.timedOut = none ∧
     s.get Reg.SCHED_CFG.ITEM_MAX * 10000 ≤ x.ran + ((10000 : Time).toNat - x.since) ∧
     x.ran + ((9999 : Time).toNat - x.since) < s.get Reg.SCHED_CFG.ITEM_MAX * 10000) ∧
    (up.get (Reg.CORE_STAT.STATE 0) ≠ 1) ∧
    (let s := up.modDc 63 fun x => { x with ready := true, core := none }
     s.Ready 9 ∧ firstCand (s.at 9).readyCands = some (0, 0, .counter 63) ∧ (s.at 9).coreFor (.counter 63) = some 0) ∧
    up.item? counterEntry = none := by decide +kernel

theorem test_witness_ItemsRunAndEnd_more :
    (busyCores.Ready 9 ∧ firstCand (busyCores.at 9).readyCands = some (0, 0, .entry 1023) ∧ (busyCores.at 9).coreFor (.entry 1023) = none ∧
     (List.range 16).any (busyCores.at 9).coreIdle = false ∧ ((busyCores.at 9).victim 0 none).map (·.1) = some 0 ∧
     (busyCores.item? 0).map (·.stage) = some (.running 0) ∧ (busyCores.item? 1023).map (fun x => (x.stage, x.timedOut)) = some (.ready, none)) ∧
    (let s := up.set (Reg.CORE_STAT.STATE 15) 1
     s.Ready 9 ∧ s.get (Reg.CORE_STAT.STATE 15) = 1 ∧ (s.set (Reg.CORE_STAT.ENTRY 15) counterEntry).get (Reg.CORE_STAT.ENTRY 15) = counterEntry ∧
     s.item? counterEntry = none) ∧
    (let x : Item := { (default : Item) with flow := 575, stage := .running 15, timedOut := some 0 }
     let s0 : State := { up with items := [(1022, some x)] }
     let s := ((s0.set (Reg.CORE_STAT.STATE 15) 1).set (Reg.CORE_STAT.ENTRY 15) 1022).set Reg.SCHED_CFG.ITEM_MAX 1
     s.Ready 10000 ∧ s.item? (s.get (Reg.CORE_STAT.ENTRY 15)) = some x ∧ x.timedOut.isSome = true ∧ 512 ≤ x.flow ∧
     s.get Reg.SCHED_CFG.ITEM_MAX * 10000 ≤ x.ran + ((10000 : Time).toNat - x.since)) := by decide +kernel

/-- Item 1023 is ready and no core may be pre-empted for it: every core is isolated. -/
def noCore : State := forN 16 (fun s c => s.set (Reg.CORE_STAT.ISOLATED c) 1) { up with items := [(1023, some { (default : Item) with cls := 2, stage := .ready })] }

theorem test_witness_ItemsRunAndEnd_noCore : noCore.Ready 9 ∧ firstCand (noCore.at 9).readyCands = some (2, 0, .entry 1023) ∧
    (noCore.at 9).coreFor (.entry 1023) = none ∧ ∀ no, (noCore.at 9).victim 2 no = none := by
  refine ⟨by decide +kernel, by decide +kernel, by decide +kernel, fun no => ?_⟩
  have h : ((noCore.at 9).itemList.filter fun p => match p.2.stage with
        | .running c => decide (2 < (noCore.at 9).get (Reg.CORE_STAT.CLASS c)) && no != some c
        | _ => false) = [] := by
    have : (noCore.at 9).itemList = [(1023, { (default : Item) with cls := 2, stage := .ready })] := by decide +kernel
    rw [this]; rfl
  simp only [State.victim, h]; rfl

theorem test_witness_FabricGrantsAndIsolates :
    (let reqs : List (Fin 64 × Fin 257) := [(53, 0)]
     up.Ready 9 ∧ ((up.at 9).rollQuota 32).fabricOrder 32 (reqs.map fun e => e.1.val) = [53]) ∧
    ((up.at 9).rollQuota 32).on (Reg.FAB_TGT_STAT.HIGH_MASKED 32) = false ∧
    (let s := (up.set (Reg.FAB_TGT_STAT.OWNED 0) 1).set (Reg.FAB_TGT_STAT.OWNER 0) 53
     s.on (Reg.FAB_TGT_STAT.OWNED 0) = true) ∧
    (let s := (up.set (Reg.FAB_TGT_STAT.OWNED 0) 1).set (Reg.FAB_TGT_STAT.OWNER 0) 53
     (s.tgt 0).since + 20000 ≤ (20000 : Time).toNat) ∧
    (let s := (up.set (Reg.FAB_TGT_STAT.OWNED 0) 1).set (Reg.FAB_TGT_STAT.OWNER 0) 53
     52 < s.get (Reg.FAB_TGT_STAT.OWNER 0)) ∧
    (let s := (up.set (Reg.FAB_TGT_STAT.OWNED 0) 1).set (Reg.FAB_TGT_STAT.OWNER 0) 53
     (19999 : Time).toNat < (s.tgt 0).since + 20000) ∧
    up.get Reg.DPX_STAT.ROLE = 0 := by decide +kernel

theorem test_witness_FabricGrantsAndIsolates_all : ∀ e ∈ ([] : List (Fin 64 × Fin 257)), up.isolated e.1.val = true := by
  intro e he; cases he

theorem test_witness_LawUnitTakesHostCommands :
    (let s := (up.set (Reg.LAW_AXIS.VALID 15 0) 1).set (Reg.LE_STAT.SHED 15) 1
     s.HostReady 9 ∧ (s.coefQueue 15).length < 32 ∧ (s.slotAxis? 15 (s.get (Reg.LAW_COEF_SEL.SLOT 15))).isSome = true ∧
     s.slotAxis? 15 31 = none ∧ s.on (Reg.LE_STAT.SHED 15) = true ∧ tget (0, 0) s.raised (Reg.LAW_STAT.LIVE_WRITE 15 23).place = (0, 0) ∧
     (s.set (Reg.LAW_COEF_SEL.SLOT 15) 31).slotAxis? 15 ((s.set (Reg.LAW_COEF_SEL.SLOT 15) 31).get (Reg.LAW_COEF_SEL.SLOT 15)) = none) ∧
    (let s : State := { up with coefQ := [(0, List.replicate 32 default)] }
     s.HostReady 9 ∧ 32 ≤ (s.coefQueue 0).length ∧ s.on (Reg.LE_STAT.SHED 0) = false) := by decide +kernel

theorem test_witness_LawTasksStartAndDownlinksAreSent :
    (let s := ((up.set (Reg.TASK_ENTRY.VALID 15 31) 1).set (Reg.TASK_SLOTS.SLOTS 15 31) 1).modEng 15 fun x => { x with arrived := [(0, 7)] }
     s.Ready 9 ∧ (s.eng 15).main.task = none ∧ (s.at 9).nextMain 15 = some (31, 7) ∧ ∀ sl ∈ onesBelow 24 (s.get (Reg.TASK_SLOTS.SLOTS 15 31)),
       s.slotAxis? 15 sl = none) ∧
    (up.Ready 9 ∧ (up.at 9).nextMain 0 = none) ∧
    (let s := up.modEng 0 fun x => { x with extReady := [16] }
     s.Ready 9 ∧ (s.eng 0).extReady = [16] ∧ (s.eng 0).main.task = none ∧ (s.at 9).nextMain 0 = none ∧ (s.eng 0).ext.task = none ∧ (s.eng 0).shed = false) ∧
    (up.modEng 0 fun x => { x with shed := true }).Ready 9 ∧ ((up.modEng 0 fun x => { x with shed := true }).eng 0).shed = true ∧
    up.slotAxis? 15 23 = none ∧
    (let s0 : State := { (up.set (Reg.LAW_AXIS.VALID 15 23) 1).set (Reg.AX_CFG.SLOT 0) 31 with dev := { up.dev with begun := true, cycle := 7 } }
     let s := s0.modSlot 15 23 fun x => { x with sent := some (1, 2, 3) }
     let st := s.set (Reg.AX_CFG.KIND 0) 1
     s.Ready 14840 ∧ s.slotAxis? 15 23 = some 0 ∧ (s.at 14840).deadlineNow 15 23 0 = true ∧ (s.slot 15 23).sent = some (1, 2, 3) ∧ s.get (Reg.AX_CFG.KIND 0) ≠ 1 ∧
     (14839 : Time).toNat < s.deadlineAt 0 ∧ (up.set (Reg.LAW_AXIS.VALID 15 23) 1).dev.begun = false ∧
     (st.at 14840).deadlineNow 15 23 0 = true ∧ st.get (Reg.AX_CFG.KIND 0) = 1 ∧ (sx 24 3).natAbs ≤ 0x400000 ∧ (sx 24 0xC00000).natAbs ≤ 0x400000 ∧
     (s0.at 14840).deadlineNow 15 23 0 = true ∧ (s0.slot 15 23).sent = none ∧ s0.get (Reg.LAW_STAT.CONSEC 15 23) = 0) := by decide +kernel

theorem test_witness_TraceCommands :
    (up.HostReady 9 ∧ (up.trace 15).pending = [] ∧ traceBad 0 = true ∧ traceBad 8192 = false ∧ up.get (Reg.TR_STAT.STATE 15) = trIdle) ∧
    (let s := up.set (Reg.TR_STAT.STATE 15) trArmed
     s.get (Reg.TR_STAT.STATE 15) ≠ trIdle ∧ s.get (Reg.TR_STAT.STATE 15) ≠ trDone) := by decide +kernel

/-- An engine instruction can run: the die has power and the next instruction lies in program memory. -/
abbrev canRun (s : State) (e : Nat) : Prop :=
  s.dev.powered = true ∧ (loopEnd (s.set' e).pc (s.set' e).loops (s.set' e).rrb).2.1 ≤ 0x3FFF

/-- Engine 15 stands at the last address from which an instruction can follow in sequence. -/
def atEnd : State := up.modEng 15 fun x => { x with main := { x.main with pc := 0x3FFE } }

theorem test_witness_RegisterArithmetic : canRun up 0 ∧ canRun atEnd 15 := by decide +kernel
theorem test_witness_RegisterLogicShiftsAndMoves : canRun up 0 ∧ canRun atEnd 15 := by decide +kernel
theorem test_witness_AccumulatorArithmetic : canRun up 0 ∧ (0 : BitVec 9).toInt = 0 ∧ (0x1FF : BitVec 9).toInt < 0 ∧ sx 7 0x40 < 0 := by decide +kernel
theorem test_witness_AccumulatorsAreReadAndNormalised : canRun up 0 ∧ canRun atEnd 15 := by decide +kernel
theorem test_witness_FunctionsKeepTheirBounds :
    (canRun up 0 ∧ (30 : Fin 32).val % 2 = 0) ∧
    (let s := up.modEng 0 fun x => { x with main := x.main.putA 7 (2 ^ 45 + 1) }
     canRun s 0 ∧ (2 : Int) ^ 45 < (s.set' 0).sA 7 ∧ (s.set' 0).sA 0 ≤ 2 ^ 45) ∧
    (let s := up.modEng 0 fun x => { x with main := x.main.putD 31 (2 ^ 22 + 1) }
     canRun s 0 ∧ 2 ^ 22 < ((s.set' 0).sD 31).natAbs ∧ ((s.set' 0).sD 0).natAbs ≤ 2 ^ 22) := by decide +kernel
theorem test_witness_PointersAndSpecialRegisters :
    canRun up 0 ∧ up.spGet 0 (up.set' 0) 24 = some 0 ∧ (up.spGet 0 (up.set' 0) 28).isSome = true ∧ (7 : Fin 32).val < 8 ∧ 8 ≤ (15 : Fin 32).val ∧ (15 : Fin 32).val < 16 ∧
    16 ≤ (23 : Fin 32).val ∧ (23 : Fin 32).val < 24 ∧ (24 : Fin 32).val = 24 ∧ (25 : Fin 32).val = 25 ∧ (26 : Fin 32).val = 26 ∧ (up.set' 0).loops = [] ∧
    (27 : Fin 32).val = 27 ∧ (28 : Fin 32).val = 28 ∧ 29 ≤ (31 : Fin 32).val := by decide +kernel
theorem test_witness_LoadsReadTheDataSpace :
    (canRun up 0 ∧ (up.set' 0).ea 0 0 5 = (5, 0) ∧ up.leLoad 0 5 = some 0) ∧
    (let s := up.modEng 0 fun x => { x with main := x.main.putP 7 0x3FFFF }
     s.dev.powered = true ∧ (s.set' 0).ea 7 0 0 = (0x3FFFF, 0x3FFFF) ∧ s.leLoad 0 0x3FFFF = none) := by decide +kernel
theorem test_witness_StoresWriteOneWord :
    (canRun up 0 ∧ (up.set' 0).ea 0 0 5 = (5, 0) ∧ storeFault 5 = 0) ∧
    (let s := up.modEng 0 fun x => { x with main := x.main.putP 7 0x3FFFF }
     canRun s 0 ∧ (s.set' 0).ea 7 0 0 = (0x3FFFF, 0x3FFFF) ∧ storeFault 0x3FFFF ≠ 0) := by decide +kernel
theorem test_witness_ProductsAccumulate :
    (canRun up 0 ∧ (6 : Fin 8).val % 2 = 0 ∧ (7 : Fin 8).val % 2 = 1) ∧ (up.set' 0).ea 7 3 0 = (0, (((up.set' 0).ea 7 3 0).2)) ∧ up.leLoad 0 0 = some 0 ∧
    up.leMove? 0 (up.set' 0) none = some (up.set' 0, none) ∧
    (let m : PMove := { d := 31, p := 7, u := true }
     let s := up.modEng 0 fun x => { x with main := x.main.putP 7 0x3FFFF }
     (up.leMove? 0 (up.set' 0) (some m)).isSome = true ∧ (up.leMove? 0 (((up.leMove? 0 (up.set' 0) (some m)).map (·.1)).getD (up.set' 0)) (some m)).isSome = true ∧
     s.dev.powered = true ∧ s.leMove? 0 (s.set' 0) (some m) = none) := by
  decide +kernel
theorem test_witness_ControlFlowOfLaws :
    (up.dev.powered = true ∧ (up.set' 0).cond up.servo 0 = true ∧ canRun up 0 ∧ (up.set' 0).cond up.servo 1 = false) ∧
    (let calls (l : List Nat) : State := up.modEng 0 fun x => { x with main := { x.main with calls := l } }
     ((calls [1, 2, 3]).set' 0).calls.length < 4 ∧ 4 ≤ ((calls [1, 2, 3, 4]).set' 0).calls.length ∧
     ((calls [0x3FFF]).set' 0).calls = [0x3FFF] ∧ ((calls []).set' 0).calls = []) ∧
    ((1 : Nat) ≠ 0 ∧ (up.set' 0).loops.length < 4 ∧ (up.set' 0).pc + 1 ≤ 0x3FFF ∧ (up.set' 0).lc = 0 ∧ (up.set' 0).loops = []) ∧
    (let s := up.modEng 0 fun x => { x with main := { x.main with loops := List.replicate 4 default } }
     4 ≤ (s.set' 0).loops.length) := by decide +kernel
theorem test_witness_TasksEndCommitAndFault :
    (up.dev.powered = true ∧ (up.eng 0).onExt = false) ∧
    (let s := up.modEng 0 fun x => { x with onExt := true }
     canRun s 0 ∧ (s.eng 0).onExt = true) ∧
    (let s := (up.set (Reg.TASK_SLOTS.SLOTS 15 31) (2 ^ 23)).modEng 15 fun x => { x with main := { x.main with task := some 31 } }
     canRun s 15 ∧ (s.eng 15).onExt = false ∧ (s.eng 15).main.task = some 31 ∧ bitAt (s.get (Reg.TASK_SLOTS.SLOTS 15 31)) 23 = true ∧
     (s.slot 15 23).due ≤ (s.eng 15).main.born ∧ (s.eng 15).main.born < ((s.modSlot 15 23 fun x => { x with due := 1 }).slot 15 23).due ∧
     24 ≤ (31 : Fin 32).val ∧ bitAt (s.get (Reg.TASK_SLOTS.SLOTS 15 31)) (22 : Fin 32).val = false) := by decide +kernel
theorem test_witness_HostWritesEngineMemory :
    (let s := up.set (Reg.LE_MEM_ADDR.ADDR 15) 0xFFFF; s.HostReady 9 ∧ s.get (Reg.LE_MEM_ADDR.ADDR 15) < 65536) ∧
    (let s := up.set (Reg.LE_MEM_ADDR.ADDR 15) 0x10000; s.HostReady 9 ∧ 65536 ≤ s.get (Reg.LE_MEM_ADDR.ADDR 15)) := by decide +kernel

/-- A servo boundary at instant `t`. -/
def boundary (t : Nat) (s : State) : State := { s with dev := { s.dev with begun := true, cycle := 64, cycleTsc := t } }

/-- The cell in REDUCED without STO, with axis 5 on a node that answers, its cartridge accepted and set up. -/
def enablable : State :=
  (((((devIn devReduced).set Reg.STO_STAT.STO 0).set (Reg.LIFE_STAT.ACCEPTED 5) 1).set (Reg.DRV_STAT.PWM_SET 5) 1).modNode 0 0 fun x =>
    { x with answers := true, ident := List.replicate 256 0 })

/-- Axis `a` with its requests. -/
def asking (a : Nat) (s : State) (f : AxSt → AxSt) : State := s.modAxis a f

theorem test_witness_AxisRequestsWaitForTheBoundary :
    (cell.HostReady 9 ∧ cell.img.axis? 255 = none ∧ 1 ∉ (cell.axis 255).reqEnable ∧ 1 ∈ ((asking 255 cell fun x => { x with reqEnable := [1] }).axis 255).reqEnable) ∧
    (let s := asking 255 cell fun x => { x with axDisable := true }
     (s.axis 255).axDisable = true ∧ (s.axis 255).reqDisable = false ∧ (s.axis 255).reqClear = false ∧ (s.axis 255).reqEnable = [] ∧
     s.on (Reg.AX_STATE.LATCHED 255) = false ∧ s.img.axis? 255 = none) ∧
    (let s := asking 5 (cell.set (Reg.AX_CFG.IN_ISLAND 5) 1) fun x => { x with axDisable := true }
     (s.axis 5).axDisable = true ∧ (s.axis 5).reqDisable = false ∧ (s.axis 5).reqClear = false ∧ (s.axis 5).reqEnable = [] ∧
     s.on (Reg.AX_STATE.LATCHED 5) = false ∧ s.on (Reg.AX_CFG.IN_ISLAND 5) = true ∧ s.img.axis? 5 ≠ none) ∧
    (let s := asking 5 (cell.set (Reg.AX_STATE.STATE 5) axPrecharge) fun x => { x with reqDisable := true }
     let w := asking 5 (cell.set (Reg.AX_STATE.STATE 5) axPrecharge) fun x => { x with axDisable := true }
     (s.img.axis? 5).isSome = true ∧ s.axState 5 = axPrecharge ∧ (s.axis 5).reqDisable = true ∧ (s.axis 5).reqClear = false ∧
     (w.axis 5).axDisable = true ∧ w.on (Reg.AX_CFG.IN_ISLAND 5) = false) ∧
    (let s := asking 5 enablable fun x => { x with reqEnable := [2] }
     let f := s.set (Reg.AX_STATE.STATE 5) axFault
     (s.img.axis? 5).isSome = true ∧ s.axState 5 = axOff ∧ (s.axis 5).reqEnable = [2] ∧ (s.axis 5).reqDisable = false ∧ (s.axis 5).axDisable = false ∧
     (s.axis 5).reqClear = false ∧ (s.node (s.ringOf 5) (s.nodeOf 5)).pwmQ ≠ 3 ∧ (s.node (s.ringOf 5) (s.nodeOf 5)).pwmS ≠ 3 ∧
     s.enableReason 5 2 = 0 ∧ f.axState 5 = axFault ∧ (f.axis 5).reqEnable = [2] ∧ f.enableReason 5 2 ≠ 0) := by decide +kernel

/-- Axis 5 of the cell in a state and phase of its enable sequence, at a servo boundary at instant 9. -/
def axisIn (st ph : Nat) : State := boundary 9 ((cell.set (Reg.AX_STATE.STATE 5) st).set (Reg.AX_STATE.PHASE 5) ph)

/-- An uplink that reports a bus voltage and a status. -/
def uplinkOf (udc status : Nat) (s : State) : State := s.modAxis 5 fun x => { x with uplink := some { (default : Uplink) with udc := udc, status := status } }

theorem test_witness_EnablingRunsThroughItsStates :
    (let s := uplinkOf 0x7FFFFF 0 ((axisIn axPrecharge 0).set (Reg.DRV_SEQ1.BRAKE_REL_T 5) 1)
     s.Ready 9 ∧ (s.at 9).atServo = true ∧ s.axState 5 = axPrecharge ∧ s.udcOk 5 = true ∧ s.get (Reg.DRV_SEQ1.BRAKE_REL_T 5) ≠ 0 ∧ (s.at 10).atServo = false) ∧
    (let s := uplinkOf 0x7FFFFF 0 (axisIn axPrecharge 0)
     s.Ready 9 ∧ (s.at 9).atServo = true ∧ s.axState 5 = axPrecharge ∧ s.udcOk 5 = true ∧ s.get (Reg.DRV_SEQ1.BRAKE_REL_T 5) = 0 ∧ s.ferrOk 5 = true) ∧
    cell.axState 5 ≠ axPrecharge ∧
    (let s := axisIn axPrecharge 0
     s.Ready 9 ∧ (s.at 9).atServo = true ∧ s.axState 5 = axPrecharge ∧ (s.at 9).elapsed 5 (s.get (Reg.DRV_SEQ0.PRECHG_T 5)) = true ∧ s.udcOk 5 = false ∧
     ((s.set (Reg.DRV_SEQ0.PRECHG_T 5) 2).at 9).elapsed 5 2 = false) ∧
    (let s := axisIn axBrakeRelease 0
     (s.at 9).atServo = true ∧ s.axState 5 = axBrakeRelease ∧ (s.at 9).elapsed 5 (s.get (Reg.DRV_SEQ1.BRAKE_REL_T 5)) = true ∧ s.ferrOk 5 = true ∧
     s.lawSlot 5 = none) := by
  decide +kernel

theorem test_witness_EnablingRunsThroughItsStates_law :
    (let s := ((axisIn axBrakeRelease 0).set (Reg.LAW_AXIS.VALID 15 23) 1).set (Reg.LAW_AXIS.AXIS 15 23) 5
     let w := s.setWord (Reg.FERR 15 23) 1
     let q := uplinkOf 0x7FFFFF 0 (w.set (Reg.AX_STATE.STATE 5) axPrecharge)
     s.Ready 9 ∧ (s.at 9).atServo = true ∧ s.axState 5 = axBrakeRelease ∧ (s.at 9).elapsed 5 (s.get (Reg.DRV_SEQ1.BRAKE_REL_T 5)) = true ∧ s.ferrOk 5 = true ∧
     s.lawSlot 5 = some (15, 23) ∧ w.ferrOk 5 = false ∧ (w.at 9).atServo = true ∧ w.axState 5 = axBrakeRelease ∧
     (w.at 9).elapsed 5 (w.get (Reg.DRV_SEQ1.BRAKE_REL_T 5)) = true ∧ (q.at 9).atServo = true ∧ q.axState 5 = axPrecharge ∧ q.udcOk 5 = true ∧
     q.get (Reg.DRV_SEQ1.BRAKE_REL_T 5) = 0 ∧ q.ferrOk 5 = false) := by decide +kernel

theorem test_witness_DisablingRunsThroughItsPhases :
    (let s := (axisIn axDisabling phDecel).set (Reg.DRV_SEQ1.HOLD_T 5) 1
     s.Ready 9 ∧ (s.at 9).atServo = true ∧ s.inPhase 5 phDecel = true ∧ s.atRest 5 = true ∧ s.get (Reg.DRV_SEQ1.HOLD_T 5) ≠ 0 ∧ (s.at 10).atServo = false) ∧
    (let s := (axisIn axDisabling phDecel).set (Reg.DRV_SEQ1.BRAKE_SET_T 5) 1
     (s.at 9).atServo = true ∧ s.inPhase 5 phDecel = true ∧ s.atRest 5 = true ∧ s.get (Reg.DRV_SEQ1.HOLD_T 5) = 0 ∧ s.get (Reg.DRV_SEQ1.BRAKE_SET_T 5) ≠ 0) ∧
    (let s := axisIn axDisabling phDecel
     (s.at 9).atServo = true ∧ s.inPhase 5 phDecel = true ∧ s.atRest 5 = true ∧ s.get (Reg.DRV_SEQ1.HOLD_T 5) = 0 ∧ s.get (Reg.DRV_SEQ1.BRAKE_SET_T 5) = 0) ∧
    (let s := (axisIn axDisabling phHold).set (Reg.DRV_SEQ1.BRAKE_SET_T 5) 1
     (s.at 9).atServo = true ∧ s.inPhase 5 phHold = true ∧ (s.at 9).elapsed 5 (s.get (Reg.DRV_SEQ1.HOLD_T 5)) = true ∧ s.get (Reg.DRV_SEQ1.BRAKE_SET_T 5) ≠ 0 ∧
     (axisIn axDisabling phHold).get (Reg.DRV_SEQ1.BRAKE_SET_T 5) = 0 ∧ ((s.set (Reg.DRV_SEQ1.HOLD_T 5) 2).at 9).elapsed 5 2 = false) ∧
    ((axisIn axDisabling phBrakeSet).inPhase 5 phBrakeSet = true ∧ ((axisIn axDisabling phBrakeSet).at 9).atServo = true ∧
     ((axisIn axDisabling phBrakeSet).at 9).elapsed 5 ((axisIn axDisabling phBrakeSet).get (Reg.DRV_SEQ1.BRAKE_SET_T 5)) = true) ∧
    (let s := uplinkOf 0 (2 ^ stBridgeOff) (axisIn axDisabling phTorqueOff)
     s.Ready 9 ∧ (s.at 9).atServo = true ∧ s.inPhase 5 phTorqueOff = true ∧ s.bridgeOff 5 = true) ∧
    (let s := axisIn axDisabling phTorqueOff
     s.Ready 9 ∧ (s.at 9).atServo = true ∧ s.inPhase 5 phTorqueOff = true ∧ s.bridgeOff 5 = false ∧ (s.axis 5).timerAt + 16 ≤ s.dev.cycle.toNat ∧
     s.dev.cycle.toNat < ((s.modAxis 5 fun x => { x with timerAt := 49 }).axis 5).timerAt + 16) ∧
    cell.axState 5 ≠ axDisabling := by decide +kernel

theorem test_witness_FeedbackCommands :
    (up.HostReady 0 ∧ (up.written 0).driven 255 = false) ∧
    (let s := up.set (Reg.PG_STAT.ACTIVE 255) 1; s.HostReady 0 ∧ (s.written 0).driven 255 = true) ∧
    (let s := up.set (Reg.FB_STAT.FAULT 255) 1; s.on (Reg.FB_STAT.FAULT 255) = true ∧ s.fbCauseGone 255 = true) ∧
    (let s := (up.set (Reg.FB_STAT.CAUSE 0) 5).modFb 0 fun x => { x with encErr := true }; s.HostReady 0 ∧ s.fbCauseGone 0 = false) ∧
    (let s := up.set (Reg.ENC_STAT.FAULT 7) 1; s.HostReady 0 ∧ ((s.written 0).rollWindow 7).on (Reg.ENC_STAT.FAULT 7) = true ∧ ((s.written 0).rollWindow 7).encCauseGone 7 = true ∧ (s.enc 7).broken = []) ∧
    (let s := (((up.set (Reg.ENC_STAT.FAULT 7) 1).set (Reg.ENC_STAT.CAUSE 7) 3).set (Reg.ENC_CFG.EN 7) 1).modEnc 7 fun x => { x with broken := [2] }
     s.HostReady 0 ∧ ((s.written 0).rollWindow 7).on (Reg.ENC_STAT.FAULT 7) = true ∧ ((s.written 0).rollWindow 7).encCauseGone 7 = true ∧
     (s.enc 7).broken ≠ [] ∧ s.on (Reg.ENC_CFG.EN 7) = true) ∧
    (let s := (up.set (Reg.ENC_STAT.CAUSE 7) 2).modEnc 7 fun x => { x with broken := [2] }; s.HostReady 0 ∧ ((s.written 0).rollWindow 7).encCauseGone 7 = false) := by
  decide +kernel

theorem test_witness_EncodersCountAndStandStill :
    (up.Ready 0 ∧ up.on (Reg.ENC_CFG.EN 7) = false ∧ up.get (Reg.ENC_CFG.FILT 7) < 1 ∧ quadPlace true false ≠ quadPlace (up.enc 7).a (up.enc 7).b ∧
     quadPlace (up.filtered 7 (up.enc 7).a true 0) (up.filtered 7 (up.enc 7).b false 0) = quadPlace (up.enc 7).a (up.enc 7).b) ∧
    (let s := up.set (Reg.ENC_CFG.EN 7) 1
     let f := s.set (Reg.ENC_STAT.FAULT 7) 1
     s.Ready 0 ∧ s.on (Reg.ENC_CFG.EN 7) = true ∧ (s.at 0).dueActs = [] ∧ s.get (Reg.ENC_CFG.FILT 7) < 1 ∧ f.on (Reg.ENC_STAT.FAULT 7) = true ∧
     (encTransition 7 true false 1 1 (s.at 0)).int64 (Reg.ENC_CNT_LO 7) ≠ s.int64 (Reg.ENC_CNT_LO 7) ∧ (∀ c < 16, s.get (Reg.CMP_CFG.SRC c) ≠ 1) ∧
     quadPlace true false = (quadPlace (s.enc 7).a (s.enc 7).b + 1) % 4 ∧ quadPlace (s.enc 7).a (s.enc 7).b = (quadPlace false true + 1) % 4 ∧
     quadPlace true true = (quadPlace (s.enc 7).a (s.enc 7).b + 2) % 4 ∧
     s.on (Reg.ENC_CFG.IDX_CHK 7) = false ∧ s.on (Reg.ENC_STAT.FAULT 7) = false) ∧
    (let s := up.set (Reg.ENC_CFG.ILL_WIN 7) 1
     s.Ready 1000000 ∧ illWindow (s.get (Reg.ENC_CFG.ILL_WIN 7)) (1000000 : Time).toNat ≠ (s.enc 7).window ∧
     illWindow (s.get (Reg.ENC_CFG.ILL_WIN 7)) (999999 : Time).toNat = (s.enc 7).window) ∧
    (let s := up.modFb 255 fun x => { x with seen := true }
     s.Ready 50000000 ∧ (s.fb 255).seen = true ∧ (s.fb 255).edge + standstillNs (s.get (Reg.FB_LIMITS.STANDSTILL_T 255)) ≤ (50000000 : Time).toNat ∧
     (49999999 : Time).toNat < (s.fb 255).edge + standstillNs (s.get (Reg.FB_LIMITS.STANDSTILL_T 255))) ∧
    ((up.enc 7).moved = false ∧ (up.enc 7).loadAt + standstillNs (up.get (Reg.ENC_LIMITS.STANDSTILL_T 7)) ≤ (50000000 : Time).toNat) := by decide +kernel

/-- The next state of an outcome. -/
def nextOf (o : Host.Outcome State Fault Refusal) : State :=
  match o with
  | .next u => u
  | _ => State.reset

/-- Local encoder 7 in use. -/
def counting : State := up.set (Reg.ENC_CFG.EN 7) 1

theorem test_witness_EncodersCountAndStandStill_index :
    exec (.encoderTransition 0 7 true false 1 1) counting = .next (nextOf (exec (.encoderTransition 0 7 true false 1 1) counting)) ∧
    (let u := nextOf (exec (.encoderTransition 0 7 true false 1 1) counting)
     counting.get (Reg.ENC_CFG.FILT 7) < 1 ∧ (u.enc 7).z = false ∧ u.on (Reg.ENC_CFG.EN 7) = true ∧ u.get (Reg.ENC_CFG.FILT 7) = counting.get (Reg.ENC_CFG.FILT 7) ∧
     u.filtered 7 (u.enc 7).z false 1 = false ∧ (nextOf (exec (.encoderTransition 0 7 true false 1 1) up)).on (Reg.ENC_CFG.EN 7) = false) :=
  ⟨rfl, by decide +kernel⟩

theorem test_witness_EncodersCountAndStandStill_none :
    (up.Ready 49999999 ∧ (up.fb 255).seen = false ∧ 8 ≤ (8 : Fin 256).val ∧
     (49999999 : Time).toNat < (if (up.enc 7).moved then (up.enc 7).edge.getD (up.enc 7).loadAt else (up.enc 7).loadAt) +
       standstillNs (up.get (Reg.ENC_LIMITS.STANDSTILL_T 7))) := by decide +kernel

/-- Compare channel 15, armed, with a point at instant 7, outputs live. -/
def comparing : State :=
  (((devIn devReduced).set (Reg.CMP_STAT.ARMED 15) 1).setWord (Reg.CMP_SPC_LO 15) 1).modCmp 15 fun x => { x with points := [7] }

theorem test_witness_CompareAndEmulationOutputs :
    (let s := up.set Reg.DEV_STATE.STATE devReduced
     s.Ready 0 ∧ s.get Reg.DPX_STAT.ROLE = 0 ∧ s.pinsLive = true ∧ up.pinsLive = false ∧ (s.cmp 15).pulse = none ∧ s.get (Reg.CMP_LIMIT.VALUE 15) = 0 ∧
       (s.cmp 15).lastEnd = none) ∧
    (let s := (up.set Reg.DEV_STATE.STATE devReduced).modCmp 15 fun x => { x with pulse := some 7, lastEnd := some 5 }
     let w := (up.set Reg.DEV_STATE.STATE devReduced).modCmp 15 fun x => { x with lastEnd := some 7 }
     s.Ready 26 ∧ s.pinsLive = true ∧ (s.cmp 15).pulse = some 7 ∧ (26 : Time).toNat < 7 + 20 ∧ 7 + 20 ≤ (27 : Time).toNat ∧
     7 ≤ (7 : Time).toNat ∧ (6 : Time).toNat < 7 ∧ (w.cmp 15).pulse = none ∧ (w.cmp 15).lastEnd = some 7) ∧
    (let s := comparing
     let o := s.set (Reg.CMP_STAT.OPEN 15) 1
     s.Ready 7 ∧ (s.cmp 15).points = 7 :: [] ∧ 7 ≤ (7 : Time).toNat ∧ (6 : Time).toNat < 7 ∧ (s.at 7).dueActs = [] ∧ s.on (Reg.CMP_STAT.ARMED 15) = true ∧
     s.on (Reg.CMP_STAT.OPEN 15) = false ∧ s.cmpS 15 ≠ 0 ∧ o.on (Reg.CMP_STAT.OPEN 15) = true ∧ o.pinsLive = true ∧ (o.cmp 15).pulse = none ∧
     (o.cmp 15).lastEnd = none ∧ (o.setWord (Reg.CMP_SPC_LO 15) 0).cmpS 15 = 0) ∧
    ((up.cmp 15).points = [] ∧ (up.cmp 15).pulse = none) ∧
    (let s := (up.set Reg.DEV_STATE.STATE devReduced).modEmu 3 fun x => { x with steps := [7, 8] }
     s.Ready 7 ∧ (s.emu 3).steps = 7 :: [8] ∧ 7 ≤ (7 : Time).toNat ∧ (6 : Time).toNat < 7 ∧ s.pinsLive = true ∧ (up.emu 3).steps = [] ∧
     s.get Reg.DPX_STAT.ROLE = 0) := by decide +kernel

theorem test_witness_CompareAndEmulationOutputs_spaced :
    (∀ e, (comparing.cmp 15).pulse = some e → e + 20 ≤ 7) ∧ ∀ e, (comparing.cmp 15).pulse = none → (comparing.cmp 15).lastEnd = some e → e + 20 ≤ 7 := by
  refine ⟨fun e h => ?_, fun e _ h => ?_⟩ <;> cases h
/-- A frame of the ring or of the partner link: its bytes and their CRC-32C. -/
def framed (l : List Nat) : List Byte := (l ++ leBytes 4 (crc32c l)).map (BitVec.ofNat 8 ·)

theorem test_witness_LowerHalvesAreReadWithTheRest :
    up.Ready 0 ∧ [Reg.FB_POS_LO 255, Reg.FB_UPOS_LO 255, Reg.FB_IDX_LO 255, Reg.FB_PRESET_LO 255][3]? = some (Reg.FB_PRESET_LO 255) ∧
    [Reg.ENC_CNT_LO 7, Reg.ENC_IDX_LO 7][1]? = some (Reg.ENC_IDX_LO 7) ∧ [Reg.SAFE_SIG_LO, Reg.SAFE_CONF_LO][1]? = some Reg.SAFE_CONF_LO ∧
    [Reg.FED_CYC_LO, Reg.FED_OFS_LO, Reg.FED_CYC_BASE_LO][2]? = some Reg.FED_CYC_BASE_LO := by decide +kernel

/-- Ring cycle 7 of a ring, started at instant 1000: slot 31 is of axis 5 on node 23; a copy of the cycle-start gave port A its delay. -/
def cycle7 : RingCyc :=
  { (default : RingCyc) with cycle := 7, start := 1000, table := List.replicate 31 0 ++ [1 + 8 * 23 + 256 * 5], expect := [31], cA := some 400 }

/-- Ring 15 in that cycle. -/
def inCycle (c : RingCyc) : State := up.modRing 15 fun r => { r with cur := some c }

/-- A slot's expected start is 1000 + 160 + 480·31 + 400 + 208. -/
def due31 : Nat := 16648

theorem test_witness_RingMastersJudgeWhatReturns :
    (let s := inCycle cycle7
     let f := framed (leBytes 8 7 ++ List.replicate 10 0)
     frameOk 18 (natBytes []) true = false ∧ up.Ready 0 ∧ (up.ring 15).cur = none ∧
     s.Ready 13000 ∧ (s.ring 15).cur = some cycle7 ∧ 12000 < (13001 : Time).toNat - cycle7.start ∧ (13000 : Time).toNat - cycle7.start ≤ 12000 ∧
     cycle7.okA = false ∧ cycle7.okB = false ∧ frameOk 18 (natBytes f) true = true ∧ leAt (natBytes f) 0 8 = cycle7.cycle ∧ (s.ring 15).recloseAt = none ∧
     ({ cycle7 with okB := true } : RingCyc).okB = true) ∧
    (let s := inCycle cycle7
     let f := framed ([31 + 32, 23] ++ leBytes 2 7 ++ List.replicate 46 0)
     (up.at 9).slotOfArrival 15 true = none ∧ (s.at due31).slotOfArrival 15 false = some (cycle7, 31) ∧ cycle7.expected false 31 = some due31 ∧
     (s.at (due31 - 33)).slotOfArrival 15 false = some (cycle7, 31) ∧ (s.at (due31 + 49)).slotOfArrival 15 false = some (cycle7, 31) ∧
     s.slotNode 15 31 cycle7 = some 23 ∧ cycle7.accepted.contains 31 = false ∧ frameOk 50 (natBytes f) true = true ∧
     s.anyNode 15 1 = false ∧ agrees (natBytes f) 31 (entKind (cycle7.table.getD 31 0)) 23 false cycle7 = true ∧
     frameOk 50 (natBytes []) true = false ∧ (23 : Nat) < 25 ∧ ({ cycle7 with accepted := [31] } : RingCyc).accepted.contains 31 = true ∧
     entKind (cycle7.table.getD 31 0) ≠ 3 ∧ ({ cycle7 with expect := [] } : RingCyc).expected false 31 = some due31 ∧
     s.slotNode 15 31 { cycle7 with expect := [] } = none ∧ (due31 - 33 : Nat) + 32 < due31 ∧ due31 + 48 < due31 + 49) ∧
    (let c : RingCyc := { cycle7 with table := List.replicate 31 0 ++ [2], expect := [] }
     let s := (inCycle c).modRing 15 fun r => { r with txn := some { enumTxn 0 0 with since := some 0 } }
     (s.at due31).slotOfArrival 15 false = some (c, 31) ∧ s.slotNode 15 31 c = some 31 ∧ 25 ≤ (31 : Nat) ∧ c.expected false 31 = some due31) ∧
    ((up.at 9).openCyc 15 31 = none ∧ ((inCycle cycle7).at (due31 + 272)).openCyc 15 31 = some cycle7) ∧
    up.isNode = false ∧ up.on (Reg.RING_CFG.EN 15) = false := by decide +kernel

/-- The unit is a node of ring 15: the standby, or in a role. -/
def asNode (r : Nat) : State := (inRole r).set (Reg.RING_CFG.EN 15) 1

/-- It acts on the stream of port A, of ring cycle 7. -/
def acting : State := (asNode roleStandby).modDpx fun d => { d with heard := [(15, some (7, 0, false))] }

/-- Its port B is in loop-back. -/
def turning : State := acting.modRing 15 fun r => { r with portB := { (default : NodePort) with looped := true } }

theorem test_witness_RingMastersJudgeWhatReturns_node :
    (let s := asNode roleStandby
     let f := framed (leBytes 8 7 ++ [0, 0, roleActive] ++ List.replicate 7 0)
     s.Ready 0 ∧ s.isNode = true ∧ s.on (Reg.RING_CFG.EN 15) = true ∧ frameOk 18 (natBytes f) true = true ∧ leAt (natBytes f) 10 1 = roleActive ∧
     bitAt (leAt (natBytes f) 8 1) 6 = false ∧ tget none s.dpx.heard 15 = none ∧ s.follows = true ∧ s.dpx.silenced = false ∧ (s.ring 15).probeLoop = none) ∧
    (let f := framed (leBytes 8 7 ++ [0, 0, roleActive] ++ List.replicate 7 0)
     let p := framed ([31 + 32 * 2, 24, 7, 0, 3, 0, 0xFF, 0] ++ List.replicate 30 0)
     acting.Ready 0 ∧ acting.isNode = true ∧ acting.on (Reg.RING_CFG.EN 15) = true ∧ acting.dpx.silenced = false ∧ (acting.ring 15).probeLoop = none ∧
     frameOk 18 (natBytes []) true = false ∧ frameOk 38 (natBytes []) true = false ∧ ((acting.ring 15).port true).looped = false ∧
     frameOk 18 (natBytes f) true = true ∧ acting.follows = true ∧ turning.isNode = true ∧ turning.on (Reg.RING_CFG.EN 15) = true ∧
     turning.dpx.silenced = false ∧ (turning.ring 15).probeLoop = none ∧ turning.follows = true ∧ (turning.ring 15).cur = none ∧
     ((turning.ring 15).port true).looped = true ∧ frameOk 38 (natBytes p) true = true ∧ acting.acted 15 = some (7, 0, false) ∧
     acting.hopPoll 15 (natBytes p) = true) := by decide +kernel

/-- Node 23 of ring 15 is on the ring and answers the slot of axis 5, slot 31. -/
def onRing : State :=
  ((cell.set (Reg.RING_STAT.MODE 15) ringClosed).set (Reg.NODE_INFO.ADDRESSED 15 23) 1).setWord (Reg.SCHED_ACT 15 31) (1 + 8 * 23 + 256 * 5)

theorem test_witness_RingsAreMutedFoldedAndCleared :
    (let s := (up.set (Reg.RING_STAT.MODE 15) ringClosed).modRing 15 fun r => { r with unreturned := true }
     s.Ready 9 ∧ (s.ring 15).unreturned = true ∧ (s.ring 15).both = false ∧ s.ringMode 15 = ringClosed ∧ (up.ring 15).unreturned = false ∧
     (s.set (Reg.RING_STAT.MODE 15) ringStarting).ringMode 15 = ringStarting) ∧
    (up.ringMode 15 = ringOff ∧ up.addressed 15 23 = false ∧ (onRing.set (Reg.RING_MUTE.MUTE 15) (2 ^ 23)).nodeMuted 15 23 = true) ∧
    (let s (e m : Nat) := onRing.modNode 15 23 fun x => { x with edgeRun := e, missRun := m }
     (s 3 0).Ready 9 ∧ (s 3 0).ringMode 15 ≠ ringOff ∧ (s 3 0).addressed 15 23 = true ∧ (s 3 0).nodeMuted 15 23 = false ∧
     ((s 3 0).ring 15).reqMute.contains 23 = false ∧ 3 ≤ ((s 3 0).node 15 23).edgeRun ∧
     ((s 2 3).node 15 23).edgeRun < 3 ∧ 3 ≤ ((s 2 3).node 15 23).missRun ∧ ((s 2 3).node 15 23).landing = false ∧
     ((s 2 2).node 15 23).edgeRun < 3 ∧ ((s 2 2).node 15 23).missRun < 3) ∧
    (onRing.HostReady 9 ∧ 24 ≤ (24 : Fin 32).val ∧ (23 : Fin 32).val < 24 ∧ onRing.nodeMuted 15 23 = false ∧
     (onRing.ring 15).reqMute.contains 23 = false) := by decide +kernel

theorem test_witness_SchedulesSwapAndTransactionsEnd :
    (onRing.HostReady 0 ∧ onRing.on (Reg.RSCHED_STAT.SWAP_PENDING 15) = false ∧
     (onRing.set (Reg.RSCHED_STAT.SWAP_PENDING 15) 1).on (Reg.RSCHED_STAT.SWAP_PENDING 15) = true ∧
     ((onRing.modRing 15 fun r => { r with hostTxn := some default }).ring 15).hostTxn.isSome = true ∧
     (onRing.ring 15).hostTxn = none ∧ 25 ≤ (25 : Fin 32).val ∧ (0 : Fin 64).val = 0 ∧ (onRing.ring 15).txn = none ∧ (onRing.ring 15).ownTxns = [] ∧
     (24 : Fin 32).val < 25 ∧ (32 : Fin 64).val ≤ 32 ∧ (24 : Fin 64).val ≤ 24) ∧
    (let s := onRing.modRing 15 fun r => { r with swapAt := some 1 }
     let done := (onRing.setWord (Reg.SCHED_SHD 15 31) (1 + 8 * 23 + 256 * 5)).modRing 15 fun r => { r with swapAt := some 1, assigned := true }
     let moved := (onRing.setWord (Reg.SCHED_SHD 15 30) (1 + 8 * 23 + 256 * 5)).modRing 15 fun r => { r with swapAt := some 1 }
     let driven := s.set (Reg.AX_STATE.STATE 5) axEnabled
     (onRing.ring 15).swapAt = none ∧ s.Ready 0 ∧ (s.ring 15).swapAt = some 1 ∧ s.dev.nextCycle ≤ (0 : Time).toNat ∧ 1 ≤ s.dev.cycle.toNat + 1 ∧
     (((driven.at 0).freeMuted 15).swapRefusal 15).isSome = true ∧
     ((done.at 0).freeMuted 15).swapRefusal 15 = none ∧ (done.ring 15).assigned = true ∧ (done.ring 15).assigns = [] ∧
     ((moved.at 0).freeMuted 15).swapRefusal 15 = none ∧ (moved.ring 15).assigned = false ∧
     ((moved.at 0).freeMuted 15).swapChanges 15 = (23, 2 ^ 30) :: []) ∧
    (let s := { (up.modRing 15 fun r => { r with swapAt := some 9, assigns := [(23, 1)], swapFrom := 0 }) with dev := { up.dev with cycle := 64 } }
     s.Ready 0 ∧ (s.ring 15).assigns ≠ [] ∧ (s.ring 15).swapAt.isSome = true ∧ (s.ring 15).swapFrom + 64 ≤ s.dev.cycle.toNat) ∧
    (let s := onRing.modNode 15 23 fun x => { x with landing := true, missRun := 3 }
     (onRing.node 15 23).landing = false ∧ s.Ready 0 ∧ (s.node 15 23).landing = true ∧ 3 ≤ (s.node 15 23).missRun ∧
     ∀ a ∈ s.nodeAxes 15 23, s.axState a = axOff) ∧
    (let x : Txn := { (default : Txn) with owner := .host, op := 1, node := 24, len := 32, tries := 3 }
     let s := onRing.modRing 15 fun r => { r with txn := some x, hostTxn := some x }
     onRing.svcOutcome 15 = none ∧ s.Ready 0 ∧ s.svcOutcome 15 = some (2, 0) ∧ (s.ring 15).txn = some x ∧ x.owner = .host ∧ x.len ≤ 32 ∧ (s.ring 15).ownTxns = []) ∧
    (let s := onRing.modNode 15 23 fun x => { x with release := true }
     (s.node 15 23).release = true ∧ nodeSlots (s.activeTable 15) 23 = [31]) := by decide +kernel

theorem test_witness_SchedulesSwapAndTransactionsEnd_bringUp :
    (let m : NodeMap := { (default : NodeMap) with ring := 15, node := 24, origin := 1, hop := 253 }
     let x : Txn := { enumTxn 1 253 with resp := some (0, leBytes 8 77 ++ List.replicate 24 0) }
     let s := { (onRing.set (Reg.RING_CFG.EN 15) 1).modRing 15 (fun r => { r with txn := some x }) with img := { onRing.img with nodeMaps := [m] } }
     s.Ready 0 ∧ (s.ring 15).txn = some x ∧ x.owner = .enum 1 253 ∧ x.resp = some (0, leBytes 8 77 ++ List.replicate 24 0) ∧
     (s.img.nodeMaps.find? fun m => m.ring == 15 && m.origin == 1 && m.hop == 253) = some m ∧ m.node < 25 ∧ s.addressed 15 m.node = false ∧
     s.serialInUse (leAt (leBytes 8 77 ++ List.replicate 24 0) 0 8) 15 m.node = false ∧ 253 < 0xFE ∧ (s.ring 15).hostTxn = none ∧ (s.ring 15).ownTxns = []) ∧
    (let x : Txn := { enumTxn 1 0 with tries := 3 }
     let s := onRing.modRing 15 fun r => { r with txn := some x }
     (s.ring 15).txn = some x ∧ x.owner = .enum 1 0 ∧ x.op = 3 ∧ x.resp = none ∧ 3 ≤ x.tries) ∧
    (let g : Give := { node := 24, serial := 2 ^ 64 - 1, typ := 65535, origin := 1, hop := 255, slots := 0, turn := 0, cycle := 1 }
     let s := onRing.modRing 15 fun r => { r with gives := [g] }
     (s.ring 15).gives = [g] ∧ g.node < 25 ∧ g.serial < 2 ^ 64 ∧ g.hop < 256 ∧ g.origin < 2 ∧ g.typ < 65536 ∧ s.dev.cycle.toNat < g.cycle ∧
     ({ g with cycle := 0 } : Give).cycle ≤ s.dev.cycle.toNat) ∧
    (let s := onRing.set (Reg.RING_CFG.EN 15) 1
     s.Ready 0 ∧ s.on (Reg.RING_CFG.EN 15) = true ∧ s.ringMode 15 ≠ ringOff ∧ onRing.on (Reg.RING_CFG.EN 15) = false ∧ (s.ring 15).enums = [] ∧
     (s.ring 15).txn = none ∧ (s.ring 15).hostTxn = none ∧ (s.ring 15).ownTxns = []) ∧
    (let s := onRing.modRing 15 fun r => { r with txn := some default }
     s.HostReady 0 ∧ (s.ring 15).hostTxn = none ∧ (s.ring 15).txn.isSome = true ∧ (24 : Fin 32).val < 25 ∧ (24 : Fin 64).val ≠ 0 ∧ (24 : Fin 64).val ≤ 24) ∧
    (let x : Txn := { (default : Txn) with owner := .host, op := 1, node := 24, len := 32, resp := some (0, List.replicate 32 7) }
     let s := onRing.modRing 15 fun r => { r with txn := some x, hostTxn := some x }
     s.svcOutcome 15 = some (1, 0) ∧ (s.ring 15).txn = some x ∧ x.resp = some (0, List.replicate 32 7) ∧ x.op = 1) := by decide +kernel
theorem test_witness_ChannelBDemandsStops :
    (let s := up.modB fun b => { b with report := some { (default : Report) with notFree := [255] } }
     let s := s.modTap 255 fun x => { x with missed := 64 }
     s.tsc.toNat ≤ (0 : Time).toNat ∧ 64 ≤ (s.tap 255).missed ∧ s.reportedOn 255 = true ∧ (up.tap 255).missed < 64) ∧
    (let s := (up.set (Reg.GRP_CFG.SS1_T 15) 1).modB fun b => { b with ss1 := [(15, some (5, 1))] }
     tget none s.chb.ss1 15 = some (5, 1) ∧ 5 + s.get (Reg.GRP_CFG.SS1_T 15) * 1000000 ≤ (1000005 : Time).toNat ∧
     (1000004 : Time).toNat < 5 + s.get (Reg.GRP_CFG.SS1_T 15) * 1000000 ∧ tget none up.chb.ss1 15 = none) ∧
    ((up.set Reg.STO_STAT.STO 0x7FFF).stoOn 15 = false ∧ (up.set Reg.STO_STAT.STO 0x8000).stoOn 15 = true) ∧
    (8000 ≤ sx 16 (8000 : BitVec 16).toNat ∧ sx 16 (7999 : BitVec 16).toNat < 8000 ∧ sx 16 (7039 : BitVec 16).toNat < 7040 ∧ 7040 ≤ sx 16 (7040 : BitVec 16).toNat) ∧
    (let s := up.modB fun b => { b with arrivedAt := some 0 }
     s.chb.arrivedAt = some 0 ∧ 0 + 1100000 ≤ (1100000 : Time).toNat ∧ up.chb.arrivedAt = none) ∧
    (up.Ready 0 ∧ up.get Reg.SAFE_STAT.A_STATE ≠ 3 ∧ (up.set Reg.SAFE_STAT.A_STATE 3).get Reg.SAFE_STAT.A_STATE = 3) := by decide +kernel

/-- Safety input 7 has a function, test pulses, and both lanes closed. -/
def closedIn : State :=
  ((((up.set (Reg.IN_CFG.FUNC 7) 1).set (Reg.IN_CFG.TP_EN 7) 1).set (Reg.IN_STAT.CLOSED 7) 1).set (Reg.IN_STAT.LANE_A 7) 1).set (Reg.IN_STAT.LANE_B 7) 1

theorem test_witness_SafetyInputsStop :
    (up.tsc.toNat ≤ (0 : Time).toNat ∧ up.get (Reg.IN_CFG.FUNC 7) = 0) ∧
    (let s := closedIn
     s.get (Reg.IN_CFG.FUNC 7) = 1 ∧ s.on (Reg.IN_STAT.FAULT 7) = false ∧ s.on (Reg.IN_STAT.CLOSED 7) = true ∧ s.on (Reg.IN_STAT.LANE_A 7) = true ∧
     s.on (Reg.IN_STAT.LANE_B 7) = true ∧ (∀ d ∈ s.chb.demands, d.cause = 1 → d.who = 7 → bitAt d.groups 15 = false) ∧ s.on (Reg.IN_CFG.TP_EN 7) = true ∧
     (s.input 7).failA = 0 ∧ (s.input 7).failB = 0 ∧ (s.input 7).splitAt = none) ∧
    (let s := ((closedIn.set (Reg.IN_CFG.FUNC 7) 3).modInput 7 fun x => { x with closedAt := some 0 }).modB fun b =>
       { b with demands := [{ (default : Demand) with cause := 11, groups := 0xFFFF }] }
     s.get (Reg.IN_CFG.FUNC 7) = 3 ∧ s.on (Reg.IN_STAT.FAULT 7) = false ∧ s.on (Reg.IN_STAT.CLOSED 7) = true ∧ (s.input 7).closedAt = some 0 ∧
     0 + 100000000 ≤ (100000000 : Time).toNat ∧ (5000000000 : Time).toNat ≤ 0 + 5000000000 ∧ ∀ d ∈ s.chb.demands, s.presentFor d = 0) ∧
    (let s := (((closedIn.set (Reg.IN_CFG.FUNC 7) 4).set Reg.DEV_STATE.STATE devReduced).set Reg.SAFE_STAT.SIG_AGREED 1).modInput 7 fun x => { x with closedAt := some 0 }
     s.get (Reg.IN_CFG.FUNC 7) = 4 ∧ s.on (Reg.IN_STAT.FAULT 7) = false ∧ s.on (Reg.IN_STAT.CLOSED 7) = true ∧ (s.input 7).closedAt = some 0 ∧
     0 + 2000000000 ≤ (2000000000 : Time).toNat ∧ (10000000000 : Time).toNat ≤ 0 + 10000000000 ∧ s.devState = devReduced ∧
     s.on Reg.SAFE_STAT.SIG_AGREED = true ∧ s.on Reg.DEV_STATE.COMMISSION_CONFIRMED = false) ∧
    (let s := (closedIn.set (Reg.IN_STAT.CLOSED 7) 0).set (Reg.IN_STAT.LANE_B 7) 0
     s.get (Reg.IN_CFG.FUNC 7) ≠ 0 ∧ s.on (Reg.IN_STAT.FAULT 7) = false ∧ s.on (Reg.IN_STAT.CLOSED 7) = false ∧ s.on (Reg.IN_STAT.LANE_A 7) = true) ∧
    (let s := (closedIn.set (Reg.IN_TIME.DISC_T 7) 1).modInput 7 fun x => { x with splitAt := some 5, failB := 1 }
     s.get (Reg.IN_CFG.FUNC 7) ≠ 0 ∧ (s.input 7).splitAt = some 5 ∧ 5 + s.get (Reg.IN_TIME.DISC_T 7) * 1000000 < (1000006 : Time).toNat ∧
     (1000005 : Time).toNat ≤ 5 + s.get (Reg.IN_TIME.DISC_T 7) * 1000000 ∧
     s.on (Reg.IN_STAT.FAULT 7) = false ∧ s.on (Reg.IN_CFG.TP_EN 7) = true ∧ 1 ≤ (s.input 7).failB ∧
     (s.set (Reg.IN_STAT.FAULT 7) 1).on (Reg.IN_STAT.FAULT 7) = true ∧ up.on (Reg.IN_CFG.TP_EN 7) = false) := by decide +kernel

/-- Channel B is ready, and a report of a device in REDUCED is on its way. -/
def reporting : State :=
  ({ (up.set Reg.SAFE_STAT.SIG_AGREED 1).set (Reg.RING_CFG.EN 15) 1 with chb := { (default : ChB) with ready := true } }).modA fun a =>
    { a with report := some { (default : Report) with state := devReduced } }

/-- Channel A runs; connection 63 is valid, of a kind, a direction and a state; it has sent or accepted last at instant 0. -/
def connIn (kind dir st : Nat) : State :=
  ((((((up.set Reg.SAFE_STAT.A_STATE 2).set (Reg.CONN_CFG.VALID 63) 1).set (Reg.CONN_CFG.KIND 63) kind).set (Reg.CONN_CFG.DIR 63) dir).set
    (Reg.CONN_CFG.E0 63) 1).set (Reg.CONN_CFG.SEQ_WIN 63) 1).set (Reg.CONN_STAT.STATE 63) st

theorem test_witness_ReportsAndSafetyMessages :
    (up.Ready 0 ∧ up.cha.report = none) ∧
    (let r : Report := { (default : Report) with state := devReduced }
     let s := reporting
     s.Ready 0 ∧ s.cha.report = some r ∧ s.chb.ready = true ∧ s.chb.report = none ∧ s.chb.arrivedAt = none ∧ s.chb.mismatches = 0 ∧
     s.chb.demands = [] ∧ s.chb.faulted = false ∧ s.on Reg.SAFE_STAT.SIG_AGREED = true ∧ r.state = devReduced ∧ s.on (Reg.RING_CFG.EN 15) = true) ∧
    (let s := (up.set Reg.SAFE_STAT.A_STATE 2).modA fun a => { a with capturedAt := some 0 }
     up.cha.capturedAt = none ∧ s.cha.capturedAt = some 0 ∧ s.cha.done = false ∧ s.chaRuns = true ∧ up.chaRuns = false) := by decide +kernel

theorem test_witness_ReportsAndSafetyMessages_connections :
    (let s := connIn 0 0 conValid
     let m := fun q => (safetyMsg 0 q (List.replicate 64 0)).map (BitVec.ofNat 8 ·)
     s.Ready 0 ∧ s.chaRuns = true ∧ s.takesInputs = true ∧ s.on (Reg.CONN_CFG.VALID 63) = true ∧ s.on (Reg.CONN_CFG.DIR 63) = false ∧
     s.connPort 63 0 = true ∧ msgOk (s.word (Reg.CONN_ID 63)) (natBytes []) = false ∧ msgOk (s.word (Reg.CONN_ID 63)) (natBytes (m 1)) = true ∧
     leAt (natBytes (m 1)) 6 1 = connLen (s.get (Reg.CONN_CFG.KIND 63)) ∧ leAt (natBytes (m 1)) 6 1 ≠ connLen ((connIn 1 0 0).get (Reg.CONN_CFG.KIND 63)) ∧
     leAt (natBytes (m 1)) 7 1 = 0 ∧ s.get (Reg.CONN_STAT.STATE 63) = conValid ∧ leAt (natBytes (m 0)) 4 2 = s.get (Reg.CONN_STAT.SEQ 63) ∧
     s.get (Reg.CONN_CFG.KIND 63) = 0 ∧ s.get (Reg.CONN_CFG.SEQ_WIN 63) = 1 ∧ (leAt (natBytes (m 1)) 4 2 + 65536 - s.get (Reg.CONN_STAT.SEQ 63)) % 65536 = 1 ∧
     (leAt (natBytes (m 2)) 4 2 + 65536 - s.get (Reg.CONN_STAT.SEQ 63)) % 65536 = 2 ∧ msgOk (s.word (Reg.CONN_ID 63)) (natBytes (m 2)) = true ∧
     leAt (natBytes (m 2)) 6 1 = connLen (s.get (Reg.CONN_CFG.KIND 63)) ∧ leAt (natBytes (m 2)) 7 1 = 0 ∧ (s.conn 63).seqErrs < 2 ∧
     2 ≤ ((s.modConn 63 fun x => { x with seqErrs := 2 }).conn 63).seqErrs ∧
     (connIn 0 0 0).get (Reg.CONN_STAT.STATE 63) ≠ conValid ∧ ((connIn 0 0 0).conn 63).cand = none ∧
     (((connIn 0 0 0).modConn 63 fun x => { x with cand := some (65535, 0) }).conn 63).cand = some (65535, 0) ∧ leAt (natBytes (m 0)) 4 2 = (65535 + 1) % 65536 ∧
     (0 : Time).toNat ≤ 0 + (connIn 0 0 0).get (Reg.CONN_TIME.EXPECT 63) * 1000000) ∧
    (let s := boundary 1000000 ((connIn 1 0 conValid).set (Reg.CONN_TIME.EXPECT 63) 1)
     let p := boundary 1000000 ((connIn 0 0 conValid).set (Reg.CONN_TIME.EXPECT 63) 1)
     (s.at 1000000).atServo = true ∧ (s.at 1000001).atServo = false ∧ (p.at 1000000).atServo = true ∧ p.get (Reg.CONN_STAT.STATE 63) = conValid ∧
     p.chaRuns = true ∧ p.get (Reg.CONN_CFG.KIND 63) = 0 ∧ (p.conn 63).at' + p.get (Reg.CONN_TIME.EXPECT 63) * 1000000 ≤ (1000000 : Time).toNat ∧
     s.chaRuns = true ∧ s.get (Reg.CONN_STAT.STATE 63) = conValid ∧ (s.conn 63).at' + s.get (Reg.CONN_TIME.EXPECT 63) * 1000000 ≤ (1000000 : Time).toNat ∧
     (999999 : Time).toNat < (s.conn 63).at' + s.get (Reg.CONN_TIME.EXPECT 63) * 1000000 ∧ s.get (Reg.CONN_CFG.KIND 63) ≠ 0) ∧
    (let s := (connIn 2 1 0).modConn 63 fun x => { x with cand := some (65535, 0) }
     up.on (Reg.CONN_CFG.DIR 63) = false ∧ s.chaRuns = true ∧ s.on (Reg.CONN_CFG.VALID 63) = true ∧ s.on (Reg.CONN_CFG.DIR 63) = true ∧ s.get (Reg.CONN_CFG.KIND 63) ≠ 0 ∧
     (s.conn 63).at' + s.get (Reg.CONN_TIME.SEND_T 63) * 1000000 ≤ (0 : Time).toNat ∧ (s.conn 63).cand = some (65535, 0) ∧ s.takesInputs = true ∧
     (s.set Reg.DPX_STAT.ROLE roleStandby).takesInputs = false ∧ (connIn 0 1 0).get (Reg.CONN_CFG.KIND 63) = 0 ∧
     (0 : Time).toNat < ((s.modConn 63 fun x => { x with at' := 1 }).conn 63).at' + s.get (Reg.CONN_TIME.SEND_T 63) * 1000000) := by decide +kernel

/-- The same report, of a cell without STO whose axis 5 has moved since it was reported OFF. -/
def reportingMoved : State :=
  { ({ reporting with img := cell.img }.set Reg.STO_STAT.STO 0) with chb := { reporting.chb with taps := [(5, { (default : TapSt) with ref := some 0, pos := 1 })] } }

/-- It comes later than 1.1 ms after the last. -/
def reportingLate : State := reporting.modB fun b => { b with arrivedAt := some 0, mismatches := 1 }

theorem test_witness_ReportsAndSafetyMessages_checks :
    (true = true ↔ (∀ t0, reporting.chb.arrivedAt = some t0 → (0 : Time).toNat ≤ t0 + 1100000) ∧
      ∀ n, reporting.chb.lastCount = some n → (default : Report).count = (n + 1) % 65536) ∧
    (false = true ↔ ∃ a ∈ reporting.img.axisIds, reporting.movedOff a = true ∧ reporting.stoOn (reporting.ringOf a) = false ∧
      reporting.groupOff default (reporting.ringOf a) = true) ∧
    (false = true ↔ (∀ t0, reportingLate.chb.arrivedAt = some t0 → (1100001 : Time).toNat ≤ t0 + 1100000) ∧
      ∀ n, reportingLate.chb.lastCount = some n → (default : Report).count = (n + 1) % 65536) ∧
    (true = true ↔ ∃ a ∈ reportingMoved.img.axisIds, reportingMoved.movedOff a = true ∧ reportingMoved.stoOn (reportingMoved.ringOf a) = false ∧
      reportingMoved.groupOff default (reportingMoved.ringOf a) = true) ∧
    (reportingMoved.cha.report.isSome = true ∧ reportingMoved.chb.ready = true ∧ reportingLate.cha.report.isSome = true ∧ reportingLate.chb.ready = true ∧
     1 ≤ reportingLate.chb.mismatches) ∧ ∀ j, tget none reporting.chb.ss1 j = none := by
  refine ⟨⟨fun _ => ⟨fun _ h => (by cases h), fun _ h => (by cases h)⟩, fun _ => rfl⟩, ⟨fun h => (by cases h), fun h => ?_⟩,
    ⟨fun h => (by cases h), fun h => absurd (h.1 0 rfl) (by decide)⟩,
    ⟨fun _ => ⟨5, by decide +kernel, by decide +kernel, by decide +kernel, by decide +kernel⟩, fun _ => rfl⟩, by decide +kernel, fun j => rfl⟩
  obtain ⟨a, h, -⟩ := h
  have he : reporting.img.axisIds = [] := by decide +kernel
  rw [he] at h; cases h

/-- An identity record of serial number 77 that fits a cartridge of the cell. -/
def identRec : List Byte :=
  framed ([0x4B, 0x51, 0x49, 0x44] ++ leBytes 2 1 ++ leBytes 2 256 ++ leBytes 8 77 ++ leBytes 4 0 ++
    (List.replicate 7 (leBytes 4 0x3F800000)).flatten ++ List.replicate 28 0 ++ leBytes 4 0x3F800000 ++ List.replicate 172 0)

/-- The records of node 23 have been read. -/
def recordsRead (rec : List Byte) : State := onRing.modNode 15 23 fun x => { x with readDone := true, readBuf := natBytes rec ++ List.replicate 2048 0 }

theorem test_witness_CartridgesKeepTheirRecords :
    (up.Ready 0 ∧ up.addressed 15 23 = false ∧ (onRing.node 15 23).readDone = false) ∧
    (let s := recordsRead identRec
     let w := recordsRead (List.replicate 256 0)
     s.Ready 0 ∧ s.addressed 15 23 = true ∧ (s.node 15 23).readDone = true ∧ s.identityReason 15 23 ((s.node 15 23).readBuf.take 256) = 0 ∧
     s.nodeAxes 15 23 ≠ [] ∧ w.addressed 15 23 = true ∧ (w.node 15 23).readDone = true ∧ w.identityReason 15 23 ((w.node 15 23).readBuf.take 256) ≠ 0) ∧
    ((up.node 15 23).ident = [] ∧ (up.node 15 23).history = [] ∧ (up.node 15 23).writing = none ∧
     (onRing.node 15 23).life.onTime < (onRing.node 15 23).onLast + 600 ∧ ∀ a ∈ onRing.lifeDue, a ∉ onRing.nodeAxes 15 23) ∧
    (let s := onRing.modNode 15 23 fun x => { x with ident := [0], life := { x.life with onTime := 600 } }
     let d := { onRing.modNode 15 23 (fun x => { x with ident := [0] }) with lifeDue := [5] }
     let full := s.modNode 15 23 fun x => { x with history := List.replicate 6 0 }
     s.Ready 0 ∧ (s.node 15 23).ident ≠ [] ∧ (s.node 15 23).onLast + 600 ≤ (s.node 15 23).life.onTime ∧ (s.node 15 23).writing = none ∧
     (s.at 0).credit 15 23 ≠ 0 ∧ (s.ring 15).txn = none ∧ (s.ring 15).hostTxn = none ∧ (s.ring 15).ownTxns = [] ∧
     (∃ a ∈ d.lifeDue, a ∈ d.nodeAxes 15 23) ∧ (d.node 15 23).ident ≠ [] ∧ (full.at 0).credit 15 23 = 0 ∧ (full.node 15 23).ident ≠ [] ∧
     (full.node 15 23).onLast + 600 ≤ (full.node 15 23).life.onTime) ∧
    (let s := onRing.modNode 15 23 fun x => { x with history := [1] }
     let d := onRing.modNode 15 23 fun x => { x with history := 1 :: List.replicate 5 2, due := true }
     (s.node 15 23).history = 1 :: [] ∧ (3600000000000 : Time).toNat < 1 + 3600000000000 ∧ 1 + 3600000000000 ≤ (3600000000001 : Time).toNat ∧
     (s.node 15 23).due = false ∧ (d.node 15 23).history = 1 :: List.replicate 5 2 ∧ (d.node 15 23).due = true ∧ (d.node 15 23).writing = none ∧
     (List.replicate 5 2).length < 6) ∧
    (let w : LifeWrite := default
     let done (b : List Nat) (again : Bool) : LifeWrite := { w with ended := true, back := b, again := again }
     let s (w : LifeWrite) := onRing.modNode 15 23 fun x => { x with writing := some w }
     ((s w).node 15 23).writing = some w ∧ w.ended = false ∧ ((s (done w.record.bytes false)).node 15 23).writing = some (done w.record.bytes false) ∧
     (done w.record.bytes false).ended = true ∧ (done w.record.bytes false).back = (done w.record.bytes false).record.bytes ∧
     ((s (done w.record.bytes false)).node 15 23).due = false ∧ (done [] true).again = true ∧ (done [] false).back ≠ (done [] false).record.bytes ∧
     (done [] false).again = false ∧ (((s (done [] true)).modNode 15 23 fun x => { x with due := true }).node 15 23).due = true ∧
     (((s (done [] true)).modNode 15 23 fun x => { x with due := true }).at 0).credit 15 23 ≠ 0) := by decide +kernel

theorem test_witness_PipesShoalsAndNarrows :
    (up.Ready 0 ∧ up.sep.pipes.contains 71 = false ∧ up.sep.pipes.contains 63 = true) ∧
    (let s := (((boundary 1000000 cell).set (Reg.NRW_CFG.VALID 127) 1).set (Reg.NRW_STATE.STATE 127) nrwPassing).set (Reg.NRW_CFG.WD 127) 1
     let s := s.setWord (Reg.NRW_OWNER 127) (2 ^ 30 + 2)
     up.on (Reg.NRW_CFG.VALID 127) = false ∧ s.Ready 1000000 ∧ s.on (Reg.NRW_CFG.VALID 127) = true ∧ s.nrwState 127 = nrwPassing ∧ s.isProxy 127 = false ∧
     (s.at 1000000).atServo = true ∧ (s.at 1000001).atServo = false ∧ (s.set (Reg.NRW_CFG.ROLE 127) 2).isProxy 127 = true ∧
     s.get (Reg.NRW_CFG.WD 127) ≠ 0 ∧ (s.nrw 127).grantAt + s.get (Reg.NRW_CFG.WD 127) * 1000000 ≤ (1000000 : Time).toNat ∧
     (999999 : Time).toNat < (s.nrw 127).grantAt + s.get (Reg.NRW_CFG.WD 127) * 1000000 ∧
     localOf (s.word (Reg.NRW_OWNER 127)) = some 2 ∧ (s.img.island? 2).isSome = true) ∧
    (let s : State := { up with img := { up.img with shoalsUsed := [255] } }
     s.HostReady 0 ∧ s.img.shoalUsed 255 = true ∧ s.img.shoalUsed 254 = false) := by decide +kernel
/-- A frame of the partner link as it arrives. -/
def linkFrame (typ seq : Nat) (payload : List Nat) : List Byte := (partnerFrame typ seq payload).map (BitVec.ofNat 8 ·)

/-- The payload of a heartbeat: role, device state AUTOMATIC, PROMO 5, cycle number 9, nothing acknowledged, an image. -/
def beat (role image : Nat) : List Nat := [role, devAutomatic] ++ leBytes 2 5 ++ leBytes 8 9 ++ List.replicate 8 0 ++ leBytes 8 image ++ List.replicate 4 0

/-- The link of a unit in a role is lost, and a lane is up again. -/
def linkLost (r : Nat) : State := (inRole r).set Reg.DPX_STAT.LINK_LOST 1

/-- A frame is of a type, with SEQ 9 and a payload. -/
abbrev isFrame (typ : Nat) (p : List Nat) : Prop := partnerFrame? typ (natBytes (linkFrame typ 9 p)) = some (9, p)

theorem test_witness_PartnerLinkAndSynchronisation_frames :
    (up.Ready 0 ∧ up.role = roleSolo ∧ partnerFrame? 1 (natBytes []) = none ∧ partnerFrame? 2 (natBytes []) = none ∧
     (partnerFrame? 2 (natBytes (linkFrame 2 9 []))).isSome = true) ∧
    (let s := (inRole roleStandby).modDpx fun d => { d with rxSeq := some 0xFFFFFFFF }
     s.dpx.rxSeq = some 0xFFFFFFFF ∧ 0xFFFFFFFF < 2 ^ 32 ∧ (1 : Nat) < 2 ^ 32 ∧ 2 = (1 + 2 ^ 32 - 0xFFFFFFFF) % 2 ^ 32 ∧ (0 : Nat) < 2 ∧ (2 : Nat) < 2 ^ 31 ∧
     0 = (0xFFFFFFFF + 2 ^ 32 - 0xFFFFFFFF) % 2 ^ 32 ∧ s.follows = true) ∧
    (isFrame 1 [] ∧ ([] : List Nat).length ≠ 32) ∧
    (let s := inRole roleSyncing
     s.Ready 0 ∧ s.role ≠ roleSolo ∧ isFrame 1 (beat roleActive s.imageId) ∧ (beat roleActive s.imageId).length = 32 ∧ s.on Reg.DPX_STAT.LINK_LOST = false ∧
     s.role ≠ roleListening ∧ s.role = roleSyncing ∧ leAt (beat roleActive s.imageId) 0 1 % 8 = roleActive ∧ leAt (beat roleActive s.imageId) 20 8 = s.imageId ∧
     isFrame 1 (beat roleActive (s.imageId + 1)) ∧ leAt (beat roleActive (s.imageId + 1)) 0 1 % 8 = roleActive ∧
     leAt (beat roleActive (s.imageId + 1)) 20 8 ≠ s.imageId) ∧
    (isFrame 1 (beat roleStandby 0) ∧ (beat roleStandby 0).length = 32 ∧ leAt (beat roleStandby 0) 0 1 % 8 ≠ roleActive ∧
     (inRole roleActive).on Reg.DPX_STAT.LINK_LOST = false ∧ (inRole roleActive).role = roleActive ∧ (inRole roleStandby).role = roleStandby ∧
     (inRole roleStandby).on Reg.DPX_STAT.LINK_LOST = false ∧ isFrame 1 (beat roleActive 0) ∧ leAt (beat roleActive 0) 0 1 % 8 = roleActive) ∧
    (let s := linkLost roleStandby
     s.on Reg.DPX_STAT.LINK_LOST = true ∧ s.lanesUp ≠ 0 ∧ s.role = roleStandby ∧ leAt (beat roleActive s.imageId) 20 8 = s.imageId) ∧
    (let s := inRole roleListening
     let same := s.modDpx fun d => { d with pPos := some false }
     s.role = roleListening ∧ s.on Reg.DPX_STAT.LINK_LOST = false ∧ s.samePos = false ∧ same.role = roleListening ∧ same.samePos = true ∧
     same.on Reg.DPX_STAT.LINK_LOST = false) := by decide +kernel

theorem test_witness_PartnerLinkAndSynchronisation_received :
    (isFrame 6 [] ∧ (inRole roleFaulted).paired = false ∧ (inRole roleFaulted).role ≠ roleSolo ∧ (inRole roleListening).paired = true) ∧
    (isFrame 2 [] ∧ (inRole roleActive).follows = false ∧ ((inRole roleStandby).modDpx fun d => { d with mirSeq := some 9 }).dpx.mirSeq = some 9 ∧
     (inRole roleStandby).follows = true ∧ (inRole roleStandby).dpx.mirSeq ≠ some 9) ∧
    (let s := (inRole roleActive).modDpx fun d => { d with kept := [{ (default : MirrorFrame) with seq := 7 }] }
     isFrame 7 (leBytes 4 7) ∧ (s.dpx.kept.find? fun m => m.seq == leAt (leBytes 4 7) 0 4) = some { (default : MirrorFrame) with seq := 7 } ∧ s.role = roleActive ∧
     ∀ m ∈ (inRole roleActive).dpx.kept, m.seq ≠ leAt (leBytes 4 7) 0 4) ∧
    (let s := (inRole roleSyncing).modDpx fun d => { d with observed := true }
     isFrame 3 (leBytes 4 0x40000000) ∧ s.role = roleSyncing ∧ s.dpx.observed = true ∧ s.dpx.installed = false ∧ (inRole roleSyncing).dpx.observed = false ∧
     isFrame 4 (leBytes 8 0) ∧ isFrame 4 (leBytes 8 1) ∧ leAt (leBytes 8 0) 0 8 ≤ s.dev.cycle.toNat ∧ s.dev.cycle.toNat < leAt (leBytes 8 1) 0 8) ∧
    (let s := ((inRole roleStandby).set (Reg.LAW_AXIS.VALID 15 23) 1).set (Reg.LAW_AXIS.AXIS 15 23) 255
     isFrame 5 (leBytes 4 255 ++ leBytes 8 0) ∧ s.follows = true ∧ s.on Reg.DPX_STAT.LINK_LOST = false ∧ leAt (leBytes 4 255 ++ leBytes 8 0) 0 4 < 256 ∧
     s.lawSlot (leAt (leBytes 4 255 ++ leBytes 8 0) 0 4) = some (15, 23) ∧ isFrame 5 (leBytes 4 256) ∧ 256 ≤ leAt (leBytes 4 256) 0 4) ∧
    (let s := (inRole roleStandby).modDpx fun d => { d with rxSeq := some 8 }
     s.dpx.rxSeq = some 8 ∧ s.follows = true ∧ (inRole roleStandby).dpx.rxSeq = none) := by decide +kernel

theorem test_witness_PartnerLinkAndSynchronisation :
    (let s := (inRole roleActive).set Reg.DPX_HB.MISS_RUN 8
     let w := (inRole roleStandby).set Reg.DPX_HB.MISS_RUN 8
     up.paired = false ∧ s.Ready 0 ∧ s.role = roleActive ∧ s.paired = true ∧ 8 ≤ s.get Reg.DPX_HB.MISS_RUN ∧ s.dpx.hbLost = false ∧
     ((inRole roleActive).set Reg.DPX_HB.MISS_RUN 7).get Reg.DPX_HB.MISS_RUN < 8 ∧ w.role = roleStandby ∧ 8 ≤ w.get Reg.DPX_HB.MISS_RUN ∧
     w.dpx.hbLost = false ∧ w.on Reg.DPX_STAT.LINK_LOST = false) ∧
    (let s := inRole roleActive
     let one := (up.set Reg.DPX_STAT.ROLE roleStandby).set Reg.DPX_STAT.LANE0_UP 1
     let sync := one.set Reg.DPX_STAT.ROLE roleSyncing
     s.on Reg.DPX_STAT.LANE1_UP = true ∧ one.on Reg.DPX_STAT.LANE1_UP = false ∧ one.on Reg.DPX_STAT.LINK_LOST = false ∧ one.role ≠ roleSolo ∧
     one.role ≠ roleSyncing ∧ sync.on Reg.DPX_STAT.LANE1_UP = false ∧ sync.on Reg.DPX_STAT.LINK_LOST = false ∧ sync.role = roleSyncing ∧ sync.dpx.attempts < 3 ∧
     (linkLost roleStandby).on Reg.DPX_STAT.LINK_LOST = true ∧ (linkLost roleStandby).Ready 0 ∧ up.role = roleSolo ∧ up.on Reg.DPX_STAT.LANE1_UP = false) ∧
    (let s := (inRole roleStandby).modDpx fun d => { d with lostAt := some 7 }
     s.dpx.lostAt = some 7 ∧ s.role = roleStandby ∧ 7 + 1000000000 ≤ (1000000007 : Time).toNat ∧ (1000000006 : Time).toNat < 7 + 1000000000 ∧ up.dpx.lostAt = none) ∧
    (let s := (inRole roleSyncing).modDpx fun d => { d with observed := true, attempts := 3 }
     s.role = roleSyncing ∧ s.dpx.installed = false ∧ up.role ≠ roleSyncing ∧ (1999999999 : Time).toNat < s.dpx.since + 2000000000 ∧
     s.Ready 2000000000 ∧ s.dpx.since + 2000000000 ≤ (2000000000 : Time).toNat ∧ 3 ≤ s.dpx.attempts ∧ (inRole roleSyncing).dpx.attempts < 3) ∧
    (let s := ((inRole roleSyncing).set Reg.DPX_SYNC.CMP_RUN 1000).modDpx fun d => { d with installed := true }
     s.role = roleSyncing ∧ s.dpx.installed = true ∧ 1000 ≤ s.get Reg.DPX_SYNC.CMP_RUN ∧ (s.set Reg.DPX_SYNC.CMP_RUN 999).get Reg.DPX_SYNC.CMP_RUN < 1000) := by
  decide +kernel

/-- A tap poll of ring cycle 7 in slot 31, from an active unit of a PROMO. -/
def tapPoll (promo : Nat) : List Byte := framed ([31 + 32 * 4, 24, 7, 0, roleActive, promo] ++ List.replicate 32 0)

theorem test_witness_RolesChangeAndDivergencesEnd :
    (let s := ((inRole roleListening).set (Reg.RING_CFG.EN 15) 1).set Reg.DPX_CFG.POS 1
     s.Ready 4000000 ∧ s.role = roleListening ∧ s.dpx.since + 2000000 + 2000000 * s.dpxPos ≤ (4000000 : Time).toNat ∧ s.on (Reg.RING_CFG.EN 15) = true ∧
     s.ringMode 15 = ringOff ∧ (3999999 : Time).toNat < s.dpx.since + 2000000 + 2000000 * s.dpxPos ∧ s.samePos = false ∧
     (s.modDpx fun d => { d with pPos := some true }).samePos = true) ∧
    (let s := ((inRole roleStandby).set (Reg.RING_CFG.EN 15) 1).modDpx fun d => { d with hbLost := true, heard := [(15, some (7, 0, false))] }
     s.Ready 32250 ∧ s.role = roleStandby ∧ s.dpx.hbLost = true ∧ 2 ≤ (s.at 32250).ringsMissing ∧ (s.at 32249).ringsMissing < 2 ∧
     s.on (Reg.RING_CFG.EN 15) = true) ∧
    (let s := (inRole roleActive).modDpx fun d => { d with pRole := some roleStandby, pSynced := true }
     s.role = roleActive ∧ s.partnerFit = true ∧ (inRole roleActive).role = roleActive ∧ (inRole roleActive).partnerFit = false ∧ up.role ≠ roleActive) ∧
    (let s := (inRole roleFaulted).set Reg.DEV_STATE.STATE devStopping
     s.Ready 0 ∧ s.role = roleFaulted ∧ s.devState = devStopping ∧ up.role ≠ roleFaulted) ∧
    (let f := tapPoll 1
     frameOk 38 (natBytes f) true = true ∧ leAt (natBytes f) 0 1 / 32 = 4 ∧ leAt (natBytes f) 1 1 % 32 = 24 ∧ leAt (natBytes f) 4 1 % 8 = roleActive ∧
     (inRole roleActive).dpx.fall = false ∧ promoAhead (leAt (natBytes f) 5 1) ((inRole roleActive).get Reg.DPX_STAT.PROMO) = true ∧
     promoAhead (leAt (natBytes f) 5 1) (((inRole roleActive).set Reg.DPX_STAT.PROMO 129).get Reg.DPX_STAT.PROMO) = false ∧
     leAt (natBytes f) 5 1 ≠ ((inRole roleActive).set Reg.DPX_STAT.PROMO 129).get Reg.DPX_STAT.PROMO ∧
     leAt (natBytes (tapPoll 0)) 5 1 = ((inRole roleActive).set Reg.DPX_CFG.POS 1).get Reg.DPX_STAT.PROMO ∧ ((inRole roleActive).set Reg.DPX_CFG.POS 1).dpxPos = 1 ∧
     frameOk 38 (natBytes []) true = false) := by decide +kernel

/-- A node whose image puts the tap in slot 31. -/
def tapNode (r : Nat) : State :=
  ((asNode r).setWord (Reg.SCHED_ACT 15 31) (4 + 8 * 24)).modDpx fun d => { d with heard := [(15, some (7, 0, false))] }

theorem test_witness_RolesChangeAndDivergencesEnd_taps :
    (let f := tapPoll 1
     let s := tapNode roleStandby
     s.Ready 15624 ∧ s.isNode = true ∧ s.acted 15 = some (7, 0, false) ∧ (15624 : Time).toNat < 0 + 15625 ∧ 0 + 15625 ≤ (15625 : Time).toNat ∧
     leAt (natBytes f) 2 2 = 7 % 65536 ∧ s.follows = true ∧ (tapNode roleListening).follows = false ∧ (tapNode roleListening).isNode = true ∧
     s.tapSlot 15 = some 31 ∧ s.nodeMuted 15 24 = false ∧ s.dpx.silenced = false ∧ (s.ring 15).tapSent = none ∧ (asNode roleStandby).acted 15 = none ∧
     (asNode roleStandby).role ≠ roleActive ∧ (false : Bool) ≠ true) ∧
    (let c : RingCyc := { cycle7 with table := List.replicate 31 0 ++ [4 + 8 * 24], expect := [] }
     let f := framed ([31 + 32 * 4, 24, 7, 0] ++ List.replicate 46 0)
     let s := (inRole roleActive).modRing 15 fun r => { r with cur := some c }
     let v := (s.at due31).receiveResponse 15 false (natBytes f) true
     s.Ready due31 ∧ s.role = roleActive ∧ leAt (natBytes f) 0 1 / 32 = 4 ∧ (s.ring 15).cur = some c ∧ c.accepted.contains (leAt (natBytes f) 0 1 % 32) = false ∧
     (v.ring 15).cur.isSome = true ∧ ((v.ring 15).cur.getD default).accepted.contains (leAt (natBytes f) 0 1 % 32) = true ∧ leAt (natBytes []) 0 1 / 32 ≠ 4) ∧
    (let s := inRole roleActive
     let w := s.modDpx fun d => { d with diverged := some (255, 3), block := some default }
     let late : State := { w with dev := { w.dev with cycle := 19 } }
     s.dpx.diverged = none ∧ w.dpx.diverged = some (255, 3) ∧ w.dpx.own = none ∧ w.dpx.partner = none ∧ w.role = roleActive ∧ w.dpx.outcome = none ∧
     w.verdictEngine = true ∧ w.dpx.block = some default ∧ w.dev.cycle.toNat < 3 + 16 ∧ 3 + 16 ≤ late.dev.cycle.toNat ∧ late.dpx.outcome = none ∧
     (w.modDpx fun d => { d with own := some 1, partner := some 2 }).dpx.own.isSome = true ∧
     (w.modDpx fun d => { d with own := some 1, partner := some 2 }).dpx.partner.isSome = true) := by decide +kernel
/-- A device of the archipelago, node 511 or a lower one, in a state. -/
def fedIn (node rank st : Nat) : State := ((up.set Reg.FED_CFG.NODE node).set Reg.FED_CFG.RANK rank).set Reg.FED_STAT.STATE st

/-- The same in federation cycle 9, which began at instant 0 on port 0. -/
def fedCycle (node rank st : Nat) : State := ((fedIn node rank st).setWord64 Reg.FED_CYC_LO 9).modFed fun x => { x with ref := some (0, 0, 9) }

/-- The reference of a node of federation cycle 9, with the bytes that follow its head zero. -/
def refFrame (node : Nat) (rank flags : Nat := 0) : List Byte :=
  framed ([1, flags] ++ leBytes 2 node ++ [rank, 0, 0, 0] ++ leBytes 8 9 ++ List.replicate 88 0)

/-- A slot frame without records, of federation cycle 9. -/
def slotFrame (node : Nat) (flags : Nat := 0) : List Byte := framed ([2, flags] ++ leBytes 2 node ++ [0, 0, 0, 0] ++ leBytes 8 9)

theorem test_witness_ReferencesAndSlotFrames :
    (up.Ready 0 ∧ up.fedActs = false ∧ (fedIn 511 0 fedMember).fedActs = true ∧ frameOk 104 (natBytes (refFrame 3)) true = true ∧
     leAt (natBytes (refFrame 3)) 0 1 = 1 ∧ leAt (natBytes (slotFrame 3)) 0 1 ≠ 1 ∧ frameOk 104 (natBytes (refFrame 3)) false = false ∧
     leAt (natBytes (refFrame 3)) 0 1 ≠ 2 ∧ 472 < leAt (natBytes (framed ([2, 0, 3, 0, 0, 0] ++ leBytes 2 473))) 6 2 ∧
     frameOk (16 + leAt (natBytes (slotFrame 3)) 6 2) (natBytes (slotFrame 3)) false = false) ∧
    (let s := (fedIn 3 1 fedMaster).modFed fun x => { x with ref := some (5, 0, 9) }
     s.fedState = fedMaster ∧ leAt (natBytes (refFrame 3)) 2 2 % 512 = s.fedNode ∧ s.fed.ref = some (5, 0, leAt (natBytes (refFrame 3)) 8 8) ∧
     (200005 : Time).toNat - 5 ≤ 200000 ∧ s.fed.recloseAt = none ∧ (fedIn 3 1 fedMaster).fed.ref = none ∧
     ((fedIn 3 1 fedMaster).modFed fun x => { x with ref := some (5, 0, 8) }).fed.ref = some (5, 0, 8) ∧ leAt (natBytes (refFrame 3)) 8 8 ≠ 8 ∧
     leAt (natBytes (refFrame 4 1)) 2 2 % 512 ≠ s.fedNode ∧ s.fed.yield = false ∧ bitAt (leAt (natBytes (refFrame 4)) 1 1) 2 = false ∧
     bitAt (leAt (natBytes (refFrame 4 0 4)) 1 1) 2 = true ∧ leAt (natBytes (refFrame 4)) 4 1 < s.get Reg.FED_CFG.RANK ∧
     ¬leAt (natBytes (refFrame 4 1)) 4 1 < s.get Reg.FED_CFG.RANK ∧ ¬leAt (natBytes (refFrame 4 1)) 2 2 % 512 < s.fedNode ∧
     leAt (natBytes (refFrame 2 1)) 4 1 = s.get Reg.FED_CFG.RANK ∧ leAt (natBytes (refFrame 2 1)) 2 2 % 512 < s.fedNode ∧
     (s.modFed fun x => { x with yield := true }).fed.yield = true) ∧
    ((fedIn 5 0 fedListen).fedState = fedListen ∧ bitAt (leAt (natBytes (refFrame 3)) 1 1) 2 = false) ∧
    (let s := ((fedIn 5 0 fedJoining).setWord64 Reg.FED_CYC_LO 8).modFed fun x => { x with run := (3, 1) }
     s.fedState ≠ fedMaster ∧ s.fedState ≠ fedListen ∧ s.fcyc + 1 ≤ leAt (natBytes (refFrame 3)) 8 8 ∧
     leAt (natBytes (refFrame 3)) 8 8 ≤ s.fcyc + 1 + s.get Reg.FED_STAT.MISS_RUN ∧ s.fed.run.1 = leAt (natBytes (refFrame 3)) 2 2 % 512 ∧ 1 ≤ s.fed.run.2 ∧
     ¬(fedCycle 5 0 fedMember).fcyc + 1 ≤ leAt (natBytes (refFrame 3)) 8 8 ∧ bitAt (leAt (natBytes (refFrame 3 0 4)) 1 1) 2 = true) ∧
    (let s := fedIn 511 0 fedJoining
     s.fedActs = true ∧ s.fedState = fedJoining ∧ s.fed.lastRef + 250000 * (s.get Reg.FED_STAT.MISS_RUN + 1) + 1000 < (251001 : Time).toNat ∧
     (251000 : Time).toNat ≤ s.fed.lastRef + 250000 * (s.get Reg.FED_STAT.MISS_RUN + 1) + 1000 ∧
     (fedIn 511 0 fedMember).fedState = fedMember ∧ (fedIn 511 0 fedMember).get Reg.FED_CFG.RANK = 0 ∧ (fedIn 511 0 fedMaster).fedState ≠ fedMember ∧
     (fedIn 511 0 fedMaster).fedState ≠ fedJoining) ∧
    (let s := (fedIn 511 4 fedMember).set Reg.FED_STAT.MISS_RUN 4
     s.fedState = fedMember ∧ 2 ≤ s.get Reg.FED_CFG.RANK ∧ s.get Reg.FED_CFG.RANK ≤ 4 ∧ s.get Reg.FED_CFG.RANK ≤ s.get Reg.FED_STAT.MISS_RUN ∧
     s.fed.lastRef + 250000 * (s.get Reg.FED_STAT.MISS_RUN + 1) + 1000 < (1251001 : Time).toNat ∧
     (fedIn 511 4 fedMember).get Reg.FED_STAT.MISS_RUN < (fedIn 511 4 fedMember).get Reg.FED_CFG.RANK ∧ 4 < (fedIn 511 5 fedMember).get Reg.FED_CFG.RANK) := by
  decide +kernel

theorem test_witness_ReferencesAndSlotFrames_own_slot :
    (let s := fedIn 511 0 fedListen
     s.Ready 1522000 ∧ s.fedActs = true ∧ s.fedState = fedListen ∧ s.fed.since + 500000 + 2000 * s.fedNode ≤ (1522000 : Time).toNat ∧
     (1521999 : Time).toNat < s.fed.since + 500000 + 2000 * s.fedNode ∧ s.get Reg.FED_CFG.RANK = 0 ∧ s.dev.timer = false ∧
     { s with dev := { s.dev with timer := true } }.dev.timer = true ∧ (fedIn 511 1 fedListen).get Reg.FED_CFG.RANK ≠ 0 ∧
     (fedIn 511 0 fedMember).fedState ≠ fedListen) ∧
    (let s := fedCycle 511 0 fedMember
     up.fed.ref = none ∧ s.Ready 249504 ∧ s.fed.ref = some (0, 0, 9) ∧ s.fed.slotSent = false ∧ s.maskBit Reg.FED_MUTE s.fedNode = false ∧ s.fedActs = true ∧
     s.fedState = fedMember ∧ (fedCycle 511 1 fedMaster).fedState = fedMaster ∧ 0 + 144 + 488 * s.fedNode ≤ (249504 : Time).toNat + 8 ∧
     (249503 : Time).toNat + 8 < 0 + 144 + 488 * s.fedNode ∧ (s.at 249504).slotRecords.1 = [] ∧
     (s.modFed fun x => { x with slotSent := true }).fed.slotSent = true ∧ (s.setWord (Reg.FED_MUTE 15) 0x80000000).maskBit Reg.FED_MUTE 511 = true ∧
     (fedIn 511 0 fedListen).fedState ≠ fedMember ∧ (fedIn 511 0 fedListen).fedState ≠ fedMaster) := by
  refine ⟨by decide +kernel, by decide +kernel⟩

theorem test_witness_ReferencesAndSlotFrames_slots :
    (let f := slotFrame 510
     let s := fedCycle 511 0 fedMember
     s.fedActs = true ∧ leAt (natBytes f) 0 1 = 2 ∧ leAt (natBytes f) 6 2 ≤ 472 ∧ frameOk (16 + leAt (natBytes f) 6 2) (natBytes f) true = true ∧
     leAt (natBytes (slotFrame 511)) 2 2 % 512 = s.fedNode ∧ leAt (natBytes f) 2 2 % 512 ≠ s.fedNode ∧ (fedIn 511 0 fedMember).fed.ref = none ∧
     bitAt (leAt (natBytes (slotFrame 511 1)) 1 1) 0 = true ∧ (s.fed.ref.any fun r => r.2.1 == 0) = true ∧ bitAt (leAt (natBytes f) 1 1) 0 = false ∧
     s.fedExpected 1 (leAt (natBytes f) 2 2 % 512) (leAt (natBytes f) 8 8) (bitAt (leAt (natBytes f) 1 1) 0) = some 249024 ∧
     (fedIn 511 0 fedMember).fedExpected 1 510 9 false = none ∧ (fedCycle 511 1 fedMaster).fedExpected 0 510 9 true = none ∧
     249024 ≤ (248992 : Time).toNat + 32 ∧ (249072 : Time).toNat ≤ 249024 + 48 ∧ (248991 : Time).toNat + 32 < 249024 ∧ 249024 + 48 < (249073 : Time).toNat ∧
     s.fed.taken.contains (510, 9) = false ∧ leAt (natBytes f) 8 8 = s.fcyc ∧ (s.modFed fun x => { x with taken := [(510, 9)] }).fed.taken.contains (510, 9) = true ∧
     s.fedState ≠ fedMaster) ∧
    (let s := (fedCycle 3 1 fedMaster).modFed fun x => { x with c1 := some 1000 }
     s.fedState = fedMaster ∧ (3 : Nat) = s.fedNode ∧ s.fedExpected 1 510 9 false = some 250024) ∧
    (let s := (fedCycle 3 1 fedMaster).modFed fun x => { x with relays := [(511, 8, 1, [2, 2])] }
     s.fed.ref = some (0, 0, 9) ∧ (s.fed.relays.find? fun r => r.1 == (511 : Fin 512).val && r.2.1 + 1 == s.fcyc) = some (511, 8, 1, [2, 2]) ∧
     s.fedActs = true ∧ s.fedState = fedMaster ∧ (249520 : Time).toNat ≤ 0 + 152 + 488 * (511 : Fin 512).val ∧
     0 + 152 + 488 * (511 : Fin 512).val < (249521 : Time).toNat ∧ (∀ r ∈ s.fed.relays, r.1 ≠ (510 : Fin 512).val ∨ r.2.1 + 1 ≠ s.fcyc)) := by
  refine ⟨by decide +kernel, by decide +kernel, by decide +kernel⟩

theorem test_witness_DorluLinksAndMutes :
    (let s := ((fedIn 511 0 fedMember).setWord64 Reg.FED_CYC_LO 15).modFed fun x => { x with ref := some (0, 1, 15), req := some (7, 1) }
     up.fed.ref = none ∧ s.Ready 96 ∧ s.fed.ref = some (0, 1, 15) ∧ s.fedState ≠ fedMaster ∧ s.fedActs = true ∧ s.fcyc % 16 = s.fedNode % 16 ∧
     0 + 96 ≤ (96 : Time).toNat ∧ (144 : Time).toNat ≤ 0 + 144 ∧ (95 : Time).toNat < 0 + 96 ∧ 0 + 144 < (145 : Time).toNat ∧
     (s.setWord64 Reg.FED_CYC_LO 14).fcyc % 16 ≠ s.fedNode % 16 ∧
     s.fed.req = some (7, (1 : Fin 2).val) ∧ up.fed.req = none ∧ up.fedActs = false ∧
     frameOk 16 (natBytes (framed ([3] ++ List.replicate 15 0))) true = true ∧ leAt (natBytes (framed ([3] ++ List.replicate 15 0))) 0 1 = 3 ∧
     frameOk 16 (natBytes (framed ([4] ++ List.replicate 15 0))) true = true ∧ leAt (natBytes (framed ([4] ++ List.replicate 15 0))) 0 1 = 4 ∧
     frameOk 16 (natBytes (framed ([4] ++ List.replicate 15 0))) false = false) ∧
    (let s := ((fedIn 511 1 fedMaster).set Reg.FED_STAT.MODE 2).modFed fun x => { x with unreturned := true, edgeRuns := [(510, 3)] }
     s.HostReady 9 ∧ s.fedActs = true ∧ s.fedState = fedMaster ∧ s.get Reg.FED_STAT.MODE = 2 ∧ s.fed.unreturned = true ∧
     (fedIn 511 1 fedMaster).get Reg.FED_STAT.MODE ≠ 2 ∧ up.fed.unreturned = false ∧ tget 0 up.fed.edgeRuns 510 < 3 ∧
     3 ≤ tget 0 s.fed.edgeRuns 510 ∧ s.maskBit Reg.FED_MUTE 510 = false ∧ s.fed.mutes.contains 510 = false ∧ up.fedActs = false ∧ up.fedState ≠ fedMaster ∧
     (s.modFed fun x => { x with mutes := [510] }).fed.mutes.contains 510 = true ∧
     (s.setWord (Reg.FED_MUTE 15) 0x40000000).maskBit Reg.FED_MUTE (510 : Fin 512).val = true) := by
  refine ⟨by decide +kernel, by decide +kernel⟩

/-- Time domain 3 runs on port 1, domain number 255, over UDP, in a state; its last Sync had sequence number 9, its request sequence number 9. -/
def domainIn (st : Nat) : State :=
  ((((((up.set (Reg.TD_CFG.EN 3) 1).set (Reg.TD_CFG.PORT 3) 1).set (Reg.TD_CFG.DOMAIN 3) 255).set (Reg.TD_CFG.UDP 3) 1).set (Reg.TD_STATE.STATE 3) st).modTd 3
    fun x => { x with sync := some (9, 0, none, 0), req := some (9, 0) })

theorem test_witness_PortsAndTimeDomains :
    (let a : NetAddr := { (default : NetAddr) with port := 1, ip := 7 }
     let s : State := { up with img := { up.img with net := [a] } }
     s.Ready 0 ∧ s.on (Reg.ETH_STAT.LINK 1) = false ∧ s.on (Reg.ETH_STAT.LINK 1) ≠ true ∧ s.portAddr 1 (7 : Word).toNat = some a ∧ s.portAddr 1 (8 : Word).toNat = none) ∧
    ((inRole roleStandby).takesInputs = false ∧ up.takesInputs = true ∧ up.tdOf 1 (255 : Byte).toNat true = none) ∧
    (let s := domainIn tdAcquiring
     let done := s.modTd 3 fun x => { x with sync := some (9, 0, some 0, 0) }
     s.takesInputs = true ∧ s.tdOf 1 (255 : Byte).toNat true = some 3 ∧ s.tdSlave 3 = true ∧ (domainIn tdMaster).tdSlave 3 = false ∧
     (domainIn tdMaster).tdOf 1 (255 : Byte).toNat true = some 3 ∧ (done.td 3).req ≠ some ((8 : BitVec 16).toNat, 0) ∧ s.on (Reg.TD_CFG.P2P 3) = false ∧ (s.td 3).sync = some ((9 : BitVec 16).toNat, 0, none, 0) ∧
     (up.td 3).sync = none ∧ (up.td 3).req = none ∧ (done.td 3).req = some (9, 0) ∧ (done.td 3).sync = some (9, 0, some 0, 0) ∧ 9 = (9 : BitVec 16).toNat ∧
     (0 - 0 - 0) + ((done.at 0).originTime 3 (0 : BitVec 48).toNat (2 : Word).toNat - 0 - corrTime 0) = 1 * (2 * nsUnit) ∧
     (s.set (Reg.TD_CFG.P2P 3) 1).on (Reg.TD_CFG.P2P 3) = true ∧ ((s.set (Reg.TD_CFG.P2P 3) 1).td 3).req = some (9, 0) ∧
     (s.at 0).rxTime 3 1 - 0 - corrTime 0 - corrTime 0 = 0 * (2 * nsUnit)) := by
  refine ⟨by decide +kernel, by decide +kernel, by decide +kernel⟩

/-- Every time has a half in whole nanoseconds, so the clauses that ask for one are met at every time. -/
theorem test_halfNs_exists (sum : Int) : ∃ m, HalfNs sum m := by
  unfold HalfNs
  split
  · exact ⟨sum / (2 * nsUnit), (Int.ediv_mul_cancel (Int.dvd_of_emod_eq_zero ‹_›)).symm⟩
  · exact ⟨_, rfl⟩

theorem test_witness_PortsAndTimeDomains_states :
    ((domainIn tdMaster).tdState 3 = tdMaster ∧ (domainIn tdLocked).tdState 3 ≠ tdMaster ∧ ((domainIn tdMaster).td 3).sentAt = none ∧
     ((domainIn tdMaster).set (Reg.TD_CFG.ROLE 3) 2).get (Reg.TD_CFG.ROLE 3) = 2 ∧ (domainIn tdMaster).get (Reg.TD_CFG.ROLE 3) ≠ 2 ∧
     (domainIn tdLocked).get (Reg.TD_CFG.ROLE 3) = 0 ∧ (((domainIn tdMaster).modTd 3 fun x => { x with sentAt := some 5 }).td 3).sentAt = some 5 ∧
     (domainIn tdLocked).tdSlave 3 = true ∧ (4 : Time).toNat < 5 + (domainIn tdMaster).syncNs 3 ∧ ((domainIn tdMaster).set (Reg.TD_CFG.ONE_STEP 3) 1).on (Reg.TD_CFG.ONE_STEP 3) = true) ∧
    (let s := ((domainIn tdHoldover).set (Reg.TD_STAT.CAUSE 3) tcDelay).modTd 3 fun x => { x with stable := some (0, 2, 7 * ((2 : Nat) : Int), 0, 0) }
     (domainIn tdLocked).tdState 3 = tdLocked ∧ s.tdState 3 ≠ tdLocked ∧ s.tdState 3 ≠ tdAcquiring ∧ (up.td 3).stable = none ∧
     (s.td 3).stable = some (0, 2, 7 * ((2 : Nat) : Int), 0, 0) ∧ s.tdState 3 = tdHoldover ∧ s.get (Reg.TD_STAT.CAUSE 3) = tcDelay ∧
     s.HostReady 60000000000 ∧ 0 + 60000000000 ≤ (60000000000 : Time).toNat ∧ (s.set (Reg.TD_STAT.CAUSE 3) tcJump).get (Reg.TD_STAT.CAUSE 3) = tcJump ∧
     s.get (Reg.TD_STAT.CAUSE 3) ≠ tcJump ∧ (59999999999 : Time).toNat < 0 + 60000000000 ∧
     ((s.modTd 3 fun x => { x with cmd := some 2 }).td 3).cmd = some 2 ∧ ((s.modTd 3 fun x => { x with cmd := some 1 }).td 3).cmd = some 1 ∧
     (s.td 3).cmd ≠ some 2 ∧ (7 : Int) * ((2 : Nat) : Int) + 1 ≠ 0 ∧ (7 * ((2 : Nat) : Int) + 1) % ((2 : Nat) : Int) ≠ 0) ∧
    ((domainIn tdLocked).syncNs 3 * 3 ≤ (1000000000000 : Time).toNat ∧ ((domainIn tdLocked).td 3).syncAt = 0 ∧
     (domainIn tdLocked).on (Reg.ETH_STAT.LINK ((domainIn tdLocked).get (Reg.TD_CFG.PORT 3))) = false ∧
     ((domainIn tdLocked).set (Reg.ETH_STAT.LINK 1) 1).on (Reg.ETH_STAT.LINK 1) = true ∧ (domainIn tdAcquiring).get (Reg.TD_CFG.ROLE 3) = 0) ∧
    (let s := ((domainIn tdAcquiring).set (Reg.TD_THRESH.LOCK_NS 3) 100).modTd 3 fun x => { x with back := true, seen := true, good := 15 }
     let m := (domainIn tdHoldover).set (Reg.TD_STAT.CAUSE 3) tcMaster
     s.tdState 3 = tdAcquiring ∧ (s.td 3).back = true ∧ (s.td 3).seen = true ∧ s.stepMax 3 < (2 ^ 31 - 1 : Int).natAbs ∧ 15 ≤ (s.td 3).good ∧
     (0 : Int).natAbs < s.lockNs 3 ∧ (0 : Int).natAbs ≤ s.stepMax 3 ∧ m.tdState 3 = tdHoldover ∧ m.get (Reg.TD_STAT.CAUSE 3) = tcMaster) ∧
    (let s := domainIn tdLocked
     (domainIn tdAcquiring).tdState 3 = tdAcquiring ∧ ((domainIn tdAcquiring).td 3).seen = false ∧
     ((domainIn tdAcquiring).td 3).back = false ∧ s.tdState 3 = tdLocked ∧ ((0 : Int) - sx 32 (s.word (Reg.TD_MPD_REF 3))).natAbs ≤ s.delayStep 3 ∧
     ((0 : Int)).natAbs ≤ s.stepMax 3 ∧ s.stepMax 3 < (2 ^ 31 - 1 : Int).natAbs ∧
     (-(2 ^ 31) : Int) ≤ -(2 ^ 31) ∧ (2 ^ 31 - 1 : Int) < 2 ^ 31 ∧ s.delayStep 3 < ((2 ^ 30 : Int) - sx 32 (s.word (Reg.TD_MPD_REF 3))).natAbs) := by decide +kernel
/-- A device whose point-stream port takes writes; queue 15 with an assembly buffer. -/
def streaming (n : Nat) (staged : Option QWord) : State :=
  (up.set Reg.DEV_STATE.STATE devStopping).modQueue 15 fun x => { x with asm := List.replicate n 0, staged := staged }

theorem test_witness_QueuesTakeWords :
    (up.Ready 0 ∧ up.psOpen = false ∧ (streaming 31 none).psOpen = true ∧ (14 : Fin 16) ≠ 15 ∧ (streaming 31 (some default)).psReady 15 = false ∧
     (inRole roleStandby).takesInputs = false ∧ up.takesInputs = true ∧ up.psErrAt = none ∧ ({ up with psErrAt := some 7 } : State).psErrAt = some 7 ∧
     7 + 1000000000 ≤ (1000000007 : Time).toNat ∧ (1000000006 : Time).toNat < 7 + 1000000000 ∧
     (((streaming 30 none).modQueue 15 fun x => { x with flushAt := some 7 }).queue 15).flushAt = some 7 ∧ (7 : Time).toNat ≤ 7 ∧ 7 < (8 : Time).toNat) ∧
    ((streaming 30 none).psReady 15 = true ∧ ((streaming 30 none).queue 15).asm.length ≠ 31 ∧ (streaming 31 none).psReady 15 = true ∧
     ((streaming 31 none).queue 15).asm.length = 31 ∧ ((streaming 31 none).queue 15).staged = none ∧
     (streaming 30 (some default)).psReady 15 = true ∧ ((streaming 30 (some default)).queue 15).staged.isSome = true) ∧
    (let s := (streaming 0 (some default)).modQueue 15 fun x => { x with words := List.replicate 511 default }
     let full := s.modQueue 15 fun x => { x with words := List.replicate 512 default }
     s.Ready 0 ∧ (s.queue 15).staged = some default ∧ (s.queue 15).words.length < 512 ∧ s.get (Reg.Q_CFG.MODE 15) = 0 ∧ (s.queue 15).discard = false ∧
     512 ≤ (full.queue 15).words.length ∧ (s.queue 15).fullAt ≠ some (0 : Time).toNat ∧
     ((s.modQueue 15 fun x => { x with fullAt := some 0 }).queue 15).fullAt = some (0 : Time).toNat ∧ s.inPair = false ∧ (inRole roleActive).inPair = true) ∧
    (let s := up.modQueue 31 fun x => { x with words := List.replicate 512 default }
     up.HostReady 0 ∧ (15 : Fin 32).val < 16 ∧ 32 < (33 : Fin 64).val ∧ ((31 : Fin 64).val < 32 ∧ false = false) ∧ 16 ≤ (16 : Fin 32).val ∧ 0 < (1 : Fin 64).val ∧
     (32 : Fin 64).val ≤ 32 ∧ 512 ≤ (s.queue 31).words.length ∧ (up.queue 31).words.length < 512 ∧ (up.queue 31).fullAt ≠ some (0 : Time).toNat ∧ (up.queue 31).flushAt = none ∧
     ((up.modQueue 31 fun x => { x with flushAt := some 7 }).queue 31).flushAt = some 7 ∧
     ((up.modQueue 31 fun x => { x with fullAt := some 7 }).queue 31).fullAt = some (7 : Time).toNat ∧ up.get (Reg.Q_CFG.MODE 31) = 0 ∧ (up.queue 31).discard = false) ∧
    ((1 ≤ (510 : Fin 512).val ∧ (510 : Fin 512).val < (511 : Fin 512).val) ∧ ¬ (1 ≤ (511 : Fin 512).val ∧ (511 : Fin 512).val < (511 : Fin 512).val)) := by
  decide +kernel

/-- The bytes of a section entry: KIND, LEN, body (R373). -/
def entryOf (kind : Nat) (body : List Nat) : List Nat := leBytes 2 kind ++ [0, 0] ++ leBytes 4 body.length ++ body

/-- A REG entry that loads the pairs listed (R375). -/
def regEntry (l : List (Nat × Nat)) : List Nat := entryOf 1 (l.flatMap fun p => leBytes 4 p.1 ++ leBytes 4 p.2)

/-- The least configuration, SEGP, SEPA and SAFE: no island, no axis, no ring. -/
def leastSegp : List Nat := regEntry ((Reg.SCHED_CFG, 10 * 65536 + 1) :: (List.range 33).map fun t => (Reg.FAB_TGT_CFG t, 1))
def leastSepa : List Nat := regEntry [(Reg.SEP_CFG, 16)]
def leastSafe : List Nat :=
  entryOf 22 (leBytes 8 (safetySignature (entryOf 22 (List.replicate 8 0))))

/-- The header and the section table of an image of these three sections and the six other required ones, empty. -/
def leastImage : List Nat :=
  let o1 := 0x180
  let o2 := o1 + (leastSegp.length + 15) / 16 * 16
  let o3 := o2 + (leastSepa.length + 15) / 16 * 16
  let o4 := o3 + (leastSafe.length + 15) / 16 * 16
  let row := fun (tag o : Nat) (b : List Nat) => leBytes 4 tag ++ leBytes 4 o ++ leBytes 4 b.length ++ leBytes 4 (crc32c b)
  let pad := fun (b : List Nat) => b ++ List.replicate ((b.length + 15) / 16 * 16 - b.length) 0
  let rest := ([tagGLBL, tagISLD, tagAXES, tagRING, tagLAWS].flatMap fun g => row g o1 []) ++ row tagSEGP o1 leastSegp ++ row tagSEPA o2 leastSepa ++
    row tagSAFE o3 leastSafe ++ pad leastSegp ++ pad leastSepa ++ pad leastSafe
  let head := leBytes 4 0x4D49514B ++ leBytes 2 1 ++ leBytes 2 256 ++ leBytes 4 1 ++ leBytes 4 o4 ++ leBytes 4 (crc32c rest) ++ leBytes 2 8 ++ [0, 0] ++
    leBytes 4 0x4B510256 ++ List.replicate 224 0
  head ++ leBytes 4 (crc32c head) ++ rest

/-- A check of an image is due: its header in the buffer, the rest in copy 1 of the flash. -/
def checking (img : List Nat) : State :=
  { (((up.set Reg.IMG_STAT.PHASE 3).set Reg.IMG_STAT.TARGET 1).set Reg.FL_INFO.PRESENT 1).set Reg.FL_INFO.SIZE_MIB 128 with
    flash := (List.range' (copyBase 1 + 256) (img.drop 256).length).zip ((img.drop 256).map (BitVec.ofNat 8 ·))
    imgSess := { (default : ImgSess) with hdr := (List.range' 0 256).zip img } }

theorem tget?_zip {α : Type} (n : Nat) : ∀ (l : List α) (a i : Nat), i < n → tget? (a + i) ((List.range' a n).zip l) = l[i]? := by
  induction n with
  | zero => intro l a i h; omega
  | succ n ih =>
    intro l a i h
    cases l with
    | nil => simp [tget?]
    | cons x l =>
      cases i with
      | zero => simp [List.range'_succ, tget?]
      | succ i => simpa [List.range'_succ, tget?, show a + 1 + i = a + (i + 1) by omega] using ih l (a + 1) i (by omega)

/-- What the check of that copy reads is the image. -/
theorem checking_reads (img : List Nat) (h : 256 ≤ img.length) (hb : ∀ b ∈ img, b < 256) :
    (checking img).imgSess.header = img.take 256 ∧ (checking img).flashRead (copyBase 1 + 256) (img.length - 256) = img.drop 256 := by
  constructor
  · apply List.ext_getElem
    · simp [ImgSess.header]; omega
    · intro i h1 h2
      have hi : i < 256 := by simpa [ImgSess.header] using h1
      have := tget?_zip 256 img 0 i hi
      simp only [Nat.zero_add] at this
      simp [ImgSess.header, checking, tget, this, show i < img.length by omega]
  · apply List.ext_getElem
    · simp [State.flashRead, mread]
    · intro i h1 h2
      have hi : i < (img.drop 256).length := h2
      have := tget?_zip (img.drop 256).length ((img.drop 256).map (BitVec.ofNat 8 ·)) (copyBase 1 + 256) i hi
      have hi' : 256 + i < img.length := by simp at hi; omega
      have hm : img[256 + i] < 256 := hb _ (List.getElem_mem _)
      simp only [State.flashRead, mread, mget, tget, checking, List.getElem_map, List.getElem_range, this]
      simp [hi', Nat.mod_eq_of_lt hm]

theorem test_witness_ImagesAreWritten_check :
    (let s := checking leastImage; s.Ready 0 ∧ s.get Reg.IMG_STAT.PHASE = 3 ∧ s.get Reg.IMG_STAT.TARGET = 1 ∧ s.on Reg.IMG_STAT.BUSY = false ∧ s.flashOk = true) ∧
    ((checking []).set Reg.FL_INFO.SIZE_MIB 127).flashOk = false := by decide +kernel

theorem test_witness_ImagesAreWritten_bytes : 256 ≤ leastImage.length ∧ ∀ b ∈ leastImage, b < 256 := by decide +kernel
theorem test_witness_ImagesAreWritten_length : imgLength (leastImage.take 256) = leastImage.length := by decide +kernel
theorem test_witness_ImagesAreWritten_accepted : checkImage leastImage = none := by decide +kernel
theorem test_witness_ImagesAreWritten_rejected : checkImage (List.replicate 256 0) = some ⟨2, 0, 0⟩ := by decide +kernel

theorem test_witness_ImagesAreWritten :
    (let s := up.set Reg.IMG_STAT.PHASE 2
     up.HostReady 0 ∧ up.get Reg.IMG_STAT.PHASE = 0 ∧ s.get Reg.IMG_STAT.PHASE = 2 ∧ (0x1FFFFFC : Word).toNat < 0x2000000 ∧ (0x1FFFFFC : Word).toNat % 4 = 0 ∧
     0x2000000 ≤ (0x2000000 : Word).toNat ∧ s.imgSess.ofsBad = false ∧ s.word Reg.IMG_OFS < 0x100 ∧ 0x100 ≤ (s.setWord Reg.IMG_OFS 0x100).word Reg.IMG_OFS ∧
     (s.setWord Reg.IMG_OFS 0x1FFFFFC).word Reg.IMG_OFS < 0x2000000 ∧ tget false s.imgSess.done 0x1FFFFFC = false ∧ (s.at 0).flashPending = false ∧
     0x2000000 ≤ (s.setWord Reg.IMG_OFS 0x2000000).word Reg.IMG_OFS ∧ (0x1FFFFFD : Word).toNat % 4 ≠ 0 ∧
     ({ s with imgSess := { s.imgSess with ofsBad := true } } : State).imgSess.ofsBad = true ∧ ({ s.at 0 with mirrorBusy := [4095] } : State).flashPending = true ∧
     tget false ({ s with imgSess := { s.imgSess with done := [(0x100, true)] } } : State).imgSess.done 0x100 = true ∧ s.get Reg.IMG_STAT.PHASE ≠ 0) ∧
    (up.get Reg.IMG_STAT.PHASE ≠ 1 ∧ (up.set Reg.IMG_STAT.PHASE 1).get Reg.IMG_STAT.PHASE = 1 ∧ up.get Reg.IMG_STAT.PHASE ≠ 3 ∧
     up.mirrorBusy.contains 4095 = false ∧ ({ up with mirrorBusy := [4095] } : State).mirrorBusy.contains 4095 = true) := by decide +kernel

/-- The device in LOAD, with an image as copy A of the flash. -/
def loading (img : List Nat) : State :=
  { ((up.set Reg.DEV_STATE.STATE devLoad).set Reg.FL_INFO.PRESENT 1).set Reg.FL_INFO.SIZE_MIB 128 with
    flash := (List.range' 0 img.length).zip (img.map (BitVec.ofNat 8 ·)) }

theorem loading_flash (img : List Nat) (hb : ∀ b ∈ img, b < 256) (t : Time) (n : Nat) (h : n ≤ img.length) :
    ((loading img).at t).flashRead (copyBase 0) n = img.take n := by
  show (loading img).flashRead (copyBase 0) n = img.take n
  apply List.ext_getElem
  · simp [State.flashRead, mread]; omega
  · intro i h1 h2
    have hi : i < img.length := by simp [State.flashRead, mread] at h1; omega
    have := tget?_zip img.length (img.map (BitVec.ofNat 8 ·)) 0 i hi
    have hm : img[i] < 256 := hb _ (List.getElem_mem _)
    simp only [Nat.zero_add] at this
    simp [State.flashRead, mread, mget, tget, loading, copyBase, this, hi, Nat.mod_eq_of_lt hm]

theorem loading_accepted (img : List Nat) (t : Time) (hb : ∀ b ∈ img, b < 256) (hl : 256 ≤ img.length) (hm : img.length ≤ imgMax)
    (hn : imgLength (img.take 256) = img.length) (hc : checkImage img = none) (b : Bool) : (((loading img).at t).readCopies true b).2 = true := by
  have hf : ((loading img).at t).flashOk = true := by
    show (((up.set Reg.DEV_STATE.STATE devLoad).set Reg.FL_INFO.PRESENT 1).set Reg.FL_INFO.SIZE_MIB 128).flashOk = true
    decide +kernel
  have hk : ((loading img).at t).copyBytes 0 = img := by
    simp [State.copyBytes, loading_flash img hb t, hl, hn, hm, Nat.max_eq_right hl]
  have h0 : ((loading img).at t).checkCopy 0 true = none := by simp [State.checkCopy, hf, hk, hc]
  simp only [State.readCopies, h0]
  cases ((loading img).at t).checkCopy 1 b <;> rfl

theorem test_witness_PowerUpWaitsForChannelB_load :
    (loading leastImage).Ready 0 ∧ (loading leastImage).devState = devLoad ∧ (((loading leastImage).at 0).readCopies true true).2 = true :=
  ⟨by decide +kernel, by decide +kernel, loading_accepted leastImage 0 test_witness_ImagesAreWritten_bytes.2 test_witness_ImagesAreWritten_bytes.1
    (by decide +kernel) test_witness_ImagesAreWritten_length test_witness_ImagesAreWritten_accepted true⟩
/-- A self-test runs, on a path, from instant 0: its groups. -/
def testing (path : Nat) (groups : List (Nat × List Nat × Nat)) : State :=
  (up.set Reg.DEV_STATE.STATE devShutdownTest).modRep fun r => { r with run := some { (default : TestRun) with path := path, groups := groups } }

theorem test_witness_TestsAndRepair_steps :
    (let run := fun (path : Nat) (g : List (Nat × List Nat × Nat)) => (testing path g).rep.run
     let x := fun (path : Nat) (g : List (Nat × List Nat × Nat)) => ({ (default : TestRun) with path := path, groups := g } : TestRun)
     (testing 0 []).Ready 50000000 ∧ up.rep.run = none ∧ run 0 [] = some (x 0 []) ∧ (x 0 []).groups = [] ∧
     (49999999 : Time).toNat < (x 0 [(1, [0], 2)]).since + 50000000 ∧
     run 0 [(1, [0], 2), (2, [1], 1)] = some (x 0 [(1, [0], 2), (2, [1], 1)]) ∧ (x 0 [(1, [0], 2)]).since + 50000000 ≤ (50000000 : Time).toNat ∧
     (x 0 []).abandon = false ∧ (x 0 []).step + 1 < 2 ∧ 1 ≤ (x 0 []).step + 1 ∧ (x 0 []).path = 0 ∧ (x 0 []).path ≠ 3 ∧ (x 3 []).path = 3 ∧
     (testing 3 [(1, [0], 1)]).get Reg.ST_STAT.FAILS = 0 ∧ run 3 [(1, [255], 2)] = some (x 3 [(1, [255], 2)]) ∧ [255] = [(255 : Byte).toNat] ∧
     (255 : Byte).toNat ∈ [254, 255] ∧ ({ (x 0 [(1, [0], 2)]) with abandon := true }).abandon = true ∧
     ((testing 0 []).modRep fun r => { r with run := some { (x 0 [(1, [0], 2)]) with abandon := true } }).rep.run =
       some { (x 0 [(1, [0], 2)]) with abandon := true }) ∧
    ((({ testing 0 [] with mirrorBusy := [0] } : State).at 0).flashPending = true) ∧
    (up.devState ≠ devShutdownTest ∧ (testing 0 []).devState = devShutdownTest ∧ ((testing 0 []).at 0).flashPending = false) ∧
    (let s := up.modRep fun r => { r with due := [4, 3] }
     up.rep.due = [] ∧ s.Ready 0 ∧ s.rep.due = 4 :: [3] ∧ (s.at 0).flashPending = false ∧ (up.set Reg.FL_INFO.PRESENT 1).on Reg.FL_INFO.PRESENT = true ∧
     up.on Reg.FL_INFO.PRESENT = false) := by decide +kernel

/-- A rotation in a phase, in commissioning and in AUTOMATIC. -/
def rotation (ph : Nat) : State :=
  { ((up.set Reg.DEV_STATE.STATE devAutomatic).set (Reg.ROT_CFG.EN) 1).set Reg.ROT_STAT.PHASE ph with nvm := { up.nvm with lifecycle := lcCommission } }

theorem test_witness_TestsAndRepair_rotation :
    (let s := rotation rotIdle
     let none' := { s with rep := { s.rep with factoryFailed := List.range 256 } }
     (up.set Reg.ROT_CFG.EN 0).on Reg.ROT_CFG.EN = false ∧ s.Ready 40000000 ∧ s.on Reg.ROT_CFG.EN = true ∧ s.lifecycle = lcCommission ∧ s.devState = devAutomatic ∧
     s.get Reg.ROT_STAT.PHASE = rotIdle ∧ s.rep.rotAt + s.get Reg.ROT_CFG.PERIOD * 1000000000 ≤ (s.get Reg.ROT_CFG.PERIOD) * 1000000000 ∧
     s.get Reg.ROT_CFG.PERIOD * 1000000000 < 2 ^ 64 ∧ lcService ≠ lcCommission ∧ lcService ≠ lcProduction ∧
     ({ s with nvm := { s.nvm with lifecycle := lcService } } : State).lifecycle = lcService ∧ up.devState ≠ devReduced ∧
     up.devState ≠ devAutomatic ∧ (rotation rotTesting).get Reg.ROT_STAT.PHASE ≠ rotIdle ∧
     (s.set Reg.ROT_CFG.PERIOD 1).get Reg.ROT_CFG.PERIOD = 1 ∧ (999999999 : Time).toNat < (s.set Reg.ROT_CFG.PERIOD 1).rep.rotAt + 1 * 1000000000 ∧
     (s.set Reg.ROT_STAT.SUSPENDED 1).on Reg.ROT_STAT.SUSPENDED = true ∧ none'.freeEngines = [] ∧ s.freeEngines = 16 :: [17]) ∧
    ((rotation rotIdle).get Reg.ROT_STAT.PHASE ≠ rotCopying ∧ (rotation rotIdle).get Reg.ROT_STAT.PHASE ≠ rotReturning ∧
     (rotation rotCopying).get Reg.ROT_STAT.PHASE = rotCopying ∧ ((rotation rotCopying).at 0).rotPathOk = true ∧
     (((rotation rotCopying).setWord Reg.FAB_ISO_LO (2 ^ 18)).at 0).rotPathOk = false ∧
     (rotation rotReturning).get Reg.ROT_STAT.PHASE = rotReturning ∧ ((rotation rotTesting).modRep fun r => { r with rotPaused := true }).rep.rotPaused = true ∧
     (rotation rotTesting).get Reg.ROT_STAT.PHASE = rotTesting ∧ (rotation rotTesting).rep.rotPaused = false ∧
     (39999999 : Time).toNat < (rotation rotTesting).rep.rotTest + 40000000 ∧ (rotation rotTesting).rep.rotTest + 40000000 ≤ (40000000 : Time).toNat) := by
  decide +kernel

theorem test_witness_TestsAndRepair_hostCommands :
    (elemKind 135 ≤ 2 ∧ elemKind 15 ≤ 2 ∧ up.rep.rcd.state 15 = 0 ∧ 15 ∉ up.rep.factoryFailed ∧ 15 - kindBase (elemKind 15) ∈ up.rep.rcd.map.of (elemKind 15) ∧
     up.rep.free (elemKind 15) (up.rep.rcd.map.of (elemKind 15)) = 16 :: [17] ∧
     (let s := up.modRep fun r => { r with factoryFailed := [16, 17] }; s.rep.free (elemKind 15) (s.rep.rcd.map.of (elemKind 15)) = []) ∧
     (let s := up.modRep fun r => { r with factoryFailed := [15], rcd := { r.rcd with elems := [(16, 1)] } }
      s.rep.rcd.state 16 ≠ 0 ∧ 15 ∈ s.rep.factoryFailed ∧ up.rep.rcd.state 17 = 0 ∧ elemKind 17 ≤ 2 ∧ 17 ∉ up.rep.factoryFailed ∧
      17 - kindBase (elemKind 17) ∉ up.rep.rcd.map.of (elemKind 17)) ∧
     elemKind 175 = 3 ∧ up.rep.rcd.rowsUsed 175 + (List.range 16).length ≤ spareRows 175 ∧ spareRows 175 < up.rep.rcd.rowsUsed 175 + (List.range 17).length ∧
     elemKind 177 = 4 ∧ up.rep.rcd.rowsUsed 177 + (List.range 256).length ≤ spareRows 177 ∧ spareRows 177 < up.rep.rcd.rowsUsed 177 + (List.range 257).length ∧
     elemKind 178 = 5) ∧
    (let s := fun (l : Nat) => ({ up with nvm := { up.nvm with lifecycle := l } } : State)
     let on := fun (l : Nat) => ({ cell with nvm := { up.nvm with lifecycle := l } } : State).set (Reg.AX_STATE.STATE 5) axEnabled
     up.HostReady 0 ∧ ((s 5).lifecycle, (7 : Fin 8).val) ∉ [(0, 1), (1, 2), (2, 3), (3, 4), (4, 3), (2, 5), (3, 5), (4, 5)] ∧
     ((s 3).lifecycle, (4 : Fin 8).val) ∈ [(0, 1), (1, 2), (3, 4), (4, 3), (2, 5), (3, 5), (4, 5)] ∧ ((s 4).written 0).allOff = true ∧
     ((on 4).written 0).allOff = false ∧ (s 1).lifecycle = lcManufacture ∧
     ((s 0).lifecycle, (1 : Fin 8).val) ∈ [(0, 1), (1, 2)] ∧ ((s 2).lifecycle, (3 : Fin 8).val) = (2, 3) ∧ ((s 2).written 0).allOff = true ∧
     ((on 2).written 0).allOff = false ∧ ((s 4).lifecycle, (5 : Fin 8).val) ∈ [(3, 4), (4, 3), (2, 5), (3, 5), (4, 5)]) ∧
    (let s := ({ up.set Reg.DEV_STATE.STATE devSafeHold with nvm := { up.nvm with lifecycle := lcService } } : State)
     let bad := s.modRep fun r => { r with rcd := { r.rcd with elems := [(177, 1)] }, passes := [(177, 3)] }
     (up.lifecycle ≠ lcManufacture ∧ up.lifecycle ≠ lcService) ∧ s.HostReady 0 ∧ s.lifecycle = lcService ∧ (177 : Byte).toNat ∈ allElements ∧ s.rep.run = none ∧
     s.devState = devSafeHold ∧ (255 : Byte).toNat ∉ allElements ∧ s.rep.rcd.state 177 = 0 ∧ tget 0 s.rep.passes 177 < 3 ∧
     (testing 0 []).rep.run.isSome = true ∧ (up.written 0).outOfService (0 : Byte).toNat = false ∧ up.devState ≠ devUnconfigured ∧ up.devState ≠ devSafeHold ∧
     (bad.written 0).outOfService (16 : Byte).toNat = true ∧ ((bad.set Reg.DEV_STATE.STATE devUnconfigured).devState = devUnconfigured) ∧
     bad.rep.rcd.state 177 ≠ 0 ∧ 3 ≤ tget 0 bad.rep.passes 177) := by decide +kernel
theorem test_witness_ServiceRequestsAreAnswered :
    (up.Ready 0 ∧ writeStatus (3 : Word).toNat ≠ 0 ∧ up.get Reg.DPX_STAT.ROLE = 0 ∧ (0x40000000 : Word).toNat % 4 = 0 ∧ inDram (0xBFDFFFFC : Word).toNat = true ∧
     fabWritable (0xBFDFFFFC : Word).toNat = true ∧ (BitVec.ofNat 32 (Reg.HQ_DATA 7)).toNat = Reg.HQ_DATA 7 ∧ (inRole roleStandby).ignoresWrite 0 = true ∧
     (inRole roleStandby).ignoresWrite Reg.LOG_RPTR = true ∧ up.ignoresWrite Reg.LOG_RPTR = false ∧
     (BitVec.ofNat 32 Reg.TSC_HI).toNat ≠ Reg.FL_DATA ∧ tget 0 up.latches Reg.TSC_HI = 0 ∧ latchCount Reg.TSC_HI = 0) ∧
    (let s : State := { up with img := { up.img with net := [{ (default : NetAddr) with port := 1 }] } }
     let x : SvcClient := { (default : SvcClient) with ip := 1, port := 2, tag := 3 }
     let kept : State := { s with svc := { s.svc with clients := [x] } }
     let bad := framed ([0x4B, 0x53, 1, 7] ++ List.replicate 16 0)
     up.portUp 1 = false ∧ s.portUp 1 = true ∧ (kept.svc.clients.find? fun x => x.ip == 1 && x.port == 2 && x.tag == 3) = some x ∧
     (s.svc.clients.find? fun x => x.ip == 1 && x.port == 2 && x.tag == 3) = none ∧ ([] : List Byte).length < 24 ∧ 24 ≤ bad.length ∧
     leAt (natBytes bad) 0 2 = 0x534B ∧ leAt (natBytes bad) 2 1 = 1 ∧
     crc32c ((natBytes bad).take (bad.length - 4)) = leAt (natBytes bad) (bad.length - 4) 4 ∧ 6 < leAt (natBytes bad) 3 1 ∧
     (s.svc.clients.find? fun x => x.ip == 1 && x.port == 2 && x.tag == leAt (natBytes bad) 4 4) = none) ∧
    (let q := fun (op count n : Nat) => ({ op := op, tag := 0, addr := 0, count := count, flags := 0, data := List.replicate n 0 } : UdpReq)
     (q 7 0 0).fits = false ∧ (q 0 0 0).fits = true ∧ (q 1 360 0).fits = true ∧ (q 3 361 0).fits = false ∧ (q 2 1 4).fits = true ∧ (q 4 1 4).fits = true ∧
     (q 5 1 36).fits = true ∧ (q 6 45 0).fits = true ∧ (inRole roleStandby).takesInputs = false ∧
     up.takesInputs = true ∧ (q 1 360 0).addr < 2 ^ 32 ∧ (q 2 360 1440).fits = true ∧ (q 5 40 1440).fits = true ∧ bitAt (q 6 45 0).flags 0 = false ∧
     bitAt ({ (q 6 45 0) with flags := 3 } : UdpReq).flags 0 = true ∧ ({ (q 6 45 0) with flags := 3 } : UdpReq).fits = true ∧
     (inRole roleStandby).get Reg.DPX_STAT.ROLE = 2 ∧ (inRole roleStandby).ignoresWrite Reg.IMG_OFS = true) ∧
    (writeStatus Reg.FED_LOOP ≠ 0 ∧ writeStatus Reg.IMG_OFS = 0) := by decide +kernel

theorem test_witness_ServiceRequestsAreAnswered_records : ∀ i, (tget [] up.logst.buf i).length ≤ 32 := by
  intro i; exact Nat.zero_le _
theorem test_witness_LogAndPower :
    (up.HostReady 0 ∧ up.logst.held ≤ 65536 ∧ (2 ^ 32 - 1 : Nat) < 2 ^ 32 ∧
     (let s : State := { up with logst := { up.logst with held := 5 } }
      (s.wptr + 2 ^ 32 - (2 ^ 32 - 5)) % 2 ^ 32 ≤ s.logst.held ∧ s.logst.held < (s.wptr + 2 ^ 32 - 2 ^ 31) % 2 ^ 32 ∧
      (s.wptr + 2 ^ 32 - 2 ^ 31) % 2 ^ 32 ≤ 2 ^ 31 ∧ 2 ^ 31 < (s.wptr + 2 ^ 32 - 1) % 2 ^ 32)) ∧
    (let s : State := { up.set Reg.DEV_STATE.STATE devReduced with toLog := [default], logst := { up.logst with dram := true } }
     up.toLog = [] ∧ up.devState = devPowerUp ∧ s.Ready 0 ∧ s.toLog = default :: [] ∧ s.devState ≠ devPowerUp ∧ s.logst.dram = true ∧
     s.get Reg.LOG_UNREAD.UNREAD < 65536 ∧ 65536 ≤ (s.set Reg.LOG_UNREAD.UNREAD 65536).get Reg.LOG_UNREAD.UNREAD ∧
     ({ (default : EventRec) with archived := true } : EventRec).archived = true ∧ (default : EventRec).remote = false ∧ (default : EventRec).archived = false ∧
     ({ s with logst := { s.logst with dram := false } } : State).logst.dram = false ∧ s.get Reg.LOG_UNREAD.UNREAD < 256 ∧
     256 ≤ (s.set Reg.LOG_UNREAD.UNREAD 256).get Reg.LOG_UNREAD.UNREAD ∧ ({ (default : EventRec) with archived := true, remote := true } : EventRec).remote = true) ∧
    (let s : State := { up.set Reg.FL_INFO.PRESENT 1 with arc := { up.arc with buf := [default] } }
     (up.at 0).arcDue = false ∧ s.Ready 10000000000 ∧ (s.at 10000000000).arcDue = true ∧ s.on Reg.FL_INFO.PRESENT = true ∧ s.arc.pos % 65536 = 0 ∧
     ({ s.arc with pos := 0x6010000 - 4096 } : ArcSt).pos % 65536 ≠ 0 ∧ s.arc.pos < 2 ^ 32 ∧ s.arc.pseq < 2 ^ 32 ∧
     s.imgSess.waiting = [] ∧ up.on Reg.FL_INFO.PRESENT = false) ∧
    (950 < (951 : BitVec 16).toNat ∧ (950 : BitVec 16).toNat ≤ 950 ∧ 7360 ≤ tjOf (goodSensors [7360]) ∧ tjOf (goodSensors (List.replicate 16 6719)) < 6720 ∧
     6720 ≤ tjOf (goodSensors []) ∧ tjOf (goodSensors []) < 7360) ∧
    (let s := up.modGov fun g => { g with hot := some 0 }
     true = s.gov.hot.any (fun x => decide (x + 1000000000 ≤ (1000000000 : Time).toNat)) ∧
     1 ≤ (s.set Reg.PT_STAT.LEVEL 2).get Reg.PT_STAT.LEVEL ∧ (s.set Reg.PT_STAT.LEVEL 2).get Reg.PT_STAT.LEVEL < 3 ∧
     (s.set Reg.PT_STAT.LEVEL 3).get Reg.PT_STAT.LEVEL = 3 ∧ false = up.gov.hot.any (fun x => decide (x + 1000000000 ≤ (0 : Time).toNat)) ∧
     up.get Reg.PT_STAT.LEVEL = 0 ∧
     true = (up.modGov fun g => { g with cool := some 0 }).gov.cool.any (fun x => decide (x + 1000000000 ≤ (1000000000 : Time).toNat)) ∧
     false = up.gov.cool.any (fun x => decide (x + 1000000000 ≤ (0 : Time).toNat))) ∧
    (up.gov.powered < up.gov.stored + 230400 ∧ ((up.modGov fun g => { g with powered := 230400 }).gov.stored + 230400 ≤
      (up.modGov fun g => { g with powered := 230400 }).gov.powered)) := by decide +kernel

/-! ### Ill-formed commands are refused, one for each check of WellFormed -/

theorem test_smoke_dualAccumulator : (Instr.leMpy2 0 7 0 0 none none).wellFormed = false ∧ (Instr.leMac2 0 1 0 0 none none).wellFormed = false ∧
    (Instr.leMsu2 0 3 0 0 none none).wellFormed = false ∧ (Instr.leMpy2 0 6 0 0 none none).wellFormed = true := by decide
theorem test_smoke_sensors : (Instr.governorSample 0 (List.replicate 15 0) 0).wellFormed = false := by decide +kernel
theorem test_smoke_fabricRequests : (Instr.fabricGrant 0 0 [(1, 1), (1, 2)]).wellFormed = false ∧ (Instr.fabricGrant 0 0 [(1, 0)]).wellFormed = false := by
  decide +kernel
theorem test_smoke_failures : (Instr.selftestStepEnd 0 [(3, []), (3, [1])]).wellFormed = false := by decide +kernel
theorem test_smoke_spiWrite : (Instr.spiWrite 0 0 []).wellFormed = false ∧ (Instr.spiWrite 0 0 [1]).wellFormed = true := by decide +kernel

/-! ### Results the spec gives -/

/-- R371, and its note in 18: the CRC-32C of the ASCII string "123456789". -/
theorem test_crc32c_checkValue : crc32c [0x31, 0x32, 0x33, 0x34, 0x35, 0x36, 0x37, 0x38, 0x39] = 0xE3069283 := by decide +kernel

/-- The example under R378 (18): SEQ 1 is newer than SEQ 0xFFFF_FFFE. -/
theorem test_newer_wraps : newer 0x00000001 0xFFFFFFFE = true ∧ newer 0xFFFFFFFE 0x00000001 = false := by decide +kernel

/-- The example under R375 (18): the REG entry that sets L0 to ENC0 at 0.05 mm per count. -/
theorem test_regEntry_lineSection :
    regEntry [(Reg.LINE_CFG 0, 1), (Reg.LINE_SCALE 0, 0x3D4CCCCD)] =
      [1, 0, 0, 0, 0x10, 0, 0, 0, 0x00, 0x01, 0x01, 0x00, 1, 0, 0, 0, 0x04, 0x01, 0x01, 0x00, 0xCD, 0xCC, 0x4C, 0x3D] := by decide +kernel

/-- The example of 20: the bytes of LATE_ACTION's record. -/
theorem test_record_lateAction :
    EventRec.bytes { (default : EventRec) with tsc := 31650000000, source := BitVec.ofNat 12 (Src.line 0), code := 0x080, line := 0xBB7C1400, cycle := 2000000, d0 := 1, d1 := 0x00100400 }
        31650000000 =
      [0x80, 0xAC, 0x7C, 0x5E, 7, 0, 0, 0] ++ [0x70, 0x01, 0x08, 0x00] ++ [0x00, 0x14, 0x7C, 0xBB, 0, 0, 0, 0] ++ [0x80, 0x84, 0x1E, 0x00] ++ [1, 0, 0, 0] ++
        [0x00, 0x04, 0x10, 0x00] := by decide +kernel

/-- The example under R144 (07): the poll's words of 0.75 on a servo axis and of −0.5 on a stepper axis. -/
theorem test_dutyWord_examples : dutyWord 0 0x600000 = 0xC000 ∧ dutyWord 1 0xC00000 = 0xC000 := by decide +kernel

/-- R357–R358 (17): byte 31 of the example's record closes the word of queue 3, with 32 valid bytes. -/
theorem test_psWrite_closesAWord :
    (let u := nextOf (exec (.psWrite 256 3 3 0x5A false) ((up.set Reg.DEV_STATE.STATE devStopping).modQueue 3 fun x => { x with asm := List.range 31 }))
     (u.queue 3).asm = [] ∧ (u.queue 3).staged.map (fun w => (w.bytes, w.valid, w.last)) = some (List.range 31 ++ [0x5A], 32, false)) := by decide +kernel

/-- R124, R125: 0.5 · 0.5 = 0.25 into an accumulator of engine 0, 24 bits below the guard bits. -/
theorem test_leMpy_halves :
    ((nextOf (exec (.leMpy 0 1 2 3 none none) (up.modEng 0 fun x => { x with main := (x.main.putD 2 0x400000).putD 3 0x400000 }))).set' 0).sA 1 = 2 ^ 45 := by
  decide +kernel

/-- First in, first out: of two waiting commands the one in front is taken, and the other waits on. -/
theorem test_step_takesTheFront :
    (let u := nextOf (step { up with pending := [.imgAbort 5, .imgBegin 7] })
     u.pending = [.imgBegin 7] ∧ u.tsc = 5) := by decide +kernel

/-- With nothing waiting the block idles. -/
theorem test_step_idles : step State.reset = .next State.reset := rfl

end Sys2Proof.Tests
end

/-! PROOFS. Due line actions (R38, R41, R42): which action ACTION_EXECUTE takes and what it does, in every state; that the statement about it
fails in a state whose pool is no pool of R37; and that it holds where the pool is one. -/

namespace Sys2Proof.Machine

/-! ### The first due action (R42) -/

/-- The first due action is one of the due actions. -/
theorem firstDue_mem {l : List (Nat × Nat × Nat)} {y : Nat × Nat × Nat} (h : firstDue l = some y) : y ∈ l := by
  induction l with
  | nil => cases h
  | cons x xs ih =>
    simp only [firstDue] at h
    split at h
    case h_1 z hz =>
      split at h
      · cases h; exact List.mem_cons_of_mem _ (ih hz)
      · cases h; exact List.mem_cons_self
    case h_2 => cases h; exact List.mem_cons_self

/-- Only of no due actions there is no first one. -/
theorem firstDue_eq_none {l : List (Nat × Nat × Nat)} (h : firstDue l = none) : l = [] := by
  cases l with
  | nil => rfl
  | cons x xs =>
    simp only [firstDue] at h
    split at h
    · split at h <;> cases h
    · cases h

/-- No due action precedes the first one by instant, then by line axis, then by index. -/
theorem firstDue_least {l : List (Nat × Nat × Nat)} {y : Nat × Nat × Nat} (h : firstDue l = some y) :
    ∀ p ∈ l, y.1 < p.1 ∨ (y.1 = p.1 ∧ (y.2.1 < p.2.1 ∨ (y.2.1 = p.2.1 ∧ y.2.2 ≤ p.2.2))) := by
  induction l generalizing y with
  | nil => cases h
  | cons x xs ih =>
    intro p hp
    simp only [firstDue] at h
    split at h
    case h_1 z hz =>
      have hle := ih hz
      split at h
      case isTrue hlt =>
        cases h
        rcases List.mem_cons.mp hp with rfl | hp
        · omega
        · exact hle p hp
      case isFalse hge =>
        cases h
        rcases List.mem_cons.mp hp with rfl | hp
        · omega
        · have := hle p hp
          omega
    case h_2 hnone =>
      cases h
      rw [firstDue_eq_none hnone] at hp
      rw [List.mem_singleton.mp hp]
      omega

/-- Every due action of the pool stands in it, scheduled for its instant, which has come. -/
theorem mem_dueActs {s : State} {i k n : Nat} (h : (i, k, n) ∈ s.dueActs) :
    i ≤ s.now ∧ ∃ y, (n, some y) ∈ s.acts ∧ y.stage = .at i ∧ y.line = k := by
  obtain ⟨⟨m, o⟩, hm, hf⟩ := List.mem_filterMap.mp h
  cases o with
  | none => cases hf
  | some y =>
    dsimp only at hf
    split at hf
    case h_1 j hs =>
      split at hf
      case isTrue hj => cases hf; exact ⟨hj, y, hm, hs, rfl⟩
      case isFalse => cases hf
    case h_2 => cases hf

/-- At the present instant the instant of no due action is still to come. -/
theorem dueActs_filter_now (s : State) : (s.dueActs.filter fun p => decide (p.1 ≤ s.now)) = s.dueActs :=
  List.filter_eq_self.mpr fun _ hp => decide_eq_true (mem_dueActs hp).1

/-! ### What ACTION_EXECUTE does in every state -/

/-- ACTION_EXECUTE takes the first action that is due at its instant. -/
theorem exec_actionExecute {s : State} {t : Time} (hr : s.Ready t) :
    exec (.actionExecute t) s = .next ((s.at t).takeAct (s.at t).now) := by
  change execActionExecute t s = _
  exact live_ready hr _

/-- Where no action is due nothing happens. -/
theorem actionExecute_idle {s : State} {t : Time} (hr : s.Ready t) (h : (s.at t).dueActs = []) :
    Completes (.actionExecute t) s fun u => u = s.at t := by
  refine ⟨_, exec_actionExecute hr, ?_⟩
  simp [State.takeAct, h, firstDue]

/-- The first due action is freed, and runs on the state that leaves. -/
theorem actionExecute_first {s : State} {t : Time} {i k n : Nat} {x : Act} (hr : s.Ready t)
    (hf : firstDue (s.at t).dueActs = some (i, k, n)) (hx : s.act? n = some x) :
    Completes (.actionExecute t) s fun u => u = ((s.at t).putAct n x.line none).runAct n x := by
  have hx' : (s.at t).act? n = some x := hx
  refine ⟨_, exec_actionExecute hr, ?_⟩
  simp only [State.takeAct, dueActs_filter_now, hf, hx']

/-- What holds of that state holds of the completion. -/
theorem completes_of_first {s : State} {t : Time} {i k n : Nat} {x : Act} {P : State → Prop} (hr : s.Ready t)
    (hf : firstDue (s.at t).dueActs = some (i, k, n)) (hx : s.act? n = some x)
    (hP : P (((s.at t).putAct n x.line none).runAct n x)) : Completes (.actionExecute t) s P := by
  obtain ⟨u, hu, rfl⟩ := actionExecute_first hr hf hx
  exact ⟨_, hu, hP⟩

/-! ### What freeing an index and running its action leave unchanged -/

/-- A register field that counts up leaves the pool unchanged. -/
theorem State.addSat_acts (s : State) (f : Fld) (v : Nat) : (s.addSat f v).acts = s.acts := rfl

/-- So does one that counts modulo its width. -/
theorem State.addMod_acts (s : State) (f : Fld) (v : Nat) : (s.addMod f v).acts = s.acts := rfl

/-- So does a W1C count. -/
theorem State.tally_acts (s : State) (f : Fld) (v : Nat) : (s.tally f v).acts = s.acts := rfl

/-- A record that joins those that wait leaves the pool unchanged. -/
theorem State.keepRecord_acts (s : State) (r : EventRec) : (s.keepRecord r).acts = s.acts := by
  unfold State.keepRecord
  split
  · exact State.addSat_acts ..
  · rfl

/-- A record that joins those sent to the archipelago leaves the pool unchanged. -/
theorem State.exportEvent_acts (s : State) (r : EventRec) : (s.exportEvent r).acts = s.acts := by
  unfold State.exportEvent
  dsimp only
  split
  · rfl
  · split
    · exact State.addSat_acts ..
    · rfl

/-- A record leaves the pool unchanged. -/
theorem State.log_acts (s : State) (src code d0 d1 : Nat) : (s.log src code d0 d1).acts = s.acts := by
  unfold State.log State.logAt
  split
  · rfl
  · rw [State.exportEvent_acts, State.keepRecord_acts]

/-- An operand word that enters a slot leaves the pool unchanged. -/
theorem State.fillSlot_acts (s : State) (e k : Nat) (w : List Nat) : (s.fillSlot e k w).acts = s.acts := by
  have ready : ∀ u : State, (u.readyCheck e).acts = u.acts := fun u => by
    unfold State.readyCheck
    split
    · split <;> rfl
    · rfl
  refine (ready _).trans ?_
  unfold State.modItem
  split <;> rfl

/-- A delivery of kind 3 leaves the pool unchanged. -/
theorem State.deliverLine_acts (s : State) (line e : Nat) (w : List Nat) : (s.deliverLine line e w).acts = s.acts := by
  unfold State.deliverLine
  dsimp only
  rw [apply_ite State.acts, State.fillSlot_acts, State.log_acts, ite_self]

/-- A trigger leaves the pool unchanged. -/
theorem State.trigger_acts (s : State) (p : ProgDecl → Bool) : (s.trigger p).acts = s.acts := by
  unfold State.trigger
  refine forEach_ind (P := fun u => u.acts = s.acts) _ (fun u f _ hu => ?_) s rfl
  exact hu

/-- A compare pulse leaves the pool unchanged. -/
theorem State.cmpPulse_acts (s : State) (c i : Nat) : (s.cmpPulse c i).acts = s.acts := by
  unfold State.cmpPulse
  dsimp only
  rw [apply_ite State.acts, apply_ite State.acts, apply_ite State.acts, State.tally_acts, State.set_acts, State.addMod_acts, ite_self]
  simp only [State.modCmp, ite_self]

/-- An action that runs leaves the pool unchanged. -/
theorem State.runAct_acts (s : State) (n : Nat) (x : Act) : (s.runAct n x).acts = s.acts := by
  unfold State.runAct
  split
  · split
    · rfl
    · exact State.log_acts ..
  · exact (State.trigger_acts ..).trans (State.deliverLine_acts ..)
  · exact State.set_acts ..
  · exact State.set_acts ..
  · exact State.cmpPulse_acts ..
  · exact State.log_acts ..

/-- A register field written after other registers is one more register that differs. -/
theorem State.set_regsOnly {s u : State} (h : ∃ r, u = { s with regs := r }) (f : Fld) (v : Nat) :
    ∃ r, u.set f v = { s with regs := r } := by
  obtain ⟨r, rfl⟩ := h
  exact ⟨_, rfl⟩

/-- Showing the pool changes registers only. -/
theorem State.syncAct_frame (s : State) (n k : Nat) : ∃ r, s.syncAct n k = { s with regs := r } := by
  unfold State.syncAct
  dsimp only
  apply State.set_regsOnly
  apply State.set_regsOnly
  exact ⟨_, rfl⟩

/-- A change of an index changes the pool at that index, and registers. -/
theorem State.putAct_frame (s : State) (n k : Nat) (x : Option Act) :
    ∃ r, s.putAct n k x = { s with acts := tput none s.acts n x, regs := r } := by
  unfold State.putAct
  exact State.syncAct_frame ..

/-- The pool after a change of an index. -/
theorem State.putAct_acts (s : State) (n k : Nat) (x : Option Act) : (s.putAct n k x).acts = tput none s.acts n x := by
  obtain ⟨r, h⟩ := s.putAct_frame n k x
  rw [h]

/-- The action at an index after a change of an index. -/
theorem State.act?_putAct (s : State) (n k m : Nat) (x : Option Act) : (s.putAct n k x).act? m = if m = n then x else s.act? m := by
  rw [State.act?, State.putAct_acts, tget_tput, State.act?]

/-- The registers that show the pool: a change of index `n` of line axis `k` writes no other word. -/
theorem State.word_putAct_ne (s : State) (n k a : Nat) (x : Option Act) (h1 : a ≠ Reg.ACT_PEND (n / 32)) (h2 : a ≠ Reg.ACT_COUNT)
    (h3 : a ≠ Reg.LINE_STAT k) : (s.putAct n k x).word a = s.word a := by
  unfold State.putAct State.syncAct
  rw [State.word_set_ne _ _ _ _ h3, State.word_set_ne _ _ _ _ h2, State.word_setWord_ne h1]
  rfl

/-- The index of the action that ran is free (R41). -/
theorem act?_runAct_freed (s : State) (n : Nat) (x : Act) : ((s.putAct n x.line none).runAct n x).act? n = none := by
  rw [State.act?, State.runAct_acts, ← State.act?, State.act?_putAct, if_pos rfl]

/-- A gate opens for a flow that stands GATED and has no gate opened yet; otherwise GATE_EMPTY is logged (R38). -/
theorem runAct_gate {x : Act} (h : x.kind = 0) (s : State) (n : Nat) :
    s.runAct n x = if s.flowState x.target = flGated ∧ (s.flow x.target).gateAt.isNone then
      s.modFlow x.target fun f => { f with gateAt := some s.now } else s.log (Src.line x.line) Ev.GATE_EMPTY x.target n := by
  simp only [State.runAct, h]

/-- A compare pulse of an action that is scheduled runs from its instant (R38). -/
theorem runAct_pulse {x : Act} {i : Nat} (h : x.kind = 4) (hi : x.stage = .at i) (s : State) (n : Nat) :
    s.runAct n x = s.cmpPulse x.target i := by
  simp only [State.runAct, h, hi]

/-- A line event is logged with its target and index (R38). -/
theorem runAct_lineEvent {x : Act} (h : 5 ≤ x.kind) (s : State) (n : Nat) :
    s.runAct n x = s.log (Src.line x.line) Ev.LINE_EVENT x.target n := by
  unfold State.runAct
  split
  case h_6 => rfl
  all_goals omega

/-! ### The pool of R37 -/

/-- The pool is one of R37: every index is listed once and lies below 1 024, and every action is on a line axis 0 to 7 (ACT_SPEC.LINE). -/
def State.PoolSound (s : State) : Prop :=
  twf (fun _ => none) s.acts = true ∧ ∀ n x, s.act? n = some x → n < 1024 ∧ x.line < 8

/-- An empty pool, as at reset and after every LOAD, is sound. -/
theorem poolSound_of_empty {s : State} (h : s.acts = []) : s.PoolSound := by
  refine ⟨by rw [h]; rfl, fun n x hx => ?_⟩
  rw [State.act?, h] at hx
  cases hx

/-- Writing or freeing an index below 1 024 keeps the pool sound. -/
theorem State.PoolSound.putAct {s : State} (h : s.PoolSound) {n : Nat} {x : Option Act} (hn : n < 1024)
    (hx : ∀ y, x = some y → y.line < 8) (k : Nat) : (s.putAct n k x).PoolSound := by
  obtain ⟨hwf, hall⟩ := h
  refine ⟨?_, fun m y hy => ?_⟩
  · rw [State.putAct_acts]
    exact twf_tput hwf n x
  · rw [State.act?_putAct] at hy
    split at hy
    case isTrue hm => exact ⟨hm ▸ hn, hx y hy⟩
    case isFalse => exact hall m y hy

/-- In a table whose keys rise, a key reads as the value it is listed with. -/
theorem tget?_of_mem {α : Type} {t : Tbl α} {j : Nat} {v : α} : ∀ {lo : Nat}, tsorted lo t = true → (j, v) ∈ t → lo ≤ j ∧ tget? j t = some v := by
  induction t with
  | nil => intro _ _ h; cases h
  | cons e t ih =>
    obtain ⟨i, w⟩ := e
    intro lo hs hm
    simp only [tsorted, Bool.and_eq_true, decide_eq_true_eq] at hs
    obtain ⟨hlo, hs⟩ := hs
    rcases List.mem_cons.mp hm with heq | hm
    · cases heq
      exact ⟨hlo, by simp [tget?]⟩
    · obtain ⟨hij, hget⟩ := ih hs hm
      have hne : i ≠ j := by omega
      exact ⟨by omega, by simp [tget?, hne, hget]⟩

/-- In a sound pool the action at a due index is the one scheduled for the instant that made it due. -/
theorem State.PoolSound.due_stage {s : State} (h : s.PoolSound) {i k n : Nat} {x : Act} (hd : (i, k, n) ∈ s.dueActs)
    (hx : s.act? n = some x) : x.stage = .at i := by
  obtain ⟨_, y, hmem, hstage, _⟩ := mem_dueActs hd
  have hs := h.1
  simp only [twf, Bool.and_eq_true] at hs
  have hy : s.act? n = some y := by simp [State.act?, tget, (tget?_of_mem hs.1 hmem).2]
  cases hx.symm.trans hy
  exact hstage

/-- In a sound pool a change of an index leaves the flow states unchanged. -/
theorem State.PoolSound.flowState_putAct {s : State} (h : s.PoolSound) {n : Nat} {x : Act} (hx : s.act? n = some x) (o : Option Act) (j : Nat) :
    (s.putAct n x.line o).flowState j = s.flowState j := by
  obtain ⟨hn, hl⟩ := h.2 n x hx
  unfold State.flowState State.get
  rw [State.word_putAct_ne]
  all_goals simp only [Reg.ISL_STATE.FLOW, Reg.ISL_STATE, Reg.ACT_PEND, Reg.ACT_COUNT, Reg.LINE_STAT]; omega

/-- What the first due action of a sound pool does, kind by kind (R38): the clauses of O15 that `firstDue_mem`, `firstDue_least`,
`actionExecute_idle` and `actionExecute_first` do not give for every state. -/
theorem dueAction_takesEffect {s : State} {t : Time} {i k n : Nat} {x : Act} (hpool : s.PoolSound) (hr : s.Ready t)
    (hf : firstDue (s.at t).dueActs = some (i, k, n)) (hx : s.act? n = some x) :
    (x.kind = 0 → s.flowState x.target = flGated → (s.flow x.target).gateAt = none →
      Completes (.actionExecute t) s fun u => u.act? n = none ∧ (u.flow x.target) = { s.flow x.target with gateAt := some t.toNat } ∧
        (∀ j, j ≠ x.target → u.flow j = s.flow j) ∧ u = { s.at t with acts := u.acts, flows := u.flows, regs := u.regs }) ∧
    (x.kind = 0 → s.flowState x.target ≠ flGated ∨ (s.flow x.target).gateAt.isSome = true →
      Completes (.actionExecute t) s fun u => u.act? n = none ∧
        u = ((s.at t).putAct n x.line none).log (Src.line x.line) Ev.GATE_EMPTY x.target n) ∧
    (x.kind = 1 → Completes (.actionExecute t) s fun u => u.act? n = none ∧
        u = (((s.at t).putAct n x.line none).deliverLine x.line x.target []).trigger fun d => d.trigger == 2 && d.source == x.line) ∧
    (x.kind = 2 → Completes (.actionExecute t) s fun u => u.act? n = none ∧ u = ((s.at t).putAct n x.line none).cmpOpen x.target) ∧
    (x.kind = 3 → Completes (.actionExecute t) s fun u => u.act? n = none ∧ u = ((s.at t).putAct n x.line none).cmpClose x.target) ∧
    (x.kind = 4 → Completes (.actionExecute t) s fun u => u.act? n = none ∧ u = ((s.at t).putAct n x.line none).cmpPulse x.target i) ∧
    (5 ≤ x.kind → Completes (.actionExecute t) s fun u => u.act? n = none ∧
        u = ((s.at t).putAct n x.line none).log (Src.line x.line) Ev.LINE_EVENT x.target n) := by
  have hpool' : (s.at t).PoolSound := hpool
  have hx' : (s.at t).act? n = some x := hx
  have hstate : ((s.at t).putAct n x.line none).flowState x.target = s.flowState x.target := hpool'.flowState_putAct hx' none x.target
  have hstage : x.stage = .at i := hpool'.due_stage (firstDue_mem hf) hx'
  have hnow : (s.at t).now = t.toNat := by rw [State.now, State.at_tsc hr.2]
  have hdo : ∀ {P : State → Prop} {u : State}, ((s.at t).putAct n x.line none).runAct n x = u → P u →
      Completes (.actionExecute t) s fun u => u.act? n = none ∧ P u := fun {P u} hu hP =>
    completes_of_first hr hf hx ⟨act?_runAct_freed .., hu ▸ hP⟩
  obtain ⟨r, hput⟩ := (s.at t).putAct_frame n x.line none
  have hflow : ∀ j, ((s.at t).putAct n x.line none).flow j = s.flow j := fun j => by rw [hput]; rfl
  refine ⟨fun hk hg hnone => ?_, fun hk hg => ?_, fun hk => ?_, fun hk => ?_, fun hk => ?_, fun hk => ?_, fun hk => ?_⟩
  · have hopen : s.flowState x.target = flGated ∧ (s.flow x.target).gateAt.isNone := ⟨hg, Option.isNone_iff_eq_none.mpr hnone⟩
    refine hdo (by rw [runAct_gate hk, hstate, hflow, if_pos hopen]) ⟨?_, fun j hj => ?_, ?_⟩
    · rw [State.flow_modFlow, hflow, hput]
      simp only [State.now] at hnow ⊢
      rw [hnow]
    · rw [State.flow_modFlow_ne _ hj, hflow]
    · rw [hput]
      rfl
  · have hshut : ¬ (s.flowState x.target = flGated ∧ (s.flow x.target).gateAt.isNone) := by
      rw [Option.isNone_iff_eq_none]
      rintro ⟨hs, hn⟩
      rcases hg with hg | hg
      · exact hg hs
      · simp [hn] at hg
    exact hdo (by rw [runAct_gate hk, hstate, hflow, if_neg hshut]) rfl
  · exact hdo (by simp only [State.runAct, hk]) rfl
  · exact hdo (by simp only [State.runAct, hk]) rfl
  · exact hdo (by simp only [State.runAct, hk]) rfl
  · exact hdo (runAct_pulse hk hstage ..) rfl
  · exact hdo (runAct_lineEvent hk ..) rfl

/-- A running device whose flow of island 511 stands GATED, with a GATE for it armed at index 1 023 and due since instant 3. -/
def gateDue : State :=
  ({ State.reset.set (Reg.ISL_STATE.FLOW 511) flGated with dev := { State.reset.dev with powered := true } } : State).putAct 1023 7
    (some { (default : Act) with line := 7, kind := 0, target := 511, stage := .at 3 })

/-- `dueAction_takesEffect` at work: the pool of `gateDue` is sound, and its gate opens at TSC 5. -/
theorem gateDue_opens :
    Completes (.actionExecute 5) gateDue fun u => u.act? 1023 = none ∧ (u.flow 511).gateAt = some 5 := by
  have hpool : gateDue.PoolSound :=
    (poolSound_of_empty (by decide +kernel)).putAct (by decide) (fun _ hy => by cases hy; decide) 7
  have hr : gateDue.Ready 5 := by decide +kernel
  have hf : firstDue (gateDue.at 5).dueActs = some (3, 7, 1023) := by decide +kernel
  have hx : gateDue.act? 1023 = some { (default : Act) with line := 7, kind := 0, target := 511, stage := .at 3 } := by decide +kernel
  obtain ⟨hgate, _⟩ := dueAction_takesEffect hpool hr hf hx
  obtain ⟨u, hu, hfree, hflow, _⟩ := hgate rfl (by decide +kernel) (by decide +kernel)
  exact ⟨u, hu, hfree, congrArg FlowSt.gateAt hflow⟩

/-! ### The statement fails where the pool lists one index twice -/

/-- Not a pool of R37: index 0 is listed twice, as a compare pulse that waits for its trigger and behind it as an action scheduled for
instant 3. The second makes the index due, the first is what the index reads as. -/
def twiceListed : State :=
  { State.reset.set Reg.DEV_STATE.STATE devBringUp with
    dev := { State.reset.dev with powered := true }
    acts := [(0, some { (default : Act) with kind := 4, stage := .waiting }), (0, some { (default : Act) with stage := .at 3 })] }

/-- Refutes O15: a state of the model may list one index of the pool twice, and then the action read at the index that is due need not be the
one scheduled for the instant that made it due. In `twiceListed`, at TSC 5, index 0 is due since instant 3 and reads as a CMP_PULSE that
has no instant; the statement has its pulse run from 3 to 8, the model from 5 to 10. A write to the pool never lists an index twice
(`State.PoolSound.putAct`), and in every pool that R37 allows the clauses hold (`dueAction_takesEffect`): what the statement lacks is the
hypothesis `State.PoolSound`. -/
theorem not_dueActionsExecute : ¬ Obligations.DueActionsExecute := by
  intro h
  have hx : twiceListed.act? 0 = some { (default : Act) with kind := 4, stage := .waiting } := by decide +kernel
  have hf : firstDue (twiceListed.at 5).dueActs = some (3, 0, 0) := by decide +kernel
  have hr : twiceListed.Ready 5 := by decide +kernel
  obtain ⟨_, _, hrun, _, _, _, _, _, hpulse, _⟩ := h.2 twiceListed 5 3 0 0 _ hr hf hx
  obtain ⟨u, hu, rfl⟩ := hrun
  obtain ⟨v, hv, _, rfl⟩ := hpulse rfl
  have heq := hu.symm.trans hv
  have hne : ∀ a b : State, (a.cmp 0).pulse = some 10 → (b.cmp 0).pulse = some 8 → (.next a : Out) ≠ .next b := by
    intro a b ha hb hab
    cases hab
    rw [ha] at hb
    cases hb
  exact hne _ _ (by decide +kernel) (by decide +kernel) heq

end Sys2Proof.Machine

/-! PROOFS. The stop demands that channel B raises by itself (R10, R267–R271, R274, R278–R280, R286, R428): which steps leave the safety
state alone, what STO, SS1 and a demand do and leave unchanged, and with these the commands of channel B. -/

namespace Sys2Proof.Machine

/-! ### Steps that leave the safety state alone -/

/-- The registers that show STO, the states of the two channels, and channel B's readings. -/
abbrev safetyRegs : List Nat := [Reg.STO_STAT, Reg.SAFE_STAT, Reg.CHB_STAT]

/-- From `s` to `u` neither channel changes, and none of the registers that show STO, their states and readings. -/
structure SafetyKept (s u : State) : Prop where
  chb : u.chb = s.chb
  cha : u.cha = s.cha
  word : ∀ a ∈ safetyRegs, u.word a = s.word a

section
variable {s u v : State}

/-- A step that changes neither the channels nor a register. -/
theorem SafetyKept.of_eq (hb : u.chb = s.chb) (ha : u.cha = s.cha) (hr : u.regs = s.regs) : SafetyKept s u :=
  ⟨hb, ha, fun a _ => by rw [State.word, State.word, hr]⟩

theorem SafetyKept.refl (s : State) : SafetyKept s s := .of_eq rfl rfl rfl

theorem SafetyKept.trans (h : SafetyKept s u) (h' : SafetyKept u v) : SafetyKept s v :=
  ⟨h'.chb.trans h.chb, h'.cha.trans h.cha, fun a ha => (h'.word a ha).trans (h.word a ha)⟩

theorem SafetyKept.setWord (h : SafetyKept s u) {a : Nat} (ha : a ∉ safetyRegs) (w : Nat) : SafetyKept s (u.setWord a w) :=
  h.trans ⟨rfl, rfl, fun b hb => State.word_setWord_ne (fun hab : b = a => ha (hab ▸ hb)) ..⟩

theorem SafetyKept.set (h : SafetyKept s u) {f : Fld} (hf : f.addr ∉ safetyRegs) (v : Nat) : SafetyKept s (u.set f v) :=
  h.setWord hf _

theorem SafetyKept.ite {c : Prop} [Decidable c] (hu : SafetyKept s u) (hv : SafetyKept s v) : SafetyKept s (if c then u else v) := by
  split
  · exact hu
  · exact hv

theorem SafetyKept.keepRecord (h : SafetyKept s u) (r : EventRec) : SafetyKept s (u.keepRecord r) :=
  .ite (h.set (by decide) _) (h.trans (.of_eq rfl rfl rfl))

theorem SafetyKept.exportEvent (h : SafetyKept s u) (r : EventRec) : SafetyKept s (u.exportEvent r) := by
  have joined : ∀ f, SafetyKept s { u with fed := f } := fun _ => h.trans (.of_eq rfl rfl rfl)
  exact .ite h (.ite ((joined _).set (by decide) _) (joined _))

/-- A record leaves the safety state alone. -/
theorem SafetyKept.log (h : SafetyKept s u) (src code d0 d1 : Nat) : SafetyKept s (u.log src code d0 d1) :=
  have dated : ∀ l, SafetyKept s { u with lastTsc := l } := fun _ => h.trans (.of_eq rfl rfl rfl)
  .ite h (((dated _).keepRecord _).exportEvent _)

theorem SafetyKept.logB (h : SafetyKept s u) (src code d0 d1 : Nat) : SafetyKept s (u.logB src code d0 d1) :=
  .ite (h.log ..) h

/-- The registers that show the latches are none of those that show the safety state. -/
theorem SafetyKept.showLatches (h : SafetyKept s u) : SafetyKept s u.showLatches := by
  refine forN_ind 16 (fun v k _ hv => hv.set ?_ _) _ ((h.set (by decide) _).set (by decide) _)
  simp only [safetyRegs, Reg.GRP_STAT.CAUSE, Reg.GRP_STAT, Reg.STO_STAT, Reg.SAFE_STAT, Reg.CHB_STAT, List.mem_cons, List.not_mem_nil, or_false]
  omega

theorem SafetyKept.axisFault (h : SafetyKept s u) (a cause : Nat) : SafetyKept s (u.axisFault a cause) :=
  .ite h (h.trans (.of_eq rfl rfl rfl))

/-! ### A stop on the motion side (R49, R268, R306) -/

theorem SafetyKept.ss1 (h : SafetyKept s u) (i : Nat) : SafetyKept s (u.ss1 i) := by
  have flows : ∀ (l : List Nat) (f : FlowSt → FlowSt) (v : State), SafetyKept s v →
      SafetyKept s (forEach l (fun s j => s.modFlow j f) v) := fun l _ =>
    forEach_ind l fun _ _ _ hv => hv.trans (.of_eq rfl rfl rfl)
  exact flows _ _ _ (flows _ _ _ h)

theorem SafetyKept.ss1Group (h : SafetyKept s u) (k : Nat) : SafetyKept s (u.ss1Group k) := by
  refine forEach_ind _ (fun v a _ hv => ?_) u h
  split
  · exact hv.ss1 _
  · exact hv.trans (.of_eq rfl rfl rfl)

theorem SafetyKept.takeDemand (h : SafetyKept s u) (body : List Nat) : SafetyKept s (u.takeDemand body) := by
  unfold State.takeDemand
  dsimp only
  split
  · exact forEach_ind _ (fun v k _ hv => hv.ss1Group k) u h
  · exact h.ss1 _
  · exact h

/-- A stop on the motion side leaves the safety state alone, in a pair too. -/
theorem SafetyKept.motionStop (h : SafetyKept s u) (body : List Nat) : SafetyKept s (u.motionStop body) := by
  have mirrored : SafetyKept s (u.mirror 7 body) := .ite (h.trans (.of_eq rfl rfl rfl)) h
  exact .ite (h.takeDemand body) (.ite (mirrored.trans (.of_eq rfl rfl rfl)) h)

end

/-! ### Masks of groups -/

theorem bitAt_eq_testBit (w i : Nat) : bitAt w i = w.testBit i := Nat.testBit_eq_decide_div_mod_eq.symm

/-- The bits of a field are those of the word, moved down. -/
theorem testBit_bits (w lo n i : Nat) : (bits w lo n).testBit i = (decide (i < n) && w.testBit (i + lo)) := by
  simp only [bits, Nat.testBit_mod_two_pow, Nat.testBit_div_two_pow]

theorem mem_onesBelow {n w k : Nat} : k ∈ onesBelow n w ↔ k < n ∧ bitAt w k = true := by simp [onesBelow]

/-- Every group is in `allGroups`. -/
theorem bitAt_allGroups {k : Nat} (hk : k < 16) : bitAt allGroups k = true := by
  rw [bitAt_eq_testBit, show allGroups = 2 ^ 16 - 1 from rfl, Nat.testBit_two_pow_sub_one]
  exact decide_eq_true hk

/-- The mask of a list of groups. -/
def groupMask (l : List Nat) : Nat := l.foldl (fun m k => m + 2 ^ k) 0

/-- A power of two above a number is one more bit of it. -/
theorem testBit_add_two_pow {m k : Nat} (hm : m < 2 ^ k) (j : Nat) : (m + 2 ^ k).testBit j = (m.testBit j || decide (j = k)) := by
  have hsum : m + 2 ^ k = 2 ^ k * 1 + m := by rw [Nat.mul_one, Nat.add_comm]
  rw [hsum, Nat.testBit_two_pow_mul_add _ hm]
  by_cases hlow : j < k
  · rw [if_pos hlow, decide_eq_false (Nat.ne_of_lt hlow), Bool.or_false]
  · have hclear : m.testBit j = false :=
      Nat.testBit_lt_two_pow (Nat.lt_of_lt_of_le hm (Nat.pow_le_pow_right (by decide) (Nat.le_of_not_lt hlow)))
    rw [if_neg hlow, hclear, Bool.false_or, Bool.eq_iff_iff, Nat.testBit_one_eq_true_iff_self_eq_zero, decide_eq_true_iff]
    omega

/-- Groups added above the bits of a mask are further bits of it. -/
theorem testBit_foldl_add_two_pow (l : List Nat) {m : Nat} (hl : l.Pairwise (· < ·)) (hm : ∀ k ∈ l, m < 2 ^ k) (j : Nat) :
    (l.foldl (fun m k => m + 2 ^ k) m).testBit j = (m.testBit j || decide (j ∈ l)) := by
  induction l generalizing m with
  | nil => rw [List.foldl_nil, decide_eq_false List.not_mem_nil, Bool.or_false]
  | cons k l ih =>
    obtain ⟨hk, hl⟩ := List.pairwise_cons.mp hl
    have hmk : m < 2 ^ k := hm k List.mem_cons_self
    have hnext : ∀ i ∈ l, m + 2 ^ k < 2 ^ i := fun i hi => by
      have hle : 2 ^ (k + 1) ≤ 2 ^ i := Nat.pow_le_pow_right (by decide) (hk i hi)
      rw [Nat.pow_succ] at hle
      omega
    rw [List.foldl_cons, ih hl hnext, testBit_add_two_pow hmk, Bool.or_assoc, ← Bool.decide_or]
    simp only [List.mem_cons]

/-- The bits of the mask of a rising list are its elements. -/
theorem bitAt_groupMask {l : List Nat} (hl : l.Pairwise (· < ·)) (k : Nat) : bitAt (groupMask l) k = true ↔ k ∈ l := by
  rw [bitAt_eq_testBit, groupMask, testBit_foldl_add_two_pow l hl fun i _ => Nat.two_pow_pos i, Nat.zero_testBit, Bool.false_or, decide_eq_true_iff]

/-- The groups of a mask that meet a condition are listed rising. -/
theorem onesBelow_filter_rising (n w : Nat) (p : Nat → Bool) : ((onesBelow n w).filter p).Pairwise (· < ·) :=
  (List.pairwise_lt_range.filter _).filter _

/-! ### STO and SS1 in STO_STAT (R267, R268) -/

/-- STO of a group is its bit of STO_STAT. -/
theorem State.stoOn_eq_testBit (s : State) {k : Nat} (hk : k < 16) : s.stoOn k = (s.word Reg.STO_STAT).testBit k := by
  rw [State.stoOn, bitAt_eq_testBit, State.get, testBit_bits]
  simp only [Reg.STO_STAT.STO, hk, decide_true, Bool.true_and, Nat.add_zero]

/-- Where STO is on for all groups the field holds all ones. -/
theorem State.get_sto_of_stoOn {s : State} (h : ∀ k < 16, s.stoOn k = true) : s.get Reg.STO_STAT.STO = 0xFFFF := by
  rw [show (0xFFFF : Nat) = 2 ^ 16 - 1 from rfl]
  apply Nat.eq_of_testBit_eq
  intro i
  rw [Nat.testBit_two_pow_sub_one]
  by_cases hi : i < 16
  · rw [← bitAt_eq_testBit, decide_eq_true hi]
    exact h i hi
  · rw [State.get, testBit_bits]
    simp only [Reg.STO_STAT.STO, hi, decide_false, Bool.false_and]

/-- From `s` to `u` channel B changes its running SS1s only, and of the registers that show the safety state only STO_STAT. -/
structure GroupsActed (s u : State) : Prop where
  chb : ∃ x, u.chb = { s.chb with ss1 := x }
  cha : u.cha = s.cha
  word : ∀ a ∈ [Reg.SAFE_STAT, Reg.CHB_STAT], u.word a = s.word a

theorem GroupsActed.refl (s : State) : GroupsActed s s := ⟨⟨_, rfl⟩, rfl, fun _ _ => rfl⟩

theorem GroupsActed.kept {s u v : State} (h : GroupsActed s u) (h' : SafetyKept u v) : GroupsActed s v :=
  ⟨h'.chb ▸ h.chb, h'.cha.trans h.cha, fun a ha => (h'.word a (List.mem_cons_of_mem _ ha)).trans (h.word a ha)⟩

/-- A write of STO_STAT and of the running SS1s. -/
theorem GroupsActed.write {s u : State} (h : GroupsActed s u) (w : Nat) (x : Tbl (Option (Nat × Nat))) :
    GroupsActed s ((u.setWord Reg.STO_STAT w).modB fun b => { b with ss1 := x }) := by
  obtain ⟨⟨y, hb⟩, ha, hw⟩ := h
  refine ⟨⟨x, ?_⟩, ha, fun a hm => ?_⟩
  · change { u.chb with ss1 := x } = _
    rw [hb]
  · have hne : a ≠ Reg.STO_STAT := by rintro rfl; revert hm; decide
    exact (State.word_setWord_ne hne ..).trans (hw a hm)

/-- STO of a group, read after a step that keeps the safety state, is as before. -/
theorem SafetyKept.stoOn {s u : State} (h : SafetyKept s u) (k : Nat) : u.stoOn k = s.stoOn k := by
  simp only [State.stoOn, State.get, h.word Reg.STO_STAT.STO.addr (by decide)]

/-- STO of one group is applied, whose SS1 thereby ends. -/
def State.stoOut (s : State) (k : Nat) : State :=
  (s.setWord Reg.STO_STAT (withBit (withBit (s.word Reg.STO_STAT) k true) (16 + k) false)).modB fun b =>
    { b with ss1 := tput none b.ss1 k none }

theorem State.stoOn_stoOut (s : State) (k : Nat) {j : Nat} (hj : j < 16) : (s.stoOut k).stoOn j = (s.stoOn j || decide (j = k)) := by
  rw [State.stoOn_eq_testBit _ hj, State.stoOn_eq_testBit _ hj]
  have hhigh : ¬ (16 + k ≤ j ∧ j < 16 + k + 1) := by omega
  have hword : (s.stoOut k).word Reg.STO_STAT = withBit (withBit (s.word Reg.STO_STAT) k true) (16 + k) false % 2 ^ 32 :=
    State.word_setWord_same ..
  rw [hword, Nat.testBit_mod_two_pow, withBit, withBit, testBit_setBits, testBit_setBits, if_neg hhigh]
  by_cases hjk : j = k
  · subst hjk
    simp [b2n, show j < 32 by omega]
  · have hlow : ¬ (k ≤ j ∧ j < k + 1) := by omega
    rw [if_neg hlow]
    simp [hjk, show j < 32 by omega]

/-- After STO of a list of groups it is on for those and for those that had it. -/
theorem stoOn_forEach_stoOut (l : List Nat) (s : State) {j : Nat} (hj : j < 16) :
    (forEach l State.stoOut s).stoOn j = (s.stoOn j || decide (j ∈ l)) := by
  induction l generalizing s with
  | nil => simp [forEach]
  | cons k l ih =>
    change (forEach l State.stoOut (s.stoOut k)).stoOn j = _
    rw [ih, State.stoOn_stoOut s k hj, Bool.or_assoc, ← Bool.decide_or]
    simp only [List.mem_cons]

theorem groupsActed_forEach_stoOut (l : List Nat) (s : State) : GroupsActed s (forEach l State.stoOut s) :=
  forEach_ind l (fun _ _ _ hu => hu.write ..) s (.refl s)

/-- Where all groups of the mask have STO nothing happens; else it is applied to the others, and what follows leaves the safety state alone. -/
theorem State.applySto_cases (s : State) (groups cause : Nat) :
    (s.applySto groups cause = s ∧ ((onesBelow 16 groups).filter fun k => !s.stoOn k) = []) ∨
    SafetyKept (forEach ((onesBelow 16 groups).filter fun k => !s.stoOn k) State.stoOut s) (s.applySto groups cause) := by
  unfold State.applySto
  dsimp only
  split
  case isTrue he => exact .inl ⟨rfl, List.isEmpty_iff.mp he⟩
  case isFalse =>
    exact .inr (forEach_ind _ (fun u a _ hu => .ite hu (hu.axisFault ..)) _ ((SafetyKept.refl _).logB ..))

theorem State.applySto_acted (s : State) (groups cause : Nat) : GroupsActed s (s.applySto groups cause) := by
  rcases s.applySto_cases groups cause with ⟨h, -⟩ | h
  · rw [h]
    exact .refl s
  · exact (groupsActed_forEach_stoOut ..).kept h

/-- STO is on for the groups of the mask, and for those that had it (R267). -/
theorem State.stoOn_applySto (s : State) (groups cause : Nat) {k : Nat} (hk : k < 16) :
    (s.applySto groups cause).stoOn k = (s.stoOn k || bitAt groups k) := by
  rcases s.applySto_cases groups cause with ⟨h, hnew⟩ | h
  · rw [h]
    cases hg : bitAt groups k
    case false => rw [Bool.or_false]
    case true =>
      have hon : s.stoOn k = true := by simpa using List.filter_eq_nil_iff.mp hnew k (mem_onesBelow.mpr ⟨hk, hg⟩)
      rw [hon, Bool.or_true]
  · rw [h.stoOn, stoOn_forEach_stoOut _ _ hk]
    cases hs : s.stoOn k <;> simp [mem_onesBelow, hk, hs]

/-- The SS1 of one group starts. -/
def State.ss1Out (cause : Nat) (s : State) (k : Nat) : State :=
  (s.setWord Reg.STO_STAT (withBit (s.word Reg.STO_STAT) (16 + k) true)).modB fun b =>
    { b with ss1 := tput none b.ss1 k (some (s.now, cause)) }

/-- The SS1 bits of STO_STAT lie above those of STO. -/
theorem State.stoOn_ss1Out (cause : Nat) (s : State) (k : Nat) {j : Nat} (hj : j < 16) : (s.ss1Out cause k).stoOn j = s.stoOn j := by
  rw [State.stoOn_eq_testBit _ hj, State.stoOn_eq_testBit _ hj]
  have hhigh : ¬ (16 + k ≤ j ∧ j < 16 + k + 1) := by omega
  have hword : (s.ss1Out cause k).word Reg.STO_STAT = withBit (s.word Reg.STO_STAT) (16 + k) true % 2 ^ 32 := State.word_setWord_same ..
  rw [hword, Nat.testBit_mod_two_pow, withBit, testBit_setBits, if_neg hhigh]
  simp [show j < 32 by omega]

/-- Group `k` is under SS1. -/
def State.ss1Runs (s : State) (k : Nat) : Bool := (tget none s.chb.ss1 k).isSome

theorem State.isNone_ss1 (s : State) (k : Nat) : (tget none s.chb.ss1 k).isNone = !s.ss1Runs k := by
  rw [State.ss1Runs, Option.not_isSome]

theorem State.ss1Runs_ss1Out (cause : Nat) (s : State) (k j : Nat) : (s.ss1Out cause k).ss1Runs j = (s.ss1Runs j || decide (j = k)) := by
  have hss1 : (s.ss1Out cause k).chb.ss1 = tput none s.chb.ss1 k (some (s.now, cause)) := rfl
  rw [State.ss1Runs, hss1, tget_tput]
  by_cases h : j = k <;> simp [h, State.ss1Runs]

theorem stoOn_forEach_ss1Out (cause : Nat) (l : List Nat) (s : State) {j : Nat} (hj : j < 16) :
    (forEach l (State.ss1Out cause) s).stoOn j = s.stoOn j :=
  forEach_ind (P := fun u => u.stoOn j = s.stoOn j) l (fun u k _ hu => (u.stoOn_ss1Out cause k hj).trans hu) s rfl

/-- After SS1 of a list of groups those are under SS1, and those that were. -/
theorem ss1Runs_forEach_ss1Out (cause : Nat) (l : List Nat) (s : State) (j : Nat) :
    (forEach l (State.ss1Out cause) s).ss1Runs j = (s.ss1Runs j || decide (j ∈ l)) := by
  induction l generalizing s with
  | nil => simp [forEach]
  | cons k l ih =>
    change (forEach l (State.ss1Out cause) (s.ss1Out cause k)).ss1Runs j = _
    rw [ih, State.ss1Runs_ss1Out, Bool.or_assoc, ← Bool.decide_or]
    simp only [List.mem_cons]

/-- Where all groups of the mask are under STO or SS1 nothing happens; else SS1 of the others starts, and what follows leaves the safety
state alone. -/
theorem State.startSs1_cases (s : State) (groups cause : Nat) :
    (s.startSs1 groups cause = s ∧ ((onesBelow 16 groups).filter fun k => !s.stoOn k && (tget none s.chb.ss1 k).isNone) = []) ∨
    SafetyKept (forEach ((onesBelow 16 groups).filter fun k => !s.stoOn k && (tget none s.chb.ss1 k).isNone) (State.ss1Out cause) s)
      (s.startSs1 groups cause) := by
  unfold State.startSs1
  dsimp only
  split
  case isTrue he => exact .inl ⟨rfl, List.isEmpty_iff.mp he⟩
  case isFalse => exact .inr ((SafetyKept.refl _).motionStop _)

theorem State.startSs1_acted (s : State) (groups cause : Nat) : GroupsActed s (s.startSs1 groups cause) := by
  rcases s.startSs1_cases groups cause with ⟨h, -⟩ | h
  · rw [h]
    exact .refl s
  · exact GroupsActed.kept (forEach_ind _ (fun _ _ _ hu => hu.write ..) s (.refl s)) h

/-- Every group of the mask is under STO or under SS1 (R268, R274). -/
theorem State.stopped_startSs1 (s : State) (groups cause : Nat) {k : Nat} (hk : k < 16) (hg : bitAt groups k = true) :
    (s.startSs1 groups cause).stoOn k = true ∨ (s.startSs1 groups cause).ss1Runs k = true := by
  rcases s.startSs1_cases groups cause with ⟨h, hnew⟩ | h
  · have hnot := List.filter_eq_nil_iff.mp hnew k (mem_onesBelow.mpr ⟨hk, hg⟩)
    rw [h]
    cases hs : s.stoOn k
    case true => exact .inl rfl
    case false => exact .inr (by simpa [hs, State.isNone_ss1] using hnot)
  · rw [h.stoOn, stoOn_forEach_ss1Out cause _ _ hk, State.ss1Runs, h.chb, ← State.ss1Runs, ss1Runs_forEach_ss1Out]
    cases hs : s.stoOn k
    case true => exact .inl rfl
    case false =>
      cases hr : s.ss1Runs k
      case true => exact .inr rfl
      case false => exact .inr (by simp [mem_onesBelow, hk, hg, hs, hr, State.isNone_ss1])

/-! ### A stop demand (R271, R274) -/

/-- The groups of a mask in which a demand is not latched yet. -/
def State.unlatched (s : State) (cause : Nat) (sto : Bool) (groups who : Nat) : List Nat :=
  (onesBelow 16 groups).filter fun k =>
    !s.chb.demands.any fun d => (d.cause == cause && d.sto == sto && d.who == who) && bitAt d.groups k

theorem State.mem_unlatched {s : State} {cause groups who k : Nat} {sto : Bool} (hk : k < 16) (hg : bitAt groups k = true)
    (h : ∀ d ∈ s.chb.demands, d.cause = cause → d.sto = sto → d.who = who → bitAt d.groups k = false) :
    k ∈ s.unlatched cause sto groups who := by
  refine List.mem_filter.mpr ⟨mem_onesBelow.mpr ⟨hk, hg⟩, ?_⟩
  simp only [Bool.not_eq_true', List.any_eq_false, Bool.and_eq_true, beq_iff_eq]
  rintro d hd ⟨⟨⟨hc, hs⟩, hw⟩, hb⟩
  rw [h d hd hc hs hw] at hb
  cases hb

/-- A demand is latched for a mask of groups and shown, and logged. -/
def State.latchDemand (s : State) (cause : Nat) (sto : Bool) (mask who : Nat) : State :=
  ((s.modB fun b => { b with demands := b.demands ++ [⟨cause, sto, mask, who⟩] }).showLatches).logB (demandSource cause) Ev.SAFETY_STOP
    (cause + 256 * b2n sto + 65536 * who) mask

/-- Beyond the latch itself latching leaves the safety state alone. -/
theorem State.latchDemand_kept (s : State) (cause : Nat) (sto : Bool) (mask who : Nat) :
    SafetyKept (s.modB fun b => { b with demands := b.demands ++ [⟨cause, sto, mask, who⟩] }) (s.latchDemand cause sto mask who) :=
  ((SafetyKept.refl _).showLatches).logB ..

/-- A demand that is latched in every group already changes nothing; else it is latched in the others, and acts on those. -/
theorem State.demand_eq (s : State) (cause : Nat) (sto : Bool) (groups who : Nat) :
    s.demand cause sto groups who =
      if (s.unlatched cause sto groups who).isEmpty then s
      else
        if sto then (s.latchDemand cause sto (groupMask (s.unlatched cause sto groups who)) who).applySto
          (groupMask (s.unlatched cause sto groups who)) cause
        else (s.latchDemand cause sto (groupMask (s.unlatched cause sto groups who)) who).startSs1
          (groupMask (s.unlatched cause sto groups who)) cause := rfl

/-- From `s` to `u` channel B changes its latched demands and running SS1s only, and channel A and the registers SAFE_STAT and CHB_STAT do
not change. -/
structure DemandFrame (s u : State) : Prop where
  chb : ∃ l x, u.chb = { s.chb with demands := l, ss1 := x }
  cha : u.cha = s.cha
  word : ∀ a ∈ [Reg.SAFE_STAT, Reg.CHB_STAT], u.word a = s.word a

theorem DemandFrame.get {s u : State} (h : DemandFrame s u) {f : Fld} (hf : f.addr ∈ [Reg.SAFE_STAT, Reg.CHB_STAT]) : u.get f = s.get f := by
  rw [State.get, State.get, h.word _ hf]

/-- What an action on groups leaves alone after a latch was set. -/
theorem GroupsActed.demandFrame {s u : State} {cause mask who : Nat} {sto : Bool}
    (h : GroupsActed (s.latchDemand cause sto mask who) u) : DemandFrame s u := by
  have hl := s.latchDemand_kept cause sto mask who
  obtain ⟨⟨x, hb⟩, ha, hw⟩ := h
  exact ⟨⟨_, x, by rw [hb, hl.chb]; rfl⟩, ha.trans hl.cha, fun a hm => (hw a hm).trans (hl.word a (List.mem_cons_of_mem _ hm))⟩

/-- What a stop demand leaves alone. -/
theorem State.demand_frame (s : State) (cause : Nat) (sto : Bool) (groups who : Nat) : DemandFrame s (s.demand cause sto groups who) := by
  rw [State.demand_eq]
  split
  · exact ⟨⟨_, _, rfl⟩, rfl, fun _ _ => rfl⟩
  · split
    · exact (State.applySto_acted ..).demandFrame
    · exact (State.startSs1_acted ..).demandFrame

/-- The demands that stand latched after an action on groups are those that latching left. -/
theorem GroupsActed.mem_demands {s u : State} {cause mask who : Nat} {sto : Bool} (h : GroupsActed (s.latchDemand cause sto mask who) u) :
    ⟨cause, sto, mask, who⟩ ∈ u.chb.demands := by
  obtain ⟨x, hb⟩ := h.chb
  rw [hb, (s.latchDemand_kept cause sto mask who).chb]
  exact List.mem_append_right _ (List.mem_singleton.mpr rfl)

/-- A stop demand is latched and acts in every group of its mask in which it was not latched yet. -/
theorem State.demand_demanded (s : State) (cause : Nat) (sto : Bool) (groups who : Nat) :
    Demanded cause sto groups who s (s.demand cause sto groups who) := by
  refine ⟨rfl, fun k hk hg hnot => ?_⟩
  have hmem := State.mem_unlatched hk hg hnot
  have hne : ¬ (s.unlatched cause sto groups who).isEmpty = true := fun he => by
    rw [List.isEmpty_iff.mp he] at hmem
    cases hmem
  have hbit : bitAt (groupMask (s.unlatched cause sto groups who)) k = true :=
    (bitAt_groupMask (onesBelow_filter_rising ..) k).mpr hmem
  rw [State.demand_eq, if_neg hne]
  cases sto
  case true =>
    refine ⟨⟨_, (State.applySto_acted ..).mem_demands, rfl, rfl, rfl, hbit⟩, ?_⟩
    simp only [if_true, State.stoOn_applySto _ _ _ hk, hbit, Bool.or_true]
  case false =>
    exact ⟨⟨_, (State.startSs1_acted ..).mem_demands, rfl, rfl, rfl, hbit⟩, State.stopped_startSs1 _ _ _ hk hbit⟩

/-! ### The failure of channel B's self-supervision (R280) -/

/-- From `s` to `u` channel B's self-supervision fails: it is faulted, shows it, and STO of every group is demanded with cause 17. -/
def SelfFailed (s u : State) : Prop :=
  u.chb.faulted = true ∧ u.get Reg.SAFE_STAT.B_STATE = 2 ∧
    ∃ v : State, v.chb = { s.chb with faulted := true } ∧ Demanded 17 true allGroups noOne v u

theorem State.selfFail_selfFailed (s : State) : SelfFailed s s.selfFail := by
  let v := (s.modB fun b => { b with faulted := true }).set Reg.SAFE_STAT.B_STATE 2
  have hframe : DemandFrame v s.selfFail := State.demand_frame ..
  obtain ⟨l, x, hb⟩ := hframe.chb
  refine ⟨by rw [hb]; rfl, ?_, v, rfl, State.demand_demanded ..⟩
  rw [hframe.get (by decide)]
  exact State.get_set_same _ _ _ (by decide)

/-! ### A sample of the governor (R423–R430) -/

section
variable {s u : State}

theorem SafetyKept.modGov (h : SafetyKept s u) (f : GovSt → GovSt) : SafetyKept s (u.modGov f) := h.trans (.of_eq rfl rfl rfl)

theorem SafetyKept.flag (h : SafetyKept s u) {f : Fld} (hf : f.addr ∉ safetyRegs) : SafetyKept s (u.flag f) :=
  (h.set hf 1).trans (.of_eq rfl rfl rfl)

theorem SafetyKept.creditStep (h : SafetyKept s u) (power : Nat) : SafetyKept s (u.creditStep power) := by
  have credit : ∀ c g, SafetyKept s ((u.set Reg.PT_CREDIT.CREDIT c).modGov g) := fun c g => (h.set (by decide) c).modGov g
  exact .ite (credit ..) (.ite ((credit ..).set (by decide) 0) (credit ..))

theorem SafetyKept.showBoost (h : SafetyKept s u) (b : Bool) : SafetyKept s (u.showBoost b) := by
  refine forN_ind 16 (fun v c hc hv => hv.set ?_ _) _ (h.set (by decide) _)
  simp only [safetyRegs, Reg.CORE_STAT.BOOST, Reg.CORE_STAT, Reg.STO_STAT, Reg.SAFE_STAT, Reg.CHB_STAT, List.mem_cons, List.not_mem_nil, or_false]
  omega

theorem SafetyKept.boostStep (h : SafetyKept s u) (tj : Int) : SafetyKept s (u.boostStep tj) := by
  have removed : ∀ bar, SafetyKept s ((u.showBoost false).log Src.power Ev.BOOST_REMOVED bar (ux 32 tj)) := fun bar =>
    (h.showBoost false).log ..
  exact .ite (.ite h (.ite ((removed _).set (by decide) 1) (removed _))) (.ite (h.showBoost true) h)

theorem SafetyKept.stopStep (h : SafetyKept s u) (tj : Int) : SafetyKept s (u.stopStep tj) :=
  .ite (.ite ((h.set (by decide) 0).modGov _) h) (.ite ((h.set (by decide) 1).log ..) h)

theorem SafetyKept.showAgeing (h : SafetyKept s u) : SafetyKept s u.showAgeing :=
  (((h.setWord (by decide) _).setWord (by decide) _).setWord (by decide) _).setWord (by decide) _

/-- A command of the controller die whose effect leaves the safety state alone does so, with the die powered or not. -/
theorem safetyKept_of_live {c : Instr} {t : Time} {f : State → State} (hc : exec c s = live t s f)
    (hf : ∀ u, SafetyKept s u → SafetyKept s (f u)) : Completes c s (SafetyKept s) :=
  ⟨_, hc, .ite (hf _ (.of_eq rfl rfl rfl)) (.refl s)⟩

end

/-- The governor has no part in the safety state: its registers and records are others. -/
theorem governorSample_safetyKept (t : Time) (temps : List (BitVec 16)) (power : BitVec 16) (s : State) :
    Completes (.governorSample t temps power) s (SafetyKept s) := by
  have hexec : exec (.governorSample t temps power) s = execGovernorSample t temps power s := rfl
  unfold execGovernorSample at hexec
  refine safetyKept_of_live hexec fun u hs => ?_
  extract_lets raw good tj s1 s2 s3 s4 s5 rises s' s6 s7 s8
  have h1 : SafetyKept s s1 := (hs.set (by decide) _).set (by decide) _
  have h2 : SafetyKept s s2 := .ite (h1.flag (by decide)) h1
  have h3 : SafetyKept s s3 := .ite (h2.set (by decide) _) h2
  have h4 : SafetyKept s s4 := (h3.set (by decide) _).set (by decide) _
  have h5 : SafetyKept s s5 := (h4.creditStep _).modGov _
  have h' : SafetyKept s s' := (h5.set (by decide) 1).boostStep tj
  have h6 : SafetyKept s s6 := .ite ((h'.log ..).modGov _) (h5.boostStep tj)
  have h8 : SafetyKept s s8 := (h6.stopStep tj).modGov _
  exact .ite h8 ((h8.modGov _).modGov _).showAgeing

/-! ### The commands of channel B -/

/-- TAP_LOST (R278). -/
theorem exec_tapLost (t : Time) (a : Fin 256) (s : State) : exec (.tapLost t a) s =
    .next (if 64 ≤ (s.tap a.val).missed ∧ s.reportedOn a.val = true then (s.at t).demand 14 true (2 ^ s.ringOf a.val) a.val else s.at t) := rfl

/-- SS1_TIMEOUT of a group that is under SS1 (R269). -/
theorem exec_ss1Timeout_running {s : State} {k : Fin 16} {t0 cause : Nat} (h : tget none s.chb.ss1 k.val = some (t0, cause)) (t : Time) :
    exec (.ss1Timeout t k) s =
      .next (if t0 + s.get (Reg.GRP_CFG.SS1_T k.val) * 1000000 ≤ (s.at t).now then (s.at t).demand 11 true (2 ^ k.val) noOne else s.at t) := by
  change execSs1Timeout t k s = _
  unfold execSs1Timeout liveB
  dsimp only
  rw [State.at_chb, h]
  rfl

/-- SS1_TIMEOUT of a group that is not (R269). -/
theorem exec_ss1Timeout_none {s : State} {k : Fin 16} (h : tget none s.chb.ss1 k.val = none) (t : Time) :
    exec (.ss1Timeout t k) s = .next (s.at t) := by
  change execSs1Timeout t k s = _
  simp only [execSs1Timeout, liveB, State.at_chb, h]

/-- STO_TEST_PULSE (R280). -/
theorem exec_stoTestPulse (t : Time) (k : Fin 16) (lane ok : Bool) (s : State) : exec (.stoTestPulse t k lane ok) s =
    .next (if (!s.stoOn k.val && !ok) = true then (s.at t).selfFail else s.at t) := rfl

/-- The diode's reading and OVERTEMP show. -/
def State.showOvertemp (s : State) (tj : BitVec 16) : State := (s.set Reg.CHB_STAT.TJ tj.toNat).set Reg.SAFE_STAT.OVERTEMP 1

/-- TEMPERATURE_TRIP (R271, R428): 8000 in 1/64 °C are 125 °C. -/
theorem exec_temperatureTrip (t : Time) (tj : BitVec 16) (s : State) : exec (.temperatureTrip t tj) s =
    .next (if 8000 ≤ sx 16 tj.toNat then
        ((s.at t).showOvertemp tj).demand 18 true allGroups noOne
      else (s.at t).set Reg.CHB_STAT.TJ tj.toNat) := rfl

/-- TEMPERATURE_TRIP_CLEAR (R271): 7040 in 1/64 °C are 110 °C. -/
theorem exec_temperatureTripClear (t : Time) (tj : BitVec 16) (s : State) : exec (.temperatureTripClear t tj) s =
    .next (if sx 16 tj.toNat < 7040 then ((s.at t).set Reg.CHB_STAT.TJ tj.toNat).set Reg.SAFE_STAT.OVERTEMP 0
      else (s.at t).set Reg.CHB_STAT.TJ tj.toNat) := rfl

/-- REPORT_MISSING after a report or since the last missing one (R279). -/
theorem exec_reportMissing_awaited {s : State} {t0 : Nat} (h : s.chb.arrivedAt = some t0) (t : Time) :
    exec (.reportMissing t) s = .next (if t0 + 1100000 ≤ (s.at t).now then (s.at t).reportMissing else s.at t) := by
  change execReportMissing t s = _
  simp only [execReportMissing, liveB, State.at_chb, h]
  rfl

/-- REPORT_MISSING where no report is awaited (R279). -/
theorem exec_reportMissing_idle {s : State} (h : s.chb.arrivedAt = none) (t : Time) : exec (.reportMissing t) s = .next (s.at t) := by
  change execReportMissing t s = _
  simp only [execReportMissing, liveB, State.at_chb, h]

/-- LOCKSTEP_MISMATCH with the die powered (R286). -/
theorem exec_lockstepMismatch {s : State} {t : Time} (h : s.Ready t) (word : Bool) : exec (.lockstepMismatch t word) s =
    .next (if s.get Reg.SAFE_STAT.A_STATE = 3 then s.at t else (s.at t).chaHalt word) := by
  change execLockstepMismatch t word s = _
  exact live_ready h _

/-- From `s` to `u` the diode reads 125 °C or more: the reading and OVERTEMP show, and STO of every group is demanded with cause 18 (R428). -/
def Overheated (tj : BitVec 16) (s u : State) : Prop :=
  u.on Reg.SAFE_STAT.OVERTEMP = true ∧ u.get Reg.CHB_STAT.TJ = tj.toNat ∧ ∃ v : State, v.chb = s.chb ∧ Demanded 18 true allGroups noOne v u

theorem State.showOvertemp_demand_overheated (s : State) (tj : BitVec 16) :
    Overheated tj s ((s.showOvertemp tj).demand 18 true allGroups noOne) := by
  have hframe := (s.showOvertemp tj).demand_frame 18 true allGroups noOne
  refine ⟨?_, ?_, _, ?_, State.demand_demanded ..⟩
  · rw [State.on, hframe.get (by decide), State.showOvertemp, State.get_set_same _ _ _ (by decide)]
    decide
  · rw [hframe.get (by decide), State.showOvertemp, State.get_set_ne _ _ _ _ (.inl (by decide)), State.get_set_same _ _ _ (by decide)]
    exact Nat.mod_eq_of_lt tj.isLt
  · rfl

/-- Below 110 °C the reading shows and OVERTEMP ends (R271). -/
theorem overtemp_ends (s : State) (tj : BitVec 16) :
    let u := (s.set Reg.CHB_STAT.TJ tj.toNat).set Reg.SAFE_STAT.OVERTEMP 0
    u.on Reg.SAFE_STAT.OVERTEMP = false ∧ u.get Reg.CHB_STAT.TJ = tj.toNat ∧ u = { s with regs := u.regs } := by
  refine ⟨?_, ?_, rfl⟩
  · rw [State.on, State.get_set_same _ _ _ (by decide)]
    decide
  · rw [State.get_set_ne _ _ _ _ (.inl (by decide)), State.get_set_same _ _ _ (by decide)]
    exact Nat.mod_eq_of_lt tj.isLt

/-- Channel B after a missing report, before the demand (R279). -/
def ChB.missed (b : ChB) (now : Nat) : ChB :=
  { b with valid := false, failures := b.failures + 1, arrivedAt := some now, lastCount := none }

/-- A missing report takes the validity and is counted, and an SS1 of every group is demanded with cause 15 (R279). -/
theorem reportMissing_demands (s : State) :
    s.reportMissing.chb.valid = false ∧ s.reportMissing.chb.failures = s.chb.failures + 1 ∧ s.reportMissing.chb.lastCount = none ∧
      ∃ v : State, v.chb = s.chb.missed s.now ∧ Demanded 15 false allGroups noOne v s.reportMissing := by
  let counted := (s.modB fun b => b.missed s.now).addSat Reg.CHB_STAT.REPORT_MISS 1
  let v := counted.logB Src.channelB Ev.CROSS_CHECK_FAIL 1 counted.chb.failures
  have hv : v.chb = s.chb.missed s.now := ((SafetyKept.refl counted).logB ..).chb
  have hframe : DemandFrame v s.reportMissing := State.demand_frame ..
  obtain ⟨l, x, hb⟩ := hframe.chb
  rw [hv] at hb
  exact ⟨by rw [hb]; rfl, by rw [hb]; rfl, by rw [hb]; rfl, v, hv, State.demand_demanded ..⟩

/-- VDD_SAFE_LOSS (R10, R280): STO stands on every group, channel B is not ready, and of what it held only the confirmed and the last
agreed signature remain. -/
theorem vddSafeLoss_takesTheLatches (t : Time) (s : State) : Completes (.vddSafeLoss t) s fun u =>
    u.get Reg.STO_STAT.STO = 0xFFFF ∧ u.get Reg.SAFE_STAT.B_STATE = 0 ∧
      u.chb = { ChB.init with confirmed := s.chb.confirmed, lastSig := s.chb.lastSig } := by
  let off := (s.at t).applySto allGroups 0
  let v := (off.modB fun b => { ChB.init with confirmed := b.confirmed, lastSig := b.lastSig }).set Reg.SAFE_STAT.B_STATE 0
  have hkept : SafetyKept v v.showLatches := (SafetyKept.refl v).showLatches
  have hsto : off.get Reg.STO_STAT.STO = 0xFFFF := State.get_sto_of_stoOn fun k hk => by
    rw [State.stoOn_applySto _ _ _ hk, bitAt_allGroups hk, Bool.or_true]
  obtain ⟨x, hb⟩ := ((s.at t).applySto_acted allGroups 0).chb
  refine ⟨v.showLatches, rfl, ?_, ?_, ?_⟩
  · rw [State.get, hkept.word _ (by decide), ← State.get, State.get_set_ne _ _ _ _ (.inl (by decide))]
    exact hsto
  · rw [State.get, hkept.word _ (by decide), ← State.get, State.get_set_same _ _ _ (by decide)]
    rfl
  · rw [hkept.chb]
    change { ChB.init with confirmed := off.chb.confirmed, lastSig := off.chb.lastSig } = _
    rw [hb]
    rfl

theorem State.modA_chb (s : State) (f : ChA → ChA) : (s.modA f).chb = s.chb := rfl

theorem State.get_modA (s : State) (f : ChA → ChA) (g : Fld) : (s.modA f).get g = s.get g := rfl

/-- Without the fault word a halt changes A_STATE and what channel A holds. -/
theorem chaHalt_false (s : State) : s.chaHalt false =
    (s.set Reg.SAFE_STAT.A_STATE 3).modA fun a => { a with capturedAt := none, report := none } := rfl

/-- Channel A halts without a word: its report is gone and it shows it; channel B does not know (R286). -/
theorem chaHalt_silent (s : State) :
    (s.chaHalt false).cha.report = none ∧ (s.chaHalt false).get Reg.SAFE_STAT.A_STATE = 3 ∧ (s.chaHalt false).chb = s.chb := by
  rw [chaHalt_false]
  exact ⟨rfl, (State.get_modA ..).trans (State.get_set_same s _ _ (by decide)), (State.modA_chb ..).trans (State.set_chb ..)⟩

/-- Where the fault word is sent an SS1 of every group is demanded with cause 16 besides (R286). -/
theorem chaHalt_demands (s : State) :
    (s.chaHalt true).cha.report = none ∧ (s.chaHalt true).get Reg.SAFE_STAT.A_STATE = 3 ∧
      ∃ v : State, v.chb = s.chb ∧ Demanded 16 false allGroups noOne v (s.chaHalt true) := by
  obtain ⟨hreport, hstate, hchb⟩ := chaHalt_silent s
  have hframe : DemandFrame (s.chaHalt false) (s.chaHalt true) := State.demand_frame ..
  exact ⟨by rw [hframe.cha, hreport], by rw [hframe.get (by decide), hstate], _, hchb, State.demand_demanded ..⟩

/-- What holds of the state a command answers holds of its completion. -/
theorem completes_of_exec {c : Instr} {s u : State} {P : State → Prop} (h : exec c s = .next u) (hP : P u) : Completes c s P := ⟨u, h, hP⟩

/-- Settles O46: command by command, from what each answers and from what a stop demand does (`State.demand_demanded`) and leaves alone
(`State.demand_frame`). -/
theorem channelBDemandsStops : Obligations.ChannelBDemandsStops := by
  refine ⟨fun s t ht => ?_, fun s t hr => ?_⟩
  · have hnow : (s.at t).now = t.toNat := by rw [State.now, State.at_tsc ht]
    refine ⟨fun a hm hon => ?_, fun a hno => ?_, fun k t0 cause hrun => ⟨fun hdue => ?_, fun hnot => ?_⟩, fun k hnone => ?_,
      fun k lane c hc => ?_, fun k lane hoff => ?_, fun k lane ok hno => ?_, fun tj hhot => ?_, fun tj hcool => ?_, fun tj hcool => ?_,
      fun tj hhot => ?_, fun temps power => ?_, fun t0 hwait hdue => ?_, fun hno => ?_, vddSafeLoss_takesTheLatches t s⟩
    · refine completes_of_exec (exec_tapLost t a s) ?_
      rw [if_pos ⟨hm, hon⟩]
      exact State.demand_demanded ..
    · refine completes_of_exec (exec_tapLost t a s) (if_neg ?_)
      rintro ⟨hm, hon⟩
      rcases hno with hlt | hoff
      · omega
      · rw [hon] at hoff
        cases hoff
    · refine completes_of_exec (exec_ss1Timeout_running hrun t) ?_
      rw [hnow, if_pos hdue]
      exact State.demand_demanded ..
    · exact completes_of_exec (exec_ss1Timeout_running hrun t) (if_neg (by omega))
    · exact completes_of_exec (exec_ss1Timeout_none hnone t) rfl
    · simp only [List.mem_cons, List.not_mem_nil, or_false] at hc
      rcases hc with rfl | rfl
      · exact completes_of_exec rfl (s.at t).selfFail_selfFailed
      · exact completes_of_exec rfl (s.at t).selfFail_selfFailed
    · refine completes_of_exec (exec_stoTestPulse t k lane false s) ?_
      rw [hoff]
      exact (s.at t).selfFail_selfFailed
    · refine completes_of_exec (exec_stoTestPulse t k lane ok s) (if_neg ?_)
      rcases hno with h | h <;> simp [h]
    · refine completes_of_exec (exec_temperatureTrip t tj s) ?_
      rw [if_pos hhot]
      exact (s.at t).showOvertemp_demand_overheated tj
    · refine completes_of_exec (exec_temperatureTrip t tj s) ?_
      rw [if_neg (by omega)]
      exact set_sets (by decide) ..
    · refine completes_of_exec (exec_temperatureTripClear t tj s) ?_
      rw [if_pos hcool]
      exact overtemp_ends (s.at t) tj
    · refine completes_of_exec (exec_temperatureTripClear t tj s) ?_
      rw [if_neg (by omega)]
      exact set_sets (by decide) ..
    · obtain ⟨u, hu, hkept⟩ := governorSample_safetyKept t temps power s
      exact completes_of_exec hu ⟨hkept.chb, hkept.word⟩
    · refine completes_of_exec (exec_reportMissing_awaited hwait t) ?_
      rw [hnow, if_pos hdue, ← hnow]
      exact reportMissing_demands (s.at t)
    · rcases hno with hnone | ⟨t0, hwait, hearly⟩
      · exact completes_of_exec (exec_reportMissing_idle hnone t) rfl
      · exact completes_of_exec (exec_reportMissing_awaited hwait t) (if_neg (by omega))
  · refine ⟨fun hruns => ?_, fun hruns => ?_, fun hhalted word => ?_⟩
    · refine completes_of_exec (exec_lockstepMismatch hr true) ?_
      rw [if_neg hruns]
      exact chaHalt_demands (s.at t)
    · refine completes_of_exec (exec_lockstepMismatch hr false) ?_
      rw [if_neg hruns]
      exact chaHalt_silent (s.at t)
    · exact completes_of_exec (exec_lockstepMismatch hr word) (if_pos hhalted)

end Sys2Proof.Machine
